-- ==== Sys2Proof/Word.lean ====
section
/-! DEFINITION. The word types of the HX7416: 32-bit registers and record words (R357, R300), bytes,
and the 64-bit words of a twill step and of the tick counter (R145, R169). -/
namespace Sys2Proof

/-- A 32-bit register, memory or link word. -/
abbrev Word := BitVec 32

/-- A byte. -/
abbrev Byte := BitVec 8

/-- A 64-bit word. -/
abbrev DWord := BitVec 64

/-- The 40-bit mains cycle count `MAINS_CYC` (R26). -/
abbrev Cyc := BitVec 40

end Sys2Proof
end

