-- ==== Sys2Proof/Syntax.lean ====
section
/-! DEFINITION. The commands of the block: what the host, the board, the radio side and the device's own engines and
firmware do to it, one constructor for each row of the table of commands, and the records their operands use.
Physical readings (levels, decoded bits, voltages, temperatures) are operands. -/
namespace Sys2Proof

/-- Who reads or writes a register: a host port, firmware, or the applet (R360, R363, R399). -/
inductive Reader where
  | spiA | spiB | fw | applet
  deriving DecidableEq, Repr

/-- What starts a mains cycle (R26). -/
inductive CycleSrc where
  | crossing | flywheel | step
  deriving DecidableEq, Repr

/-- What a read of a protected memory found (R145): no error, one error that was corrected, or one that cannot be. -/
inductive EccRead where
  | clean | fixed | bad
  deriving DecidableEq, Repr

/-- One result that a stage of a receive chain forms, by what goes into it (R103, R104): an ADC sample, taken a number of samples
before the row's tick; the 61 samples of a CIC output; a sample of the residual canceller, real or imaginary part; the input
samples of half-band `k` + 1 and of the channel filter, newest first; the input samples of the resampler, newest first, with the
fractional position in 1/65,536 sample. -/
inductive StageIn where
  | adc (back : Nat) (v : BitVec 12)
  | cic (x : List Int)
  | residual (imag : Bool) (x : Int)
  | halfBand (k : Fin 7) (x : List Int)
  | channel (x : List Int)
  | resample (frac : Nat) (x : List Int)
  deriving DecidableEq, Repr

/-- One block of a detector of R124: detector 0 CS, 1 TE, 2 IF; the samples, real and imaginary part, that enter the stage it
listens to, oldest first, of which the first ones only fill the channel filter; results of the stages ahead of it. -/
structure DetBlock where
  det : Fin 3
  samples : List (Int × Int)
  stages : List StageIn
  deriving DecidableEq, Repr

/-- What the collision separator has of a window (R132-R134): its points, its noise deviation, the channel vectors it
estimates in order of decreasing length, the projected bits of each of these tags, and whether its internal parity held
(R453). -/
structure SepResult where
  points : List (List Int)
  sigma : Nat
  vecs : List (List Int)
  bits : List (List Bool)
  parityOk : Bool
  deriving DecidableEq, Repr

/-- What firmware takes from the receive side for a singulated tag (R184, R227): RSSI and phase codes. -/
structure TagRead where
  rssi : Byte
  phase : Byte
  deriving DecidableEq, Repr

/-- One reading of the ping unit (R268): amplitude and phase codes, the external-field level, whether a sample was
blanked, and whether its oscillator started. -/
structure Ping where
  amp : BitVec 12
  phase : BitVec 12
  ext : Nat
  blanked : Bool
  oscOk : Bool
  deriving DecidableEq, Repr

/-- Addressing of an ISO/IEC 15693 request (R279). -/
inductive TagMode where
  | nonAddressed
  | addressed (uid : DWord)
  | selected
  deriving DecidableEq, Repr

/-- An ISO/IEC 15693 request to the commissioning tag: the tick of its EOF, its mode, CRC and option flag, the rail in
mV at the checks before steps 1 to 5 (R286), and the step in which the field collapses, if any (R287). -/
structure TagFrame where
  t : Nat
  mode : TagMode
  crcOk : Bool
  opt : Bool
  vh1 : Nat
  vh2 : Nat
  vh3 : Nat
  vh4 : Nat
  vh5 : Nat
  collapse : Option (Fin 6)
  deriving DecidableEq, Repr

/-- The three registers held in the TAGM FRAM (R295). -/
inductive TagmReg where
  | cfg | uidCfg | fprot
  deriving DecidableEq, Repr

/-- What every host frame carries (R300, R303-R305, R308): the ticks of its select fall, of the end of its host part and of
its select release, its port (false A, true B), its sequence number and its check word. -/
structure FrameIn where
  fall : Nat
  t : Nat
  rel : Nat
  port : Bool
  seq : BitVec 8
  crc : Word
  deriving DecidableEq, Repr

/-- A command packet as firmware takes it (R330): its command ring, tag, reply ring, option bits and block words. -/
structure Packet where
  cring : Nat
  tag : Nat
  rring : Nat
  prog : Bool
  after : Bool
  hold : Bool
  block : List Word
  deriving DecidableEq, Repr

/-- What a calibration run measured (R431, R432, R443, R444): its element codes, word 5 of the CAL record, the slice SNR
codes of calibration 4, and the slices it could not bring into range. -/
structure CalMeasure where
  codes : List Int
  info : Word
  snr : List Nat
  badSlices : BitVec 18
  storeOk : Bool
  deriving DecidableEq, Repr

/-- What a re-plan measured (R444): ring-oscillator delay loss in ppm, PA gain loss in 0.01 dB and HF impedance drift in
0.1 %. -/
structure AgeMeasure where
  ro : Nat
  pa : Int
  hf : Int
  deriving DecidableEq, Repr


/-- A command of the block: one constructor for each row of the table of commands, with the row's operands. Every `t` is
the fine tick at which the command falls. -/
inductive Instr where
  -- Mains time (R16-R57)
  | zcEdge (t : Nat) (inp falling : Bool) (held : Nat)
  | zcPrimaryWaitExpiry (t : Nat)
  | zcDisagree (t : Nat)
  | missedCrossing (t : Nat)
  | selfStart (t : Nat) (sixty : Bool)
  | cycleStart (t : Nat) (src : CycleSrc)
  | slotBoundary (t b : Nat) (meas : Option Nat)
  | planSyncRequest (t : Nat) (r : Reader)
  | noiseClr (t : Nat) (r : Reader)
  | planDataAccess (t : Nat) (r : Reader) (shadow : Bool) (wr : Option Word)
  | enterFree (t : Nat)
  | slewDone (t : Nat)
  | stepApply (t : Nat)
  | stepHoldEnd (t : Nat)
  | oscSwitch (t : Nat) (toRc : Bool)
  -- UHF front end (R58-R102)
  | chanDataWrite (t : Nat) (r : Reader) (shadow : Bool) (v : Word)
  | dwellExpiry (t : Nat)
  | paLim (t : Nat) (lim : Bool)
  | reflDetect (t : Nat) (port : Bool) (fwd ref : Nat) (cw : Option Nat)
  | radioTransitionDone (t : Nat) (biasOk readbackOk : Bool)
  | windowEndRampdown (t : Nat)
  | lockLost (t : Nat)
  | lockAcquired (t : Nat)
  | lockHoldExpiry (t : Nat)
  | calResume (t : Nat)
  | cancConverged (t : Nat) (chain : Bool) (wi wq : BitVec 10) (residual : Int)
  | cancTimeout (t : Nat) (chain : Bool)
  | cancDataAccess (t : Nat) (r : Reader) (wr : Option Word)
  | seedClear (t : Nat) (r : Reader)
  | coexReqLead (t : Nat)
  | coexGrant (t : Nat)
  | coexHoldExpiry (t : Nat)
  | coexWithdraw (t : Nat)
  | blankInput (t : Nat) (which level : Bool)
  | blankExtExpiry (t : Nat) (which : Bool)
  -- Receive chains (R103-R141)
  | coefDataAccess (t : Nat) (r : Reader) (chain : Bool) (wr : Option Word)
  | chainRun (t : Nat) (r : Reader) (chain : Bool)
  | chainStop (t : Nat) (r : Reader) (chain : Bool)
  | drcLearnEnd (t : Nat) (chain : Bool) (samples : List (Int × Int))
  | detectorBlock (t : Nat) (chain : Bool) (blk : DetBlock)
  | frameSync (t : Nat) (chain : Bool) (snr blf : Nat)
  | diversityDecide (t : Nat)
  | frameDecoded (t : Nat) (chain : Bool) (bits : List Bool) (stages : List StageIn)
  | sepDone (t : Nat) (res : SepResult)
  -- Twill sequencer (R142-R171)
  | tstart (rd ra rb : BitVec 5)
  | thalt (rd ra rb : BitVec 5)
  | tpatch (rd ra rb : BitVec 5)
  | swflag (rd ra rb : BitVec 5)
  | abreq (rd ra rb : BitVec 5)
  | tresume (rd ra rb : BitVec 5)
  | condrd (rd ra rb : BitVec 5)
  | logpop (rd ra rb : BitVec 5)
  | doorbell (rd ra rb : BitVec 5)
  | stepFetch (t th : Nat) (ecc : EccRead)
  | waitTimeExpiry (t th : Nat)
  | waitFlagTrue (t th : Nat)
  | waitFlagTimeout (t th : Nat)
  | waitSlot (t th : Nat)
  | seqNop (t th : Nat)
  | seqHalt (t th : Nat)
  | seqCall (t th : Nat)
  | seqRet (t th : Nat)
  | loop (t th : Nat)
  | setcnt (t th : Nat)
  | anchor (t th : Nat)
  | signal (t th : Nat)
  | seqPost (t th : Nat)
  | radio (t th : Nat)
  | hop (t th : Nat)
  | aerial (t th : Nat)
  | txf (t th : Nat)
  | pwradj (t th : Nat)
  | rxopen (t th : Nat)
  | seqRxclose (t th : Nat)
  | hffield (t th : Nat) (extLevel : Nat)
  | hftx (t th : Nat)
  | hfrx (t th : Nat)
  | hfclose (t th : Nat)
  | hfping (t th : Nat) (ping : Ping)
  | gatePass (t th : Nat)
  | txFrameEnd (t : Nat)
  | abortTakeHold (t th : Nat)
  | turnCommit (t : Nat)
  | turnAbandon (t : Nat)
  | tabDataHAccess (t : Nat) (r : Reader) (shadow : Bool) (wr : Option Word)
  -- Gen2 inventory (R172-R200)
  | slotLogEntry (t : Nat) (read : Option TagRead)
  | fbDataAccess (t : Nat) (r : Reader) (shadow : Bool) (wr : Option Word)
  -- Tag access (R201-R224)
  | coverCodePrepare (t : Nat)
  | accessUnitJudge (t : Nat)
  -- Comb and Damask (R225-R244)
  | cp1Place (rd ra rb : BitVec 5)
  | cp1Lookup (rd ra rb : BitVec 5)
  | cp1Cellrd (rd ra rb : BitVec 5)
  | cp1Sweep (rd ra rb : BitVec 5)
  | cp1Free (rd ra rb : BitVec 5)
  | sweepVisit (t : Nat)
  | rowSpare (t bucket : Nat) (uncor : List Nat)
  | combDumpRead (t : Nat) (r : Reader)
  | epochAdvance (t : Nat)
  | dmkCfgWrite (t : Nat) (r : Reader) (v : Word)
  | sweepRoomWaitEnd (t : Nat)
  -- HF reader (R245-R275)
  | lpcdPing (t : Nat) (ping : Ping)
  | lpcdConfirmPing (t : Nat) (ping : Ping)
  | rebase (t : Nat) (r : Reader)
  | hfFbDataAccess (t : Nat) (r : Reader) (shadow : Bool) (wr : Option Word)
  | hfRxDataRead (t : Nat) (r : Reader)
  | hfTxEnd (t : Nat)
  | hfFrameDecoded (t : Nat) (raw : List Bool) (erased : Bool)
  | hfColl (t : Nat) (pos : Nat)
  | hfWindowTmo (t : Nat)
  | hfWindowEnd (t : Nat)
  | hfOverrunExpiry (t : Nat)
  | hfAcChoice (t : Nat)
  -- Commissioning tag (R276-R298)
  | tagmSessionStart (t vh : Nat)
  | tagmSessionEnd (t vh : Nat)
  | inventory15693 (f : TagFrame) (slots16 : Bool) (afi : Option Byte) (mask : List Bool)
  | stayQuiet (f : TagFrame)
  | readSingleBlock (f : TagFrame) (blk : Byte)
  | writeSingleBlock (f : TagFrame) (blk : Byte) (data : List Word)
  | readMultipleBlocks (f : TagFrame) (first : Byte) (count : Nat)
  | select15693 (f : TagFrame)
  | resetToReady (f : TagFrame)
  | getSystemInformation (f : TagFrame)
  | getMultipleBlockSecurity (f : TagFrame) (first : Byte) (count : Nat)
  | unsupportedTagCommand (f : TagFrame) (code : Byte)
  | mboxLockTimeout (t : Nat)
  | tagmMbDataRead (t : Nat) (r : Reader)
  | tagmConfigWrite (t : Nat) (r : Reader) (which : TagmReg) (v : Word)
  -- Host link (R299-R329)
  | registerWrite (f : FrameIn) (shadow : Bool) (addr : BitVec 13) (data : List Word)
  | registerRead (f : FrameIn) (shadow : Bool) (addr : BitVec 13) (n : Nat)
  | commandPush (f : FrameIn) (ring : Nat) (packet : List Word)
  | ringPull (f : FrameIn) (ring max ack : Nat) (ecc : Bool)
  | bulkWrite (f : FrameIn) (shadow : Bool) (addr : BitVec 13) (data : List Word)
  | bulkRead (f : FrameIn) (shadow : Bool) (addr : BitVec 13)
  | bulkApplyDone (t : Nat) (port : Bool)
  | frameAbort (fall t : Nat) (port : Bool)
  | selectWake (t : Nat) (port : Bool)
  | waggle (fall t : Nat) (port : Bool)
  | reepoch (t : Nat) (r : Reader) (port : Bool)
  | portOff (t : Nat) (r : Reader) (port off : Bool)
  | masterMode (t : Nat) (r : Reader) (on : Bool)
  | masterTransfer (t : Nat) (r : Reader)
  | masterTransferDone (t : Nat) (rx : List Word)
  -- Commands (R330-R342)
  | packetTake (t : Nat)
  | cmdNop (t : Nat) (p : Packet)
  | getInfo (t : Nat) (p : Packet)
  | setTurn (t : Nat) (p : Packet)
  | suspend (t : Nat) (p : Packet)
  | resume (t : Nat) (p : Packet)
  | cancel (t : Nat) (p : Packet)
  | queryOp (t : Nat) (p : Packet)
  | data (t : Nat) (p : Packet)
  | timeRead (t : Nat) (p : Packet)
  | listen (t : Nat) (p : Packet)
  | inventory (t : Nat) (p : Packet)
  | selectSet (t : Nat) (p : Packet)
  | tagRead (t : Nat) (p : Packet)
  | tagWrite (t : Nat) (p : Packet)
  | tagBlockwrite (t : Nat) (p : Packet)
  | tagBlockerase (t : Nat) (p : Packet)
  | tagLock (t : Nat) (p : Packet)
  | tagKill (t : Nat) (p : Packet)
  | tagPermalock (t : Nat) (p : Packet)
  | tagUntraceable (t : Nat) (p : Packet)
  | tagAuth (t : Nat) (p : Packet)
  | hfCampaign (t : Nat) (p : Packet)
  | hfApdu (t : Nat) (p : Packet)
  | hfRelease (t : Nat) (p : Packet)
  | mboxRead (t : Nat) (p : Packet)
  | mboxWrite (t : Nat) (p : Packet)
  | combSweepReport (t : Nat) (p : Packet)
  | combSweepPurge (t : Nat) (p : Packet)
  | combSweepDepart (t : Nat) (p : Packet)
  | combSweepPin (t : Nat) (p : Packet)
  | combSweepUnpin (t : Nat) (p : Packet)
  | combSweepLink (t : Nat) (p : Packet)
  | combLookup (t : Nat) (p : Packet)
  | damaskKeyLoad (t : Nat) (p : Packet)
  | damaskKeyGenerate (t : Nat) (p : Packet)
  | damaskKeyMarkNx (t : Nat) (p : Packet)
  | damaskKeyExport (t : Nat) (p : Packet)
  | damaskKeyErase (t : Nat) (p : Packet)
  | damaskEpoch (t : Nat) (p : Packet)
  | calRun (t : Nat) (p : Packet)
  | onlineTest (t : Nat) (p : Packet)
  | serviceFence (t : Nat) (p : Packet)
  | serviceUnfence (t : Nat) (p : Packet)
  | serviceRetire (t : Nat) (p : Packet)
  | leaveSafe (t : Nat) (p : Packet)
  | enterSafe (t : Nat) (p : Packet)
  | ledgerRead (t : Nat) (p : Packet)
  | imageCommit (t : Nat) (p : Packet)
  | appletStart (t : Nat) (p : Packet)
  | appletStop (t : Nat) (p : Packet)
  | swapCore (t : Nat) (p : Packet)
  | appletCmd (t : Nat) (p : Packet)
  -- Operations and rings (R334-R356)
  | operationStart (t tag : Nat) (ecc : Bool)
  | heldRecordWrite (t : Nat)
  | gapDeferredWrite (t ring : Nat)
  | ringCfgWrite (t : Nat) (r : Reader) (ring : Nat) (v : Word)
  | ringFlush (t : Nat) (r : Reader) (ring : Nat)
  | ringStale (t ring : Nat)
  -- Register space (R357-R374)
  | setCopy (t : Nat) (r : Reader)
  | copyDone (t : Nat)
  | sysCtrlSafe (t : Nat) (r : Reader) (v : Word)
  | softReset (t : Nat) (r : Reader) (v : Word)
  | latchedPairRead (t : Nat) (r : Reader) (addr : BitVec 13)
  | genericRegisterWrite (t : Nat) (r : Reader) (shadow : Bool) (addr : BitVec 13) (v : Word)
  -- Adeara core (R375-R395)
  | add (c : Bool) (rd ra rb : BitVec 5)
  | sub (c : Bool) (rd ra rb : BitVec 5)
  | and (c : Bool) (rd ra rb : BitVec 5)
  | or (c : Bool) (rd ra rb : BitVec 5)
  | xor (rd ra rb : BitVec 5)
  | shl (rd ra rb : BitVec 5)
  | shr (rd ra rb : BitVec 5)
  | sra (rd ra rb : BitVec 5)
  | slt (rd ra rb : BitVec 5)
  | sltu (rd ra rb : BitVec 5)
  | min (rd ra rb : BitVec 5)
  | max (rd ra rb : BitVec 5)
  | minu (rd ra rb : BitVec 5)
  | maxu (rd ra rb : BitVec 5)
  | mov (c : Bool) (rd ra : BitVec 5)
  | mul (rd ra rb : BitVec 5)
  | mulh (rd ra rb : BitVec 5)
  | mulhu (rd ra rb : BitVec 5)
  | div (rd ra rb : BitVec 5)
  | divu (rd ra rb : BitVec 5)
  | rem (rd ra rb : BitVec 5)
  | remu (rd ra rb : BitVec 5)
  | clz (rd ra : BitVec 5)
  | popc (rd ra : BitVec 5)
  | addi (c : Bool) (rd ra : BitVec 5) (imm : BitVec 14)
  | andi (rd ra : BitVec 5) (imm : BitVec 14)
  | ori (rd ra : BitVec 5) (imm : BitVec 14)
  | xori (rd ra : BitVec 5) (imm : BitVec 14)
  | shli (c : Bool) (rd ra : BitVec 5) (imm : BitVec 14)
  | shri (c : Bool) (rd ra : BitVec 5) (imm : BitVec 14)
  | srai (rd ra : BitVec 5) (imm : BitVec 14)
  | slti (rd ra : BitVec 5) (imm : BitVec 14)
  | sltiu (rd ra : BitVec 5) (imm : BitVec 14)
  | lui (rd : BitVec 5) (imm : BitVec 19)
  | li (c : Bool) (rd : BitVec 5) (imm : BitVec 19)
  | ldw (c : Bool) (rd ra : BitVec 5) (imm : BitVec 14) (ecc : Bool)
  | ldh (rd ra : BitVec 5) (imm : BitVec 14) (ecc : Bool)
  | ldhu (rd ra : BitVec 5) (imm : BitVec 14) (ecc : Bool)
  | ldb (rd ra : BitVec 5) (imm : BitVec 14) (ecc : Bool)
  | ldbu (rd ra : BitVec 5) (imm : BitVec 14) (ecc : Bool)
  | stw (c : Bool) (rd ra : BitVec 5) (imm : BitVec 14)
  | sth (rd ra : BitVec 5) (imm : BitVec 14)
  | stb (rd ra : BitVec 5) (imm : BitVec 14)
  | beq (ra rb : BitVec 5) (off : BitVec 14)
  | bne (ra rb : BitVec 5) (off : BitVec 14)
  | blt (ra rb : BitVec 5) (off : BitVec 14)
  | bge (ra rb : BitVec 5) (off : BitVec 14)
  | bltu (ra rb : BitVec 5) (off : BitVec 14)
  | bgeu (ra rb : BitVec 5) (off : BitVec 14)
  | bz (c : Bool) (ra : BitVec 5) (off : BitVec 14)
  | bnz (c : Bool) (ra : BitVec 5) (off : BitVec 14)
  | j (c : Bool) (off : BitVec 24)
  | call (off : BitVec 24)
  | callr (ra : BitVec 5)
  | jr (ra : BitVec 5)
  | ret (c : Bool)
  | rtt
  | wait (t : Nat) (irq : Bool)
  | csrrd (rd : BitVec 5) (csr : BitVec 5)
  | csrwr (ra : BitVec 5) (csr : BitVec 5)
  | fence
  | wspill
  | wfill
  | trap (imm : BitVec 14)
  | cus (sel : Fin 16) (rd ra rb imm : BitVec 5) (ecc : Bool)
  | cp2Crcinit (rd ra rb : BitVec 5)
  | cp2Crcfeed (rd ra rb : BitVec 5)
  | cp2Crcrd (rd ra rb : BitVec 5)
  | cp3Pseud (rd ra rb : BitVec 5)
  | cp3Epkey (rd ra rb : BitVec 5)
  | cp3Siphash (rd ra rb : BitVec 5)
  | interruptEntry (t : Nat) (cause : Fin 16)
  -- Applet services (R396-R400)
  | yield (t : Nat)
  | waitEvent (t : Nat)
  | waitEventTimer (t : Nat)
  | cmdGet (t : Nat)
  | cmdReply (t : Nat)
  | appletPost (t : Nat)
  | tagXchg (t : Nat)
  | timeService (t : Nat)
  | filterRet (t : Nat) (words : Option (List Word))
  | filterCall (t : Nat)
  | filterBudgetExpiry (t : Nat)
  -- Control store, image port and boot (R393-R404)
  | ucDataHWrite (t : Nat) (r : Reader) (v : Word)
  | ucDecWrite (t : Nat) (r : Reader) (n : Fin 16) (v : Word)
  | imgDataWrite (t : Nat) (r : Reader) (v : Word)
  | imgRestart (t : Nat) (r : Reader)
  | imgBoot (t : Nat) (r : Reader)
  | bootRom (t : Nat) (flash : List Word)
  | wdog (t : Nat)
  -- Power domains (R408-R430)
  | pmuModeWrite (t : Nat) (r : Reader) (v : Word)
  | entryStageDone (t : Nat) (dom : Fin 14)
  | quiesceTimeout (t : Nat) (dom : Fin 14)
  | wakeStageDone (t : Nat) (dom : Fin 14)
  | atWake (t : Nat)
  | vioChange (t : Nat) (railB up : Bool)
  | vpaChange (t : Nat) (up : Bool)
  -- Reset and start-up (R471-R481)
  | brownOut (t : Nat)
  | powerOnReset (t : Nat)
  | pinReset (t : Nat) (low : Bool)
  | startupStageDone (t : Nat) (straps : BitVec 3)
  -- Calibration and ageing (R431-R450)
  | tempSample (t : Nat) (temp : Int)
  | calRunStart (t : Nat)
  | calRunDone (t : Nat) (m : CalMeasure)
  | ageHour (t : Nat)
  | replan (t : Nat) (m : AgeMeasure)
  -- Faults and service (R451-R470)
  | faultRecoveryDone (t : Nat) (writeOk : Bool)
  | recoveryTmo (t : Nat)
  | queuedFaultStart (t : Nat)
  | checkSelf (t : Nat) (ok : Bool)
  | damaskSelf (t : Nat) (ok : Bool)
  | testPhaseDone (t : Nat) (ok : Bool) (addr : Word)
  | fenceCtrlWrite (t : Nat) (r : Reader) (v : Word)
  | ledgerDataRead (t : Nat) (r : Reader)
  -- Further rows of the chapters above
  | hfLim (t : Nat) (allowed : Nat)
  | paBuck (t : Nat)
  | hfDrv (t : Nat)
  | hfStartOfFrame (t : Nat) (framed erased : Bool)
  | malformedFrame (f : FrameIn) (header : Word) (rest : List Word)
  | uhfChanDataRead (t : Nat) (r : Reader) (shadow : Bool)
  | linkMDataAccess (t : Nat) (r : Reader) (wr : Option Word)
  | calSnrDataRead (t : Nat) (r : Reader)
  | ucDataHRead (t : Nat) (r : Reader)
  deriving DecidableEq, Repr

end Sys2Proof
end

