-- ==== Sys2Proof/Machine/Bits.lean ====
section
/-! DEFINITION. Bit fields of words, sign extension, saturating counters and byte order: the helpers every
bank's field map is read with (R11, R12, R304). -/
namespace Sys2Proof.Machine

/-- Field `[hi:lo]` of a word, as a number. -/
def fld (w : BitVec n) (hi lo : Nat) : Nat := w.toNat / 2 ^ lo % 2 ^ (hi - lo + 1)

/-- One bit of a word. -/
def bit (w : BitVec n) (i : Nat) : Bool := w.getLsbD i

/-- `v` (taken modulo the field's width) placed in field `[hi:lo]`. -/
def put (hi lo v : Nat) : Word := BitVec.ofNat 32 (v % 2 ^ (hi - lo + 1) * 2 ^ lo)

/-- A Bool in bit `i`. -/
def putB (i : Nat) (b : Bool) : Word := if b then BitVec.ofNat 32 (2 ^ i) else 0

/-- Word `w` with field `[hi:lo]` replaced by `v`. -/
def setFld (w : Word) (hi lo v : Nat) : Word :=
  w &&& ~~~ (put hi lo (2 ^ (hi - lo + 1) - 1)) ||| put hi lo v

/-- A number read as two's complement in `n` bits. -/
def toSigned (n v : Nat) : Int := if v % 2 ^ n < 2 ^ (n - 1) then (v % 2 ^ n : Nat) else (v % 2 ^ n : Nat) - (2 ^ n : Nat)

/-- An integer stored as a 32-bit two's complement word. -/
def ofInt (i : Int) : Word := BitVec.ofInt 32 i

/-- The word of a natural number, modulo 2^32. -/
def nw (n : Nat) : Word := BitVec.ofNat 32 n

/-- A counter field that saturates at `max`. -/
def satInc (max v k : Nat) : Nat := min max (v + k)

/-- Four bytes as a word, first byte in [31:24]. -/
def word4 (a b c d : Byte) : Word := a ++ b ++ c ++ d

/-- The four bytes of a word, most significant first (R304). -/
def bytesOf (w : Word) : List Byte :=
  [w.extractLsb' 24 8, w.extractLsb' 16 8, w.extractLsb' 8 8, w.extractLsb' 0 8]

/-- The bits of a word, most significant first. -/
def bitsOf (n : Nat) (w : Nat) : List Bool := (List.range n).map fun i => w.testBit (n - 1 - i)

/-- A list of bits, most significant first, as a number. -/
def natOfBits (bs : List Bool) : Nat := bs.foldl (fun a b => 2 * a + (if b then 1 else 0)) 0

/-- Bits packed into words from bit 31, the last word filled with zeros (R315, R340). -/
def packBits : Nat → List Bool → List Word
  | 0, _ => []
  | fuel + 1, bs =>
    if bs.isEmpty then []
    else nw (natOfBits ((bs.take 32) ++ List.replicate (32 - min 32 bs.length) false)) :: packBits fuel (bs.drop 32)

/-- The first `n` bits of a list of words, from bit 31. -/
def unpackBits (n : Nat) (ws : List Word) : List Bool :=
  (ws.flatMap fun w => bitsOf 32 w.toNat).take n

/-- Element `i` of a list with default. -/
def nth (d : α) (l : List α) (i : Nat) : α := (l[i]?).getD d

/-- List with element `i` replaced; a list shorter than `i` is filled up with the default an absent element reads as. -/
def upd (d : α) : List α → Nat → α → List α
  | [], 0, v => [v]
  | [], i + 1, v => d :: upd d [] i v
  | _ :: l, 0, v => v :: l
  | a :: l, i + 1, v => a :: upd d l i v

/-! Check codes (R8, R304), bit by bit -/

/-- One bit through a CRC register of `n` bits, most significant bit first. -/
def crcBit (n poly reg : Nat) (b : Bool) : Nat :=
  let top := reg.testBit (n - 1) != b
  let sh := reg * 2 % 2 ^ n
  if top then sh ^^^ poly else sh

/-- CRC-5 x^5+x^3+1 of a frame, preset 0b01001 as ISO/IEC 18000-63 has it. -/
def crc5 (bs : List Bool) : Nat := bs.foldl (fun r b => crcBit 5 0x09 r b) 0x09

/-- CRC-16 x^16+x^12+x^5+1 with a preset, most significant bit first, not inverted. -/
def crc16 (preset : Nat) (bs : List Bool) : Nat := bs.foldl (fun r b => crcBit 16 0x1021 r b) preset

/-- The CRC-16 of a Gen2 frame: preset 0xFFFF, sent inverted. -/
def gen2Crc16 (bs : List Bool) : Nat := 0xFFFF ^^^ crc16 0xFFFF bs

/-- Bits that end in their own CRC-16 check good. -/
def crc16Good (bs : List Bool) : Bool :=
  decide (16 ≤ bs.length) &&
    decide (gen2Crc16 (bs.take (bs.length - 16)) = natOfBits (bs.drop (bs.length - 16)))

end Sys2Proof.Machine
end

