-- ==== Sys2Proof/Machine/HashOps.lean ====
section
/-! DEFINITION. CRC-32C (R227, R304) and SipHash-2-4 (R237), byte by byte. -/
namespace Sys2Proof.Machine

/-- Bytes of a list of bits, the first bit most significant; the last byte filled with zeros. -/
def bytesOfBits : Nat → List Bool → List Byte
  | 0, _ => []
  | fuel + 1, bs =>
    if bs.isEmpty then []
    else BitVec.ofNat 8 (natOfBits (bs.take 8 ++ List.replicate (8 - min 8 bs.length) false)) :: bytesOfBits fuel (bs.drop 8)

/-- One bit of the reflected CRC-32C. -/
def crcStep32 (r : Nat) : Nat := if r % 2 = 1 then (r / 2) ^^^ 0x82F63B78 else r / 2

/-- One byte through the CRC-32C register. -/
def crcByte32 (r : Nat) (b : Byte) : Nat :=
  crcStep32 (crcStep32 (crcStep32 (crcStep32 (crcStep32 (crcStep32 (crcStep32 (crcStep32 (r ^^^ b.toNat))))))))

/-- CRC-32C of bytes: preset ones, final inversion (R304). -/
def crc32c (bs : List Byte) : Nat := 0xFFFFFFFF ^^^ bs.foldl crcByte32 0xFFFFFFFF

/-! SipHash-2-4 -/

/-- State of SipHash. -/
structure SipState where
  v0 : BitVec 64
  v1 : BitVec 64
  v2 : BitVec 64
  v3 : BitVec 64

/-- One SipRound. -/
def sipRound (s : SipState) : SipState :=
  let v0 := s.v0 + s.v1
  let v1 := s.v1.rotateLeft 13 ^^^ v0
  let v0 := v0.rotateLeft 32
  let v2 := s.v2 + s.v3
  let v3 := s.v3.rotateLeft 16 ^^^ v2
  let v0 := v0 + v3
  let v3 := v3.rotateLeft 21 ^^^ v0
  let v2 := v2 + v1
  let v1 := v1.rotateLeft 17 ^^^ v2
  let v2 := v2.rotateLeft 32
  ⟨v0, v1, v2, v3⟩

/-- A message word. -/
def sipWord (s : SipState) (m : BitVec 64) : SipState :=
  let s := sipRound (sipRound { s with v3 := s.v3 ^^^ m })
  { s with v0 := s.v0 ^^^ m }

/-- Up to eight bytes as a little-endian word. -/
def le64 (bs : List Byte) : BitVec 64 :=
  (bs.zip (List.range 8)).foldl (fun (w : BitVec 64) (p : Byte × Nat) => w ||| (p.1.zeroExtend 64 <<< (8 * p.2))) 0#64

/-- Message words of whole groups of eight bytes, then the last with the length in its top byte. -/
def sipBody (len : Nat) : Nat → List Byte → SipState → SipState
  | 0, _, s => s
  | fuel + 1, bs, s =>
    if 8 ≤ bs.length then sipBody len fuel (bs.drop 8) (sipWord s (le64 (bs.take 8)))
    else sipWord s (le64 bs ||| (BitVec.ofNat 64 (len % 256) <<< 56))

/-- SipHash-2-4 of a message under two little-endian key words. -/
def sipHash (k0 k1 : BitVec 64) (msg : List Byte) : BitVec 64 :=
  let s : SipState := ⟨k0 ^^^ 0x736f6d6570736575, k1 ^^^ 0x646f72616e646f6d, k0 ^^^ 0x6c7967656e657261, k1 ^^^ 0x7465646279746573⟩
  let s := sipBody msg.length (msg.length / 8 + 1) msg s
  let s := sipRound (sipRound (sipRound (sipRound { s with v2 := s.v2 ^^^ 0xff })))
  s.v0 ^^^ s.v1 ^^^ s.v2 ^^^ s.v3

/-- The sixteen bytes of a key held with byte 0 in its most significant byte. -/
def keyBytes (k : BitVec 128) : List Byte := (List.range 16).map fun i => k.extractLsb' (120 - 8 * i) 8

/-- SipHash-2-4 under a key. -/
def sipHashK (k : BitVec 128) (msg : List Byte) : BitVec 64 := sipHash (le64 ((keyBytes k).take 8)) (le64 ((keyBytes k).drop 8)) msg

/-- Eight bytes of a hash, little-endian, as one big-endian value. -/
def leValue (h : BitVec 64) : BitVec 64 :=
  (List.range 8).foldl (fun (w : BitVec 64) (i : Nat) => w <<< 8 ||| (h.extractLsb' (8 * i) 8).zeroExtend 64) 0#64

/-- Epoch key K_E (R237). -/
def epochKey (k : BitVec 128) (e : Word) : BitVec 128 :=
  let eb := (bytesOf e).reverse
  leValue (sipHashK k (eb ++ [0])) ++ leValue (sipHashK k (eb ++ [1]))

end Sys2Proof.Machine
end

