-- ==== Sys2Proof/Config.lean ====
section
/-! DEFINITION. What a device fixes for itself and the values the manual leaves open. None of the opaque constants has a
body: nothing can be proved of a value of theirs. -/
namespace Sys2Proof.Config

/-- Vector of a canceller in TRACK, WI in the low ten bits and WQ above (R84), which follows changes the manual does not give:
chain, fine tick, the vector TRACK was entered with. -/
opaque trackVec : Bool → Nat → BitVec 10 → BitVec 10 → BitVec 20

/-- Grade of the part (R372): true for HX7416-BG-E. -/
opaque gradeE : Bool

/-- The fused device serial (R371). -/
opaque serial : BitVec 64

/-- Version of the firmware in the boot flash or image (R372) when no image names one. -/
opaque fwVersion : BitVec 32

/-- Words of the entropy source (R305, R239, R281), one for each draw. -/
opaque entropy : Nat → BitVec 64

/-- A word the manual leaves open, by the free-value counter. -/
opaque freeWord : Nat → BitVec 32

/-- Period in 1/256 ticks after a crossing: loop bandwidth code, period before, measured interval (R51). -/
opaque loopPeriod : Nat → Nat → Nat → Nat

/-- Phase origin in 1/256 ticks after a crossing: loop bandwidth code, origin before, crossing instant (R51). -/
opaque loopOrigin : Nat → Nat → Nat → Nat

/-- TRCAL of `GEN2_DERIVED` (R198) for a link whose TRcal its field cannot hold, or with BLF 0. -/
opaque trcalField : BitVec 32 → BitVec 12

/-- Coefficients of firmware's default banks (R118) and of its default resampler bank (R121), by address. -/
opaque defaultCoef : Nat → BitVec 18
opaque defaultTap : Nat → Nat → BitVec 16

/-- 14-bit NCO cosine at a phase in units of 2^-32 turn (R104): the manual gives no table. -/
opaque ncoCos : BitVec 32 → BitVec 14

/-- Level code of a detector at the port from the summed power of its unmarked samples and their number (R124, R125): chain,
detector. It holds the chain's gain calibration. -/
opaque portLevel : Bool → Nat → Nat → Nat → Nat

/-- Residual estimate while it learns (code 0) or tracks at a bandwidth code (R108), which depends on samples no command brings:
chain, fine tick, code, the estimate it started from. -/
opaque drcTrack : Bool → Nat → Nat → Int → Int → BitVec 18 × BitVec 18

/-- BLF in Hz after the timing loop of R120 has followed a frame: LOOP_BW, BLF before, symbols. -/
opaque timingLoop : Nat → Nat → Nat → Nat

/-- Code in 0.25 dB of a positive SINR given as a fraction (R134), whose rounding the manual does not give. -/
opaque sinrCode : Nat → Nat → Nat

/-- Distance D of a ping while no baseline is held (R269): amplitude and phase code. -/
opaque pingNoBase : Nat → Nat → BitVec 8

/-- Baseline word after a tracking step (R270), whose rounding to codes the manual does not give: the baseline word, the
ping's amplitude and phase, TRK. -/
opaque lpcdTrack : BitVec 32 → Nat → Nat → Nat → BitVec 32

/-- Control store, boot ROM word at a word address (R404): the ROM's contents are not in the manual. -/
opaque romWord : Nat → BitVec 32

/-- The spare firmware can take the state version that the running firmware publishes (R405): the two versions. -/
opaque swapTakes : BitVec 32 → BitVec 32 → Bool

/-- Residual estimate after saturation at the canceller's range (R108), whose rounding the manual does not give: the two
parts of the estimate before it. -/
opaque drcLimited : Int → Int → BitVec 18 × BitVec 18

/-- Fine ticks from the end of a frame at the port to the rise of DEC_VALID, which R126 bounds but does not fix:
`RXD_x_PATH` in use and the BLF. -/
opaque decodeLatency : BitVec 32 → BitVec 32 → Nat

/-- Fine ticks from the end of an HF frame at the ports to HF_DEC_VALID, which R249 and R255 bound but do not fix: the
reply descriptor. -/
opaque hfDecodeLatency : BitVec 32 → Nat

/-- A link epoch drawn from entropy word `n`: bit 0 is set for SPI_B (R305). -/
def epoch (n : Nat) (portB : Bool) : BitVec 16 :=
  (entropy n).extractLsb' 0 16 &&& 0xFFFE ||| (if portB then 1 else 0)

/-- A branch or jump offset counts from the next instruction rather than from its own (R377 does not say). -/
opaque branchFromNext : Bool

/-- Results the manual does not give (R377, R379): shifts by 32 or more (0 SHL, 1 SHR, 2 SRA), and the quotient and
remainder of the most negative number by -1 (3, 4): operation, operands. -/
opaque aluOpen : Nat → BitVec 32 → BitVec 32 → BitVec 32

/-- Factory code of a calibration (R440), which the manual does not give: instance, code. -/
opaque factoryCode : Nat → Nat → Int

/-- Median SNR of the active slices (R446), which the manual gives for a chain while there is one threshold for both: the
SNR codes of the active slices of chain A and of chain B. -/
opaque sliceMedian : List Nat → List Nat → Nat

end Sys2Proof.Config
end

