-- ==== Sys2Proof/Machine/CMap.lean ====
section
/-! DEFINITION. A canonical sparse map from addresses to values: register banks, memories and tables.
Keys rise strictly and no entry equals what an unlisted key reads as, so equal contents are equal data. -/
namespace Sys2Proof.Machine

/-- A sparse map: a list of (key, value) pairs. What an unlisted key reads as is given at each access. -/
abbrev CMap (α : Type) := List (Nat × α)

/-- The value at key `k`; an unlisted key reads `d k`. -/
def CMap.get (d : Nat → α) : CMap α → Nat → α
  | [], k => d k
  | (i, v) :: m, k => if i = k then v else CMap.get d m k

/-- Removes key `k`. -/
def CMap.del (m : CMap α) (k : Nat) : CMap α := m.filter fun e => e.1 != k

/-- Puts value `v` at a key `k` that is not listed, in key order. -/
def CMap.ins : CMap α → Nat → α → CMap α
  | [], k, v => [(k, v)]
  | (i, w) :: m, k, v => if i < k then (i, w) :: CMap.ins m k v else (k, v) :: (i, w) :: m

/-- Writes `v` at key `k`; writing what an unlisted key reads as removes the entry. -/
def CMap.set [DecidableEq α] (d : Nat → α) (m : CMap α) (k : Nat) (v : α) : CMap α :=
  if v = d k then CMap.del m k else CMap.ins (CMap.del m k) k v

/-- Removes every key in `[lo, hi]`: the contents go back to what unlisted keys read as. -/
def CMap.clearRange (m : CMap α) (lo hi : Nat) : CMap α := m.filter fun e => e.1 < lo || hi < e.1

/-- The keys rise strictly, starting above `lo`. -/
def CMap.sortedFrom : Nat → CMap α → Bool
  | _, [] => true
  | lo, (k, _) :: m => decide (lo ≤ k) && CMap.sortedFrom (k + 1) m

/-- The canonical form: keys rise strictly and no entry equals what an unlisted key reads as. -/
def CMap.wf [DecidableEq α] (d : Nat → α) (m : CMap α) : Bool :=
  CMap.sortedFrom 0 m && m.all fun e => decide (e.2 ≠ d e.1)

end Sys2Proof.Machine
end

