-- ==== Sys2Proof/Machine/State.lean ====
section
/-! DEFINITION. The state of the HX7416 as plain data: every register, memory, queue, counter, mode and pin the
manual gives the device, and the queue of waiting commands. Times are in fine ticks of 6.25 ns. -/
namespace Sys2Proof.Machine

/-! Timebase (R16-R57) -/

/-- States of the timebase with the codes of R21. -/
inductive TbState where
  | none | acquire | locked | slew | fly | free
  deriving DecidableEq, Repr

/-- A qualified edge: the input (false A, true B), its time stamp in fine ticks. -/
structure ZcEdge where
  input : Bool
  stamp : Nat
  deriving DecidableEq, Repr

/-- A crossing kept for acquisition: its edge's time stamp in 1/256 tick, corrected by the skew where R18 says so, and the
delay compensation of its input in pu (R16, R22). -/
structure Crossing where
  stampQ : Nat
  dly : Int
  deriving DecidableEq, Repr

/-- A slew in progress (R45): its error in pu, and the part removed, in 1/65,536 pu, up to an instant in 1/256 tick. -/
structure Slew where
  e : Int
  base : Nat
  startQ : Nat
  deriving DecidableEq, Repr

/-- A noise measurement in progress in a listen slot (R39). -/
structure NoiseRun where
  slot : Nat
  moved : Bool
  deriving DecidableEq, Repr

/-- The mains timebase. Instants with the suffix Q are in 1/256 of a fine tick, as `TIME_PERIOD` is. -/
structure Timebase where
  st : TbState
  /-- `MAINS_CYC` (R26). -/
  cyc : Cyc
  /-- `TIME_PERIOD` (R51); 0 in NONE and ACQUIRE. -/
  period : Nat
  /-- Instant of pu 0 of the running cycle. -/
  originQ : Nat
  /-- Consecutive qualified crossings kept for acquisition, newest first (R22, R44). -/
  acq : List Crossing
  /-- Last crossing taken by the loop, in 1/256 tick. -/
  lastTakenQ : Option Nat
  /-- Last qualified edge of each input. -/
  lastA : Option Nat
  lastB : Option Nat
  /-- A non-primary edge that waits for the primary input, and the end of the wait (R18). -/
  wait : Option (ZcEdge × Nat)
  /-- Skew of R19 in pu and in 1/256 tick, the crossing it was measured at last, and the run of large skews. -/
  skew : Int
  skewQ : Int
  skewAtQ : Option Nat
  skewRun : Nat
  disagreed : Bool
  /-- Consecutive expected crossings without a qualified edge (R23), and the origin last counted. -/
  missed : Nat
  missedForQ : Option Nat
  /-- Flywheel bound of R41: ppm·ticks accumulated up to `uncSince`, and µs of switches. -/
  uncAcc : Nat
  uncSince : Nat
  uncSw : Nat
  /-- FREE by self-start, no bound known (R24, R41). -/
  selfStarted : Bool
  /-- `TIME_FLY_CYC` restarts from 1 at the next flywheel start (R48). -/
  flyFresh : Bool
  /-- Since the last re-lock no crossing was taken in LOCKED or SLEW: `TIME_FLY_CYC` holds (R48). -/
  flyStop : Bool
  /-- Crossing that may be the first of a re-lock pair (R43). -/
  relockQ : Option Nat
  /-- Crossings still to come before the error of an oscillator switch is taken (R49). -/
  oscRelock : Nat
  /-- A step waiting under R46, with its error e, and the end of a backward hold. -/
  stepPend : Option Int
  holdUntil : Option Nat
  /-- A slew in progress (R45). -/
  slewing : Option Slew
  onRc : Bool
  /-- Input the last crossing was taken from: 0 none, 1 A, 2 B (R52). -/
  zcSrc : Nat
  rateErr : Bool
  /-- `TIME_PLAN_POS.PHASE` and a pending plan sync (R31). -/
  planPhase : Nat
  planSync : Bool
  /-- Building slot begun last, and the tick it began at (R25). -/
  slot : Option Nat
  slotTick : Nat
  /-- `TIME_PERIOD` that the reserves were last computed with (R36). -/
  cutPeriod : Nat
  /-- Noise bins: 16-bit halves of `TIME_NOISE_n` by building slot (R40). -/
  noise : CMap (BitVec 16)
  noiseRun : Option NoiseRun
  deriving DecidableEq, Repr

/-! UHF transmit, ports and radio states (R58-R102) -/

/-- Radio states of R74; MOVING is a transition in progress. -/
inductive Radio where
  | sleep | standby | synthOn | cwHold | tx | rxCw | rxListen
  deriving DecidableEq, Repr

/-- A transition in progress: where it ends, when (unless it waits for lock), and the ticks it needs after lock. -/
structure Move where
  target : Radio
  done : Nat
  waitLock : Bool
  rest : Nat
  /-- The carrier ramps up on the way (R65, R86), and the tick its ramp-up starts at once the synthesiser has lock. -/
  ramp : Bool
  takeAt : Nat
  /-- Entry hopped to (R60). -/
  hop : Option Nat
  /-- A hop whose ramp is complete and whose seeded convergence is still to come (R75). -/
  seeded : Bool
  deriving DecidableEq, Repr

/-- Canceller states of R84. -/
inductive CancSt where
  | idle | acq | track | hold
  deriving DecidableEq, Repr

/-- The analog vector canceller of one chain (R84-R89). -/
structure Canc where
  st : CancSt
  wi : BitVec 10
  wq : BitVec 10
  ok : Bool
  /-- Ticks of search so far and since when they count (R88). -/
  acqAcc : Nat
  acqSince : Option Nat
  failed : Bool
  /-- The search began from a valid seed (R86). -/
  seeded : Bool
  deriving DecidableEq, Repr

/-- Forward level over the last 16 us of unmodulated carrier on an aerial, with the power code and the trim it was measured
under (R66). -/
structure FwdMeas where
  level : Nat
  power : Nat
  trim : Int
  deriving DecidableEq, Repr

/-- A blanking input: its level and the end of its extension (R94). -/
structure BlankIn where
  level : Bool
  extEnd : Nat
  deriving DecidableEq, Repr

/-- The coexistence request of one gated path: COEX_REQ and COEX_PRIO asked for, and the planned start of emission (R91). -/
structure CoexReq where
  req : Bool
  prio : Bool
  planned : Nat
  deriving DecidableEq, Repr

/-- The UHF transmit side. Coupler readings, EVENT and IRQ_EN are in the register map. -/
structure Uhf where
  st : Radio
  move : Option Move
  lock : Bool
  /-- Current channel-list entry; none before the first hop (R60). -/
  entry : Option Nat
  /-- The carrier is on; its port, power code P, frequency in kHz and modulation as taken (R64, R65). -/
  carrier : Bool
  port : Bool
  power : Nat
  /-- LVL + TRIM as taken, before the offset of PWRADJ and the clamp (R64, R150). -/
  base : Int
  freq : Nat
  modCfg : Word
  aerial : Nat
  /-- Throws selected on the two buses and the ends of their settle waits (R69, R72). -/
  throwA : Nat
  throwB : Nat
  settleA : Nat
  settleB : Nat
  /-- Tick from which the bus of the transmit aerial's port carries its throw, and the throw it carries until then (R72). -/
  throwAt : Nat
  throwPrev : Nat
  /-- End of the last ramp-down: until then its port carries RF (R72). -/
  rfEnd : Nat
  /-- Offset of PWRADJ in 0.25 dB steps and the drive trim of R66 in 0.125 dB steps. -/
  adj : Int
  trim : Int
  /-- Last forward levels by aerial (R66). -/
  fwdMeas : CMap (Option FwdMeas)
  /-- Carrier-on ticks since the last hop and since when the carrier is on (R62). -/
  dwellAcc : Nat
  carrierAt : Nat
  dwell : Bool
  paLim : Bool
  reflA : Bool
  reflB : Bool
  /-- Arrival of the RF request held at the lock gate, and of a HOP that has passed and waits for its own lock (R80). -/
  heldAt : Option Nat
  hopAt : Option Nat
  /-- Entry the synthesiser is tuned to for a HOP held at the lock and grant gates; that HOP came in RX_LISTEN (R75, R80, R83). -/
  hopEntry : Option Nat
  hopListen : Bool
  /-- An exchange of thread U is in progress (R153). -/
  exchange : Bool
  /-- The last frame sent: its buffer, the descriptor it names (R177), whether it starts with the preamble, and its bits with the
RN16 or handle inserted and the check code appended (R174, R175). -/
  lastBuf : Nat
  lastDesc : Nat
  txPre : Bool
  txBits : List Bool
  canc : List Canc
  seeds : CMap Word
  /-- Level of COEX_GNT, the tick of its last withdrawal (R92), and the requests of the UHF path and of the HF driver (R91). -/
  gntPin : Bool
  gntOff : Option Nat
  coexU : CoexReq
  coexH : CoexReq
  blank0 : BlankIn
  blank1 : BlankIn
  deriving DecidableEq, Repr

/-! Direct-sampling receive chains (R103-R141) -/

/-- Chain states of R113. -/
inductive ChainSt where
  | off | stopped | idle | sampling
  deriving DecidableEq, Repr

/-- A receive window open on a chain (R152, R127). -/
structure Window where
  /-- Thread that opened it. -/
  thr : Nat
  desc : Word
  div : Bool
  sep : Bool
  pair : Bool
  /-- It opened on a chain that is OFF, STOPPED or stopping (R114). -/
  dead : Bool
  blanked : Bool
  unset : Bool
  sat : Bool
  /-- Every sample so far saturated the ADC or the CIC (R453). -/
  satAll : Option Bool
  teRose : Bool
  synced : Bool
  erased : Bool
  snr : Nat
  /-- Bits decided, first bit first. -/
  bits : List Bool
  deriving DecidableEq, Repr

/-- One receive chain. LVL, BLF_EST, RESULT, EVENT, IRQ_EN and CTRL are in the register map. -/
structure Chain where
  st : ChainSt
  stopPend : Bool
  /-- `RXD_x_SLICE.ACTIVE` and a set that waits for the next entry to SAMPLING (R106). -/
  active : BitVec 18
  nextActive : Option (BitVec 18)
  /-- Coefficient memory 0x000-0x4FF (R111). -/
  coef : CMap Word
  /-- Firmware has loaded its default banks since the last OFF (R115): unlisted words read as theirs. -/
  stock : Bool
  /-- Settings taken at entry to SAMPLING (R116): PATH, NCO, RSMP, DEC. -/
  runPath : Word
  runNco : Word
  runRsmp : Word
  runDec : Word
  /-- NCO frequency word in use, and the phase accumulator at a fine tick, from which it runs on (R107). -/
  ncoWord : Word
  ncoPhase : Word
  ncoAt : Nat
  /-- Residual estimate r, 18 + 18 bits, when it was held last (R108), and the end of its learn interval. -/
  ri : Int
  rq : Int
  learnEnd : Option Nat
  /-- Tick of a RUN = 1 that the chain follows when the tick is over (R113). -/
  runAt : Option Nat
  /-- Tick of the last entry to SAMPLING, before which every sample carries the start-up mark, and the spans of fine ticks since
  then in which the samples carry a blanked or unsettled mark, oldest first (R122). -/
  entryAt : Nat
  marks : List (Nat × Nat)
  /-- BLF in Hz that the resampler tracks, and the tick of the last frame sync (R120). -/
  blf : Nat
  syncAt : Nat
  /-- Detector flags (R124). -/
  cs : Bool
  te : Bool
  ifl : Bool
  win : Option Window
  /-- Condition flags of R129 and R155. -/
  sync : Bool
  decValid : Bool
  crcOk : Bool
  /-- Bits of the last decided frame and whether the check unit found its CRC good. -/
  frame : List Bool
  /-- Successive windows saturated throughout (R453). -/
  satRuns : Nat
  deriving DecidableEq, Repr

/-- Diversity and separation shared by the chains (R130-R134); SEP_RES and SEP_SINR are in the register map. -/
structure Pair where
  divB : Bool
  divDone : Bool
  sepDone : Bool
  sepMulti : Bool
  sepRec : Bool
  /-- N_EST of the last separation. -/
  nEst : Nat
  /-- Chain whose frame was taken: false A, true B. -/
  taken : Bool
  /-- TE rose, and frame sync was declared, in the windows opened last (R133). -/
  te : Bool
  sync : Bool
  deriving DecidableEq, Repr

/-! Twill sequencer (R142-R171, R508) -/

/-- A request that waits for an abort point (R338). -/
inductive PendReq where
  | none | suspend | cancel
  deriving DecidableEq, Repr

/-- States of a thread with the codes of R143. -/
inductive ThrState where
  | halted | waiting | held | suspended | fault
  deriving DecidableEq, Repr

/-- Where a HELD thread stands (R151, R152): at the slot gate, at the cut-off, at the lock and grant gates, at an
RXOPEN or HFRX held in TX or behind a borrowed chain. -/
inductive Gate where
  | slot | cut | lock | rx
  deriving DecidableEq, Repr

/-- One sequencer thread. -/
structure Thread where
  st : ThrState
  step : Nat
  /-- `SEQ_THR_n_STAT.CODE` (R171). -/
  code : Nat
  /-- Loop counters LC0 to LC3 and the call stack, innermost first (R156). -/
  lc : List Nat
  stack : List Nat
  anchor : Nat
  timeout : Bool
  late : Bool
  refused : Bool
  /-- The step fetched, the tick of its fetch, and whether a fetch is still to come (R149). -/
  word : DWord
  fetchAt : Nat
  toFetch : Bool
  /-- The gate a HELD thread stands at (R151). -/
  gate : Option Gate
  /-- Suspend or cancel pending and the tick it became pending (R159). -/
  abort : PendReq
  abortAt : Nat
  /-- Sub-reason of its last fault (R463). -/
  sub : Nat
  /-- Tag of the operation the thread runs (R161). -/
  op : Option Nat
  deriving DecidableEq, Repr

/-- A turn that is armed or waits for a copy (R163, R368): its command's tag, its slot and its T0. -/
structure Armed where
  tag : Nat
  slot : Option Nat
  t0 : Option Nat
  armed : Bool
  deriving DecidableEq, Repr

/-- The sequencer's own state; SW flags, slot log, doorbells and the instants and conditions it keeps (R154, R155). -/
structure Seq where
  thr : List Thread
  sw : BitVec 8
  /-- Slot log, oldest first, four words an entry (R158). -/
  log : List (List Word)
  /-- Doorbells rung and not served: thread and code (R158). -/
  bells : List (Nat × Nat)
  turn : Option Armed
  /-- Low half of the step written next through the shadow data port (R166). -/
  dataL : Word
  /-- Tick at which the SEQ domain came ON (R169). -/
  onAt : Nat
  txEnd : Bool
  txEndAt : Option Nat
  takenEnd : Option Nat
  hfFrameEnd : Option Nat
  rnReady : Bool
  winOk : Bool
  blanked : Bool
  handleOk : Bool
  tagErr : Bool
  /-- The taken chain of the last UHF window closed (R158). -/
  lastChain : Bool
  /-- Conditions of the four threads as sampled at the tick before the present one, those sampled at the present tick once a
  thread has acted in it, and what has acted so far: 0 nothing, 1 to 4 threads U to H, 5 firmware through CP0 (R149, R157). -/
  prev : List Nat
  cur : Option (List Nat)
  stage : Nat
  deriving DecidableEq, Repr

/-! Gen2 inventory (R172-R200) -/

/-- A slot of a round (R187, R189): Q of its frame, its number in the frame, and the frame taken last with the aerial it came
through, as they stand when its entry is posted (R184). -/
structure SlotRec where
  q : Nat
  fslot : Nat
  frame : List Bool
  aerial : Nat
  deriving DecidableEq, Repr

/-- The inventory firmware's round state; the six counters are in the register map. -/
structure Gen2 where
  /-- Q, session and target of the round, and the link and separator setting it uses (R173, R198). -/
  q : Nat
  session : Nat
  target : Bool
  link : Word
  sepOn : Bool
  /-- Target that the Query patched last carries (R190). -/
  tgtNext : Bool
  /-- 0 none, 1 selecting, 2 running, 3 closing. -/
  rstate : Nat
  fslot : Nat
  /-- Floating Q in sixteenths and QNEXT (R187). -/
  qfp : Int
  qnext : Nat
  remain : Bool
  singulated : Bool
  /-- A CUT race closes the round at the next head (R185). -/
  cutRace : Bool
  /-- A turn changed the round's link, session, separator setting or a buffer it uses (R173). -/
  stale : Bool
  /-- Slots whose entries are not posted yet, oldest first, and those behind the entries of thread U not read yet (R187). -/
  slots : List SlotRec
  sent : List SlotRec
  /-- Buffer 0 is patched and SW4 withheld under R194, or withheld for an access operation that waits (R209). -/
  arm : Bool
  hold : Bool
  /-- RN16 of the last taken frame (R175). -/
  rn16 : Option (BitVec 16)
  deriving DecidableEq, Repr


/-! Tag access (R201-R224) -/

/-- What the unit in the air does: find the tag, open it with the password, or work on a block (R203, R204). -/
inductive AccPhase where
  | acquire | access | cover | command | readback
  deriving DecidableEq, Repr

/-- The access operation that thread U runs, as firmware keeps it between units. -/
structure Access where
  /-- Tag of the operation; none while no access operation runs. -/
  op : Option Nat
  phase : AccPhase
  /-- Acquisitions tried, failed attempts at the Access pair, and further attempts at the present block (R216). -/
  acqTries : Nat
  passTries : Nat
  tries : Nat
  /-- Index of the present block and words confirmed in order (R220). -/
  block : Nat
  confirmed : Nat
  /-- The present block was left UNCONFIRMED and is read before anything is written (R218). -/
  unconf : Bool
  /-- The next search uses the old EPC of R223. -/
  oldEpc : Bool
  handle : Option (BitVec 16)
  /-- Working replies since the command (R213). -/
  working : Nat
  /-- EPC bits searched for, and those before an EPC write that is not confirmed (R223). -/
  epc : List Bool
  prevEpc : List Bool
  /-- Tag error code of the last error reply, whether one came, and the cause of a field loss. -/
  tagErrCode : Nat
  tagErrValid : Bool
  cause : Nat
  /-- The table has posted the end of the unit in the air; the field was lost in it, after TX_END of the command; or its handle
was given up at a head (R205, R216). -/
  unitEnd : Bool
  lost : Bool
  afterTx : Bool
  dropped : Bool
  /-- When firmware prepared the frames in the table: a reply that came before it is not one to them. -/
  prepared : Nat
  /-- Bits read so far, for TAG_READ, permalock status and TAG_AUTH. -/
  data : List Bool
  deriving DecidableEq, Repr

/-! Comb ledger and Damask (R225-R244) -/

/-- A COMB_SWEEP command in progress: its operation's tag and the next bucket (R235). -/
structure SweepOp where
  tag : Nat
  bucket : Nat
  deriving DecidableEq, Repr

/-- The Comb: 131,072 cells of eight words at key 8 x cell + word (R225), and its rows. -/
structure Comb where
  cells : CMap Word
  /-- Next cell of the background sweep (R230). -/
  pos : Nat
  /-- Spare rows left, retired buckets, and corrected errors of each row since it was last written (R236). -/
  spares : Nat
  retired : List Nat
  fixes : CMap Nat
  /-- Row copy in progress: its bucket and its end. -/
  sparing : Option (Nat × Nat)
  sweep : Option SweepOp
  /-- Visits the background sweep has made in a mains cycle, and that cycle (R230). -/
  visits : Nat
  visitCyc : Cyc
  /-- Placements and records written, 64 bits (R243). -/
  places : DWord
  recs : DWord
  /-- Cell latched by a read of its word 0 (R235). -/
  latch : Option (Nat × List Word)
  deriving DecidableEq, Repr

/-- Damask: the key and its marks (R239), the epoch and the start of its count (R238), the hasher's key of CP3. -/
structure Damask where
  key : Option (BitVec 128)
  nx : Bool
  origin : Bool
  gen : BitVec 16
  epoch : Word
  since : Nat
  epKey : BitVec 128
  deriving DecidableEq, Repr

/-! HF reader and card detection (R245-R275) -/

/-- An HF receive window (R254, R256). -/
structure HfWin where
  desc : Word
  /-- End of acceptance of a start of frame; none without limit or on a listen. -/
  tmo : Option Nat
  sof : Bool
  energy : Bool
  coll : Bool
  cpos : Nat
  decided : Bool
  good : Bool
  erased : Bool
  parBad : Bool
  blanked : Bool
  sat : Bool
  nbits : Nat
  /-- Its wait for a start of frame is over (R254). -/
  shut : Bool
  deriving DecidableEq, Repr

/-- What the exchange in firmware's HF table is (R260-R266): none, the frames of a Type A loop, of Type B, of 15693 with STAY QUIET,
of JIS with a further window after its Polling; the blocks of the block protocol; a campaign that holds while a card is in it, and the
end of a command. -/
inductive HfStep where
  | idle | reqa | anticoll | select | hlta | rats | reqb | attrib | hltb | inventory | quiet | polling | listen
  | iblock | rack | rnak | wtx
  | deselect (status : Nat)
  | hold | over
  deriving DecidableEq, Repr

/-- Firmware's work between HF frames (R260, R261, R264, R266). -/
structure AcState where
  /-- The exchange in the table, the half of the table that holds it, and whether its end is posted. -/
  step : HfStep
  area : Bool
  unitEnd : Bool
  proto : Nat
  /-- Cascade level 1 to 3, iterations at it, and known bits of the level. -/
  level : Nat
  iter : Nat
  known : List Bool
  /-- Type B and JIS slots in force and repeats made; masks stacked for 15693. -/
  slots : Nat
  repeats : Nat
  stack : List (List Bool)
  /-- Slot of the present pass, from 0, and whether one before it was not clean. -/
  slot : Nat
  dirty : Bool
  /-- ID bytes found so far, and word 4 of the card's record. -/
  uid : List Nat
  info : Word
  /-- Block protocol: command bytes acknowledged, response bytes received, recoveries made, and a chain of the card in progress. -/
  sent : Nat
  resp : List Nat
  tries : Nat
  chain : Bool
  deriving DecidableEq, Repr

/-- The HF side. EVENT, IRQ_EN, RESULT, ISO4_STAT and the LPCD words are in the register map. -/
structure Hf where
  /-- 0 off, 1 set level, 2 ping level; the level taken at field-on and what the driver delivers of it, in 0.5 dBm (R245, R246). -/
  field : Nat
  level : Nat
  power : Nat
  lim : Bool
  ext : Bool
  det : Bool
  proto : Nat
  /-- The field reaches its level at this tick (R247). -/
  upAt : Nat
  /-- A frame in the air, and the end of the last one sent since the last window closed (R254). -/
  txBusy : Bool
  txEndAt : Option Nat
  lastDesc : Nat
  /-- Bits of the last frame sent, with their check code and parity (R250, R251), and the data bits of its last part byte. -/
  txBits : List Bool
  split : Nat
  win : Option HfWin
  page : Bool
  rx : CMap Word
  /-- Condition flags of R255. -/
  txEnd : Bool
  decValid : Bool
  crcOk : Bool
  coll : Bool
  /-- A card selected by the campaign is ACTIVE (R248). -/
  cardActive : Bool
  /-- End of an overrun in progress (R259). -/
  overrun : Option Nat
  ac : AcState
  /-- LPCD: pings left to confirm, end of a ping in progress, last ping start, baseline load asked for (R268-R270). -/
  confirm : Option Nat
  pingEnd : Nat
  /-- End of the drive of the last ping, its 6 us at the ping level (R268). -/
  pingOff : Nat
  lastPing : Nat
  rebase : Bool
  /-- Wait granted by the last S(WTX), for the next window only (R265). -/
  wtx : Option Nat
  deriving DecidableEq, Repr

/-! Commissioning tag and mailbox (R276-R298) -/

/-- States of the tag of ISO/IEC 15693 (R276, R279). -/
inductive TagSt where
  | ready | quiet | selected
  deriving DecidableEq, Repr

/-- A commit record of a block (R284). -/
structure CommitRec where
  seq : BitVec 16
  img : Bool
  fld : Bool
  /-- Its CRC-16 is good. -/
  valid : Bool
  deriving DecidableEq, Repr

/-- The two records of a block. -/
structure RecPair where
  r0 : CommitRec
  r1 : CommitRec
  deriving DecidableEq, Repr

/-- An MBOX_WRITE in progress (R290): its command's tag, first block, words of all its blocks, start, blocks it will
commit and blocks committed. A block takes 6 us. -/
structure HostWrite where
  tag : Nat
  first : Nat
  words : List Word
  start : Nat
  total : Nat
  done : Nat
  deriving DecidableEq, Repr

/-- The commissioning tag with its FRAM, which has its own supply (R276). -/
structure Tagm where
  /-- Harvested rail in mV. -/
  vh : Nat
  sess : Bool
  /-- End of the last valid frame while the field holds the lock (R288). -/
  lock : Option Nat
  tagSt : TagSt
  uid : DWord
  /-- Stored configuration and the copy in force in the session (R295). -/
  cfg : Word
  uidCfg : Word
  fprot : Word
  cfgS : Word
  uidCfgS : Word
  fprotS : Word
  /-- Both images of each block: word w of image i of block n at key 16n + 8i + w. -/
  fram : CMap Word
  recs : CMap RecPair
  /-- SEQ last reported of each block, 0x10000 for none (R293). -/
  reported : CMap Nat
  hostW : Option HostWrite
  /-- Session counters of R294: valid frames, blocks committed, field writes refused. -/
  nValid : Nat
  nCommit : Nat
  nRefuse : Nat
  /-- Committed words latched by a read of word 0 (R289). -/
  latch : Option (Nat × List Word)
  /-- Bytes of the last reply sent to the field, without CRC; empty for none (R279). -/
  reply : List Byte
  /-- Writes of each commit record, two for each block (R444). -/
  writes : CMap Nat
  deriving DecidableEq, Repr

/-! Host serial link (R299-R329) -/

/-- A bulk write held whole in a port's buffer (R316). -/
structure BulkBuf where
  addr : Nat
  shadow : Bool
  words : List Word
  start : Nat
  deriving DecidableEq, Repr

/-- One SPI slave port. Its EVENT, IRQ_EN, IRQ_MASK, BULK and CNT registers are in the register map. -/
structure Port where
  /-- Link epoch and expected sequence number (R305). -/
  epoch : BitVec 16
  seq : BitVec 8
  /-- Out of service (R323). -/
  off : Bool
  /-- Strap sampled at reset (R299). -/
  mode3 : Bool
  /-- Frames ended bad in a row (R324). -/
  errRun : Nat
  /-- Bulk write being applied (R316). -/
  bulk : Option BulkBuf
  /-- Tick from which the port has been ready without a break: a frame whose select fell before it is not heard (R303). -/
  readyAt : Nat
  /-- Ready word and reply words shifted out in the last frame (R302, R309). -/
  readyWord : Word
  reply : List Word
  deriving DecidableEq, Repr

/-- SPI_B as master (R325, R326). -/
structure Master where
  on : Bool
  /-- End of the transfer in progress. -/
  busy : Option Nat
  /-- Select outputs held low (R326). -/
  low0 : Bool
  low1 : Bool
  /-- Bytes that the transfer in progress, or the last one, sends (R326). -/
  out : List Byte
  /-- Firmware owns the master (R326). -/
  fw : Bool
  /-- MASTER written 0 while a transfer runs. -/
  leaving : Bool
  buf : CMap Word
  deriving DecidableEq, Repr

/-! Rings and operations (R330-R356) -/

/-- One hardware ring: the records or packets it holds, oldest first. EVENT, IRQ_EN, WMARK, MS and DROP are in the
register map. -/
structure Ring where
  en : Bool
  size : Nat
  base : Nat
  recs : List (List Word)
  /-- Records held under R313, from the oldest. -/
  held : Nat
  wpos : Nat
  rpos : Nat
  nseq : BitVec 8
  /-- Drops waiting for room for a GAP (R345). -/
  pendGap : Nat
  /-- The newest record is a GAP that no pull reply has held (R345). -/
  gapFresh : Bool
  /-- A record has been written since reset (R348). -/
  written : Bool
  staleAt : Option Nat
  deriving DecidableEq, Repr

/-- States of an operation with the codes of R336. -/
inductive OpState where
  | queued | running | suspended | done | cancelled | failed
  deriving DecidableEq, Repr

/-- An operation, or a short command whose final REPLY is not written, under its tag (R334). -/
structure Op where
  tag : Nat
  opcode : Nat
  rring : Nat
  cring : Nat
  prog : Bool
  after : Bool
  long : Bool
  st : OpState
  pend : PendReq
  /-- Suspended by the host (R338), suspended by the device under R42. -/
  hostMarked : Bool
  timeSusp : Bool
  progress : Word
  lastProg : Word
  lastProgCyc : Cyc
  lastStatus : Nat
  /-- Order of acceptance. -/
  order : Nat
  block : List Word
  /-- Words its block requires (R333). -/
  need : Nat
  /-- Status with which it ends FAILED at its next abort point (R61, R460). -/
  failAs : Option Nat
  /-- Ended, its final REPLY held under R335. -/
  ended : Bool
  /-- Result words gathered so far (R340). -/
  res : List Word
  /-- Start of the operation's first window, in cycles (R340). -/
  startCyc : Option Cyc
  /-- State of an access operation while it is not RUNNING (R222). -/
  saved : Option Access
  /-- DET has risen since it was accepted: a triggered campaign may start (R271). -/
  trig : Bool
  deriving DecidableEq, Repr

/-- A record held in data SRAM until its ring has room (R335). -/
structure HeldRec where
  tag : Nat
  ring : Nat
  words : List Word
  final : Bool
  deriving DecidableEq, Repr

/-! SYS bank and set pairs (R357-R374) -/

/-- One set of set-paired content (R364). -/
structure CfgSet where
  /-- Registers and fields marked SP. -/
  regs : CMap Word
  /-- Plan memory of 16 x 5 x 3 words. -/
  plan : CMap Word
  /-- Channel list of 64 entries. -/
  chan : CMap Word
  /-- Twill table of 4,096 steps. -/
  tab : CMap DWord
  /-- GEN2 frame buffers, 1,024 words. -/
  fb : CMap Word
  /-- HF frame memory, 2,048 words. -/
  hffb : CMap Word
  deriving DecidableEq, Repr

/-- The SYS bank's own state; its EVENT, IRQ_EN, RST_CAUSE and SCRATCH registers are in the register map. -/
structure Sys where
  ready : Bool
  fwVer : Word
  flash : Bool
  /-- `SYS_SET_STAT.TURNS` and the cycle of the last commit (R369). -/
  turns : BitVec 16
  turnCyc : Cyc
  /-- Tick of the last commit: shadow writes of that tick are discarded (R367). -/
  turnTick : Option Nat
  /-- End of a copy in progress (R368). -/
  copyEnd : Option Nat
  /-- Straps sampled at reset: SPI_A mode, SPI_B mode, boot (R372). -/
  strapA : Bool
  strapB : Bool
  boot : Bool
  /-- Latches of the _H registers: key 3 x pair + reader (R360). -/
  latches : CMap Word
  /-- Stage of the start-up sequence reached (R480); 7 when it is complete. -/
  stage : Nat
  /-- Reset held: RESET_N low or VSYS below its level (R477, R478). -/
  held : Bool
  deriving DecidableEq, Repr

/-- What the present tick has done to event bits and counters, for the order of R363: the bits set in it, and one more
than the word each counter register held at its start. -/
structure TickMarks where
  tick : Nat
  ev : CMap Word
  pre : CMap Nat
  deriving DecidableEq, Repr

/-! Adeara core and applets (R375-R407) -/

/-- What a core does: it executes, it waits in WAIT, or it does not run (R394, R404). -/
inductive CoreRun where
  | run | wait | stopped
  deriving DecidableEq, Repr

/-- One Adeara core with the memories of its own (R375). -/
structure Core where
  pc : Word
  /-- g0 to g7, the 256 windowed registers and h0 to h7 (R378, R380). -/
  g : List Word
  w : List Word
  h : List Word
  sup : Bool
  nest : Bool
  inton : Bool
  win : Nat
  depth : Nat
  tra : Word
  tstate : Word
  tcause : Word
  tval : Word
  tentry : Word
  wsp : Word
  wlim : Word
  wtop : Word
  /-- What `CYCLE` falls short of the cycles since reset (R383). -/
  cycBase : Word
  /-- Instruction SRAM, 65,536 words by word address. -/
  isram : CMap Word
  cs : CMap (BitVec 48)
  dec : CMap Word
  st : CoreRun
  /-- Entry and version of the committed image. -/
  entry : Word
  ver : Word
  deriving DecidableEq, Repr

/-- A CP2 context (R387): polynomial, inversion and the register of the CRC. -/
structure CrcCtx where
  kind : Nat
  inv : Bool
  crc : Word
  deriving DecidableEq, Repr

/-- The flow a filter call preempted, as firmware keeps it: its pc, stack pointer, window and trap registers (R384, R400). -/
structure Saved where
  pc : Word
  g7 : Word
  win : Nat
  depth : Nat
  state : Word
  tra : Word
  tstate : Word
  tcause : Word
  tval : Word
  deriving DecidableEq, Repr

/-- A Comb record on its way to its ring: ring, type and the words after the header. -/
structure FiltRec where
  ring : Nat
  type : Nat
  body : List Word
  deriving DecidableEq, Repr

/-- A filter call in progress: its record as it stood, the end of its time, and the flow it preempted (R400). -/
structure FilterCall where
  item : FiltRec
  deadline : Nat
  back : Saved
  deriving DecidableEq, Repr

/-- A TAG_XCHG in progress (R398). -/
structure Xchg where
  tag : Nat
  addr : Word
  block : List Word
  deriving DecidableEq, Repr

/-- The applet (R396-R400). -/
structure Applet where
  ok : Bool
  run : Bool
  entry : Word
  fentry : Word
  /-- WAIT_EVENT in progress: its mask and the end of its timer. -/
  waiting : Option (Word × Option Nat)
  /-- Tags of APPLET_CMD commands not taken yet, oldest first, and of those taken and not answered. -/
  cmds : List Nat
  taken : List Nat
  bells : List Nat
  /-- TAG_XCHG in progress: the tag it runs under, the address of its reply bits, and that command's block. -/
  xchg : Option Xchg
  filter : Option FilterCall
  /-- Records that wait for the filter, oldest first. -/
  fq : List FiltRec
  deriving DecidableEq, Repr

/-- The image port (R402): `CORE_IMG_CTRL.TARGET`, words so far, CRC state, and the section being filled. -/
structure ImgPort where
  target : Nat
  bytes : Nat
  crc : Word
  bad : Bool
  hdr : List Word
  secs : Nat
  /-- Address word of a section read, its length not read yet; address and bytes left of a section being filled. -/
  secAddr : Option Word
  at_ : Word
  left : Nat
  deriving DecidableEq, Repr

/-- What the two cores share and the service logic of R405. -/
structure Cpu where
  m : Core
  s : Core
  /-- `SYS_STATUS.CORE`: the spare core of CORE_S is in service. -/
  onS : Bool
  /-- Data SRAM, 65,536 words. -/
  dsram : CMap Word
  cp2U : CrcCtx
  cp2S : CrcCtx
  spareOk : Bool
  spareRun : Bool
  swapping : Bool
  bootRom : Bool
  apl : Applet
  img : ImgPort
  /-- The core in service has powered up and its mailbox report of R293 is due. -/
  mboxScan : Bool
  deriving DecidableEq, Repr
/-! Power domains and supplies (R408-R430) -/

/-- Where a domain is: a state reached, or a stage of entry (R416) or of wake (R422) and the tick it began at. -/
inductive DomPos where
  | on | ret | off
  | entering (toOff : Bool) (stage since : Nat)
  | waking (fromOff : Bool) (stage since : Nat)
  deriving DecidableEq, Repr

/-- One power domain: its position, its `PMU_MODE` field and the request that waits (R413, R420). -/
structure Dom where
  pos : DomPos
  mode : Nat
  pend : Option Nat
  deriving DecidableEq, Repr

/-- A domain fully ON in its own mode: what the always-on domain reads as. -/
def Dom.full : Dom := { pos := .on, mode := 0, pend := none }

/-- The PMU; CFG, EVENT, LAST_WAKE, BIAS and the wake masks are in the register map. -/
structure Pmu where
  doms : List Dom
  xo : Bool
  coreBuck : Bool
  vioA : Bool
  vioB : Bool
  vpa : Bool
  /-- Tick of the last wake, for sources that fire together (R421). -/
  wakeAt : Option Nat
  deriving DecidableEq, Repr


/-! Calibration and ageing (R431-R450) -/

/-- One temperature set: its recorded temperature in 0.25 degC and its codes (R439). -/
structure CalSet where
  valid : Bool
  temp : Int
  codes : List Int
  /-- CRC-32C that the record carries in the keeping store (R8, R441). -/
  crc : Word
  deriving DecidableEq, Repr

/-- One calibration; calibrations 1 and 4 have one for each chain (R431). -/
structure CalInst where
  pend : Bool
  /-- It became pending once more while it ran (R434). -/
  again : Bool
  failed : Bool
  reason : Nat
  /-- Runs made since it began, disagreements, and the codes of the run before (R437). -/
  runs : Nat
  disagree : Nat
  prev : Option (List Int)
  /-- Die temperature of its last acceptance or FAILED mark. -/
  lastTemp : Option Int
  accepted : Bool
  sets : List CalSet
  /-- Codes that apply, and codes formed last, which wait for their moment (R438, R440); none: the factory values. -/
  force : Option (List Int)
  next : Option (List Int)
  deriving DecidableEq, Repr

/-- A run in progress: its instance, and whether it is suspended (R80, R436). -/
structure CalRun where
  id : Nat
  held : Bool
  deriving DecidableEq, Repr

/-- A CAL_RUN command: tag, instances still to end, and its result bits (R340, R442). -/
structure CalCmd where
  tag : Nat
  todo : List Nat
  okMask : Word
  failMask : Word
  deriving DecidableEq, Repr

/-- Calibration and the age monitors. CFG, EVENT, COUNT, LAST, margins and monitor words are in the register map. -/
structure Cal where
  /-- 0 TX IQ, 1 bandwidth A, 2 oscillator, 3 DC offset, 4 slices A, 5 bandwidth B, 6 slices B: the layout of PEND. -/
  inst : List CalInst
  run : Option CalRun
  lastId : Nat
  /-- Die temperature in 0.25 degC, and the one the codes were last formed at (R433, R440). -/
  temp : Int
  formed : Int
  /-- Crystal error found by the last oscillator run that measured it (R431). -/
  crystal : Word
  /-- Former request of the CAL domain, to return to when nothing is pending (R435). -/
  former : Option Nat
  cmd : Option CalCmd
  /-- SNR of slice n with VALID in [15]. -/
  snr : CMap Word
  /-- Equivalent hours of stress in units of 2^-48 h; the registers show units of 2^-16 h (R445). -/
  hours : Nat
  /-- Start of the re-plan interval; a re-plan after power-up is due (R446). -/
  replanAt : Nat
  replanUp : Bool
  /-- Periods of the cycles of the last 24 h of LOCKED operation in 1/256 tick, the newest first, and the drift against the nominal
  period at the first re-plan in 0.01 ppm (R444). -/
  lockHist : List Nat
  xoRef : Option Int
  deriving DecidableEq, Repr
/-! Faults and service (R451-R470) -/

/-- One fault: ledger number, block, code, level, start of handling, parent and whether it waited in the queue. -/
structure Handling where
  num : BitVec 16
  block : Nat
  code : Nat
  level : Nat
  start : Nat
  parent : BitVec 16
  detail : Nat
  deriving DecidableEq, Repr

/-- An ONLINE_TEST in progress: its operation's tag, its block, the phases completed, the phase that runs (0: it waits), the phase that
failed (0 none) and the failing address or slice (R466, R467). -/
structure TestRun where
  tag : Nat
  block : Nat
  phase : Nat
  now : Nat
  bad : Nat
  addr : Word
  deriving DecidableEq, Repr

/-- What the keeping store holds for the service logic while KEEP is fenced and the store is not written (R451, R459, R460). -/
structure Kept where
  ledger : List (List Word)
  next : BitVec 16
  fences : BitVec 24
  retired : Word
  safeCause : Word
  hours : Nat
  deriving DecidableEq, Repr

/-- The service logic; fences, retired slices, ledger and safe state are kept (R460, R459). -/
structure Svc where
  /-- Ledger entries of five words with the CRC-32C of each, oldest first (R463), and the next number. While KEEP is fenced those
  after the entries of `kept` stand in data SRAM (R451). -/
  ledger : List (List Word)
  next : BitVec 16
  /-- Open handlings, the innermost first (R455). -/
  opens : List Handling
  /-- Independent faults waiting (R456). -/
  queue : List Handling
  /-- Independent faults whose window runs: block, code of the block's class window start (R456). -/
  recent : List Handling
  /-- Bit b: block b is fenced (R460). -/
  fences : BitVec 24
  /-- `SVC_RETIRED` (R461). -/
  retired : Word
  safe : Bool
  safeCause : Word
  test : Option TestRun
  /-- The keeping store while KEEP is fenced. -/
  kept : Option Kept
  /-- Writes to each record area of the keeping store (R444). -/
  writes : CMap Nat
  deriving DecidableEq, Repr


/-! The whole machine -/

/-- The device without its commissioning tag and without the commands that wait. -/
structure Dev where
  /-- Fine ticks of 6.25 ns since reset. -/
  now : Nat
  /-- Counter behind every free value (`Config.entropy`, `Config.freeWord`): the model's own, not the manual's. -/
  free : Nat
  /-- Word returned by the last single register access of a row. -/
  rdata : Word
  /-- Event bits and counters of the present tick (R363). -/
  marks : TickMarks
  tb : Timebase
  uhf : Uhf
  chA : Chain
  chB : Chain
  pair : Pair
  seq : Seq
  gen2 : Gen2
  acc : Access
  comb : Comb
  dmk : Damask
  hf : Hf
  portA : Port
  portB : Port
  mst : Master
  rings : List Ring
  ops : List Op
  held : List HeldRec
  /-- Order number of the next operation accepted. -/
  opSeq : Nat
  sys : Sys
  cpu : Cpu
  pmu : Pmu
  cal : Cal
  svc : Svc
  /-- Register words of every bank by address, shadow pointers at address + 0x8000; an unlisted one holds `regReset`. -/
  regs : CMap Word
  /-- The two sets of set-paired content; `sel` names the active one (R364). -/
  set0 : CfgSet
  set1 : CfgSet
  sel : Bool
  deriving DecidableEq, Repr

/-- The machine: the device, the commissioning tag on its own supply (R276), and the commands that wait, first in first
out. -/
structure State where
  dev : Dev
  tagm : Tagm
  pending : List Instr
  deriving DecidableEq, Repr

/-- Reasons for which the machine would stop with a fault. The manual has none: every error it describes is recorded,
handled and the device goes on (R453). -/
inductive Fault where
  /-- Raised by nothing; kept so that the type is not empty. Safe. -/
  | unreachable
  deriving DecidableEq, Repr

/-- Reasons for which a command has no meaning here. -/
inductive Refusal where
  /-- The command of this mnemonic has no meaning in the model yet; raised by its arm in `exec`. Safe. -/
  | notModelled (mnemonic : String)
  deriving DecidableEq, Repr

/-- What a command answers. -/
abbrev Out := Host.Outcome State Fault Refusal

/-! Reset: the end of the start-up stage "five domains ON" of a power-on reset (R480), with all supplies good. -/

def Timebase.reset : Timebase :=
  { st := .none, cyc := 0, period := 0, originQ := 0, acq := [], lastTakenQ := none, lastA := none, lastB := none
    wait := none, skew := 0, skewQ := 0, skewAtQ := none, skewRun := 0, disagreed := false, missed := 0, missedForQ := none
    uncAcc := 0, uncSince := 0, uncSw := 0, selfStarted := false, flyFresh := false, flyStop := true, relockQ := none, oscRelock := 0
    stepPend := none, holdUntil := none, slewing := none, onRc := false, zcSrc := 0
    rateErr := false, planPhase := 0, planSync := false, slot := none, slotTick := 0, cutPeriod := 0, noise := [], noiseRun := none }

def Canc.reset : Canc :=
  { st := .idle, wi := 0, wq := 0, ok := false, acqAcc := 0, acqSince := none, failed := false, seeded := false }

def Uhf.reset : Uhf :=
  { st := .sleep, move := none, lock := false, entry := none, carrier := false, port := false, power := 0, base := 0, freq := 0
    modCfg := 0, aerial := 0, throwA := 0, throwB := 0, settleA := 0, settleB := 0, throwAt := 0, throwPrev := 0
    rfEnd := 0, adj := 0, trim := 0, fwdMeas := [], dwellAcc := 0, carrierAt := 0, dwell := false, paLim := false, reflA := false, reflB := false
    heldAt := none, hopAt := none, hopEntry := none, hopListen := false, exchange := false, lastBuf := 0, lastDesc := 15, txPre := false, txBits := [], canc := [Canc.reset, Canc.reset], seeds := [], gntPin := false, gntOff := none
    coexU := ⟨false, false, 0⟩, coexH := ⟨false, false, 0⟩, blank0 := ⟨false, 0⟩, blank1 := ⟨false, 0⟩ }

def Chain.reset (stock : Bool) : Chain :=
  { st := .off, stopPend := false, active := 0xFFFF, nextActive := none, coef := [], stock := stock, runPath := 0, runNco := 0
    runRsmp := 0, runDec := 0, ncoWord := 0, ncoPhase := 0, ncoAt := 0, ri := 0, rq := 0, learnEnd := none, runAt := none
    entryAt := 0, marks := [], blf := 0, syncAt := 0, cs := false, te := false, ifl := false
    win := none, sync := false, decValid := false, crcOk := false, frame := [], satRuns := 0 }

def Pair.reset : Pair :=
  { divB := false, divDone := false, sepDone := false, sepMulti := false, sepRec := false, nEst := 0, taken := false
    te := false, sync := false }

def Thread.reset : Thread :=
  { st := .halted, step := 0, code := 0, lc := [0, 0, 0, 0], stack := [], anchor := 0, timeout := false, late := false
    refused := false, word := 0, fetchAt := 0, toFetch := false, gate := none, abort := .none, abortAt := 0, sub := 0, op := none }

def Seq.reset : Seq :=
  { thr := List.replicate 4 Thread.reset, sw := 0, log := [], bells := [], turn := none, dataL := 0, onAt := 0
    txEnd := false, txEndAt := none, takenEnd := none, hfFrameEnd := none, rnReady := false, winOk := false
    blanked := false, handleOk := false, tagErr := false, lastChain := false, prev := [], cur := none, stage := 0 }

def Gen2.reset : Gen2 :=
  { q := 0, session := 0, target := false, link := 0, sepOn := false, tgtNext := false, rstate := 0, fslot := 0, qfp := 0
    qnext := 0, remain := false, singulated := false, cutRace := false, stale := false, slots := [], sent := [], arm := false
    hold := false, rn16 := none }

def Access.reset : Access :=
  { op := none, phase := .acquire, acqTries := 0, passTries := 0, tries := 0, block := 0, confirmed := 0, unconf := false
    oldEpc := false, handle := none, working := 0, epc := [], prevEpc := [], tagErrCode := 0, tagErrValid := false
    cause := 0, unitEnd := false, lost := false, afterTx := false, dropped := false, prepared := 0, data := [] }

def Comb.reset : Comb :=
  { cells := [], pos := 0, spares := 512, retired := [], fixes := [], sparing := none, sweep := none, visits := 0, visitCyc := 0, places := 0
    recs := 0, latch := none }

def Damask.reset : Damask :=
  { key := none, nx := false, origin := false, gen := 0, epoch := 0, since := 0, epKey := 0 }

def AcState.reset : AcState :=
  { step := .idle, area := false, unitEnd := false, proto := 0, level := 0, iter := 0, known := [], slots := 0, repeats := 0
    stack := [], slot := 0, dirty := false, uid := [], info := 0, sent := 0, resp := [], tries := 0, chain := false }

def Hf.reset : Hf :=
  { field := 0, level := 0, power := 0, lim := false, ext := false, det := false, proto := 0, upAt := 0, txBusy := false
    txEndAt := none, lastDesc := 15, txBits := [], split := 0, win := none, page := false, rx := [], txEnd := false, decValid := false
    crcOk := false, coll := false, cardActive := false, overrun := none, ac := AcState.reset, confirm := none
    pingEnd := 0, pingOff := 0, lastPing := 0, rebase := false, wtx := none }

def Port.reset (epoch : BitVec 16) : Port :=
  { epoch := epoch, seq := 0, off := false, mode3 := false, errRun := 0, bulk := none, readyAt := 0, readyWord := 0, reply := [] }

def Master.reset : Master := { on := false, busy := none, low0 := false, low1 := false, out := [], fw := false, leaving := false, buf := [] }

/-- Ring `n` as it stands after reset (R356). -/
def Ring.reset (n : Nat) : Ring :=
  { en := true, size := if n < 4 then 8 else 16, base := if n < 4 then 8 * n else 32 + 16 * (n - 4), recs := []
    held := 0, wpos := 0, rpos := 0, nseq := 0, pendGap := 0, gapFresh := false, written := false, staleAt := none }

def CfgSet.reset : CfgSet := { regs := [], plan := [], chan := [], tab := [], fb := [], hffb := [] }

def Sys.reset : Sys :=
  { ready := false, fwVer := 0, flash := false, turns := 0, turnCyc := 0, turnTick := none, copyEnd := none, strapA := false
    strapB := false, boot := false, latches := [], stage := 7, held := false }

def Core.reset : Core :=
  { pc := 0x0FFFC000, g := List.replicate 8 0, w := List.replicate 256 0, h := List.replicate 8 0, sup := true
    nest := false, inton := false, win := 0, depth := 1, tra := 0, tstate := 0, tcause := 0, tval := 0, tentry := 0
    wsp := 0, wlim := 0, wtop := 0, cycBase := 0, isram := [], cs := [], dec := [], st := .run, entry := 0, ver := 0 }

def CrcCtx.reset : CrcCtx := { kind := 0, inv := false, crc := 0 }

def Applet.reset : Applet :=
  { ok := false, run := false, entry := 0, fentry := 0, waiting := none, cmds := [], taken := [], bells := []
    xchg := none, filter := none, fq := [] }

def ImgPort.reset : ImgPort :=
  { target := 2, bytes := 0, crc := 0, bad := false, hdr := [], secs := 0, secAddr := none, at_ := 0, left := 0 }

def Cpu.reset : Cpu :=
  { m := Core.reset, s := { Core.reset with st := .stopped }, onS := false, dsram := [], cp2U := CrcCtx.reset
    cp2S := CrcCtx.reset, spareOk := false, spareRun := false, swapping := false, bootRom := true, apl := Applet.reset
    img := ImgPort.reset, mboxScan := true }

/-- Domain `n` after the start-up sequence: AON and the five domains of R480 ON, the others OFF but TAGM (R429). -/
def Dom.reset (n : Nat) : Dom :=
  let m := 0x02AA0A00 / 4 ^ n % 4
  { pos := if m = 0 then .on else .off, mode := m, pend := none }

def Pmu.reset : Pmu :=
  { doms := (List.range 14).map Dom.reset, xo := true, coreBuck := true, vioA := true, vioB := true, vpa := true
    wakeAt := none }

def CalSet.reset : CalSet := { valid := false, temp := 0, codes := [], crc := 0 }

def CalInst.reset : CalInst :=
  { pend := false, again := false, failed := false, reason := 0, runs := 0, disagree := 0, prev := none, lastTemp := none
    accepted := false, sets := List.replicate 5 CalSet.reset, force := none, next := none }

def Cal.reset : Cal :=
  { inst := List.replicate 7 CalInst.reset, run := none, lastId := 0, temp := 100, formed := 100, crystal := 0, former := none, cmd := none, snr := [], hours := 0
    replanAt := 0, replanUp := true, lockHist := [], xoRef := none }

def Svc.reset : Svc :=
  { ledger := [], next := 0, opens := [], queue := [], recent := [], fences := 0, retired := 0, safe := false
    safeCause := 0, test := none, kept := none, writes := [] }

def Tagm.reset : Tagm :=
  { vh := 0, sess := false, lock := none, tagSt := .ready, uid := 0, cfg := 0x00000A03, uidCfg := 0, fprot := 0x00008000
    cfgS := 0, uidCfgS := 0, fprotS := 0, fram := [], recs := [], reported := [], hostW := none, nValid := 0
    nCommit := 0, nRefuse := 0, latch := none, reply := [], writes := [] }

def Dev.reset : Dev :=
  { now := 0, free := 2, rdata := 0, marks := { tick := 0, ev := [], pre := [] }, tb := Timebase.reset, uhf := Uhf.reset, chA := Chain.reset false, chB := Chain.reset false
    pair := Pair.reset, seq := Seq.reset, gen2 := Gen2.reset, acc := Access.reset, comb := Comb.reset, dmk := Damask.reset
    hf := Hf.reset, portA := Port.reset (Config.epoch 0 false), portB := Port.reset (Config.epoch 1 true)
    mst := Master.reset, rings := (List.range 32).map Ring.reset, ops := [], held := [], opSeq := 0, sys := Sys.reset
    cpu := Cpu.reset, pmu := Pmu.reset, cal := Cal.reset, svc := Svc.reset, regs := [(0x181, 0x200), (0x191, 0x200)], set0 := CfgSet.reset
    set1 := CfgSet.reset, sel := false }

/-- The machine right after reset. -/
def State.reset : State := { dev := Dev.reset, tagm := Tagm.reset, pending := [] }

end Sys2Proof.Machine
end

