-- ==== Sys2Proof/Machine/CoreBase.lean ====
section
/-! DEFINITION. The Adeara core's registers, windows, state registers and trap entry (R375-R385). -/
namespace Sys2Proof.Machine

/-- The core in service and its replacement (R375). -/
def coreIn (d : Dev) : Core := if d.cpu.onS then d.cpu.s else d.cpu.m
def setCore (c : Core) (d : Dev) : Dev :=
  if d.cpu.onS then { d with cpu := { d.cpu with s := c } } else { d with cpu := { d.cpu with m := c } }

/-- The other core and its replacement. -/
def otherCore (d : Dev) : Core := if d.cpu.onS then d.cpu.m else d.cpu.s
def setOther (c : Core) (d : Dev) : Dev :=
  if d.cpu.onS then { d with cpu := { d.cpu with m := c } } else { d with cpu := { d.cpu with s := c } }

/-- Register code of a 5-bit field as place: globals, a windowed register, or a handler register (R378, R380, R384). -/
inductive RegPlace where
  | g (i : Nat)
  | w (i : Nat)
  | h (i : Nat)
  deriving DecidableEq, Repr

/-- Where code `r` lies: g0-g7, c0-c7, k0-k7 (h0-h7 while NEST is 1), p0-p7 of the current window (R378, R380). -/
def regPlace (c : Core) (r : Nat) : RegPlace :=
  if r < 8 then .g r
  else if r < 16 then .w ((16 * c.win + (r - 8)) % 256)
  else if r < 24 then (if c.nest then .h (r - 16) else .w ((16 * c.win + 8 + (r - 16)) % 256))
  else .w ((16 * c.win + 16 + (r - 24)) % 256)

/-- Reads and writes of a register (R378). -/
def Core.get (c : Core) (r : BitVec 5) : Word :=
  match regPlace c r.toNat with
  | .g i => nth 0 c.g i
  | .w i => nth 0 c.w i
  | .h i => nth 0 c.h i
def Core.put (c : Core) (r : BitVec 5) (v : Word) : Core :=
  match regPlace c r.toNat with
  | .g i => { c with g := upd 0 c.g i v }
  | .w i => { c with w := upd 0 c.w i v }
  | .h i => { c with h := upd 0 c.h i v }

/-- STATE as a word (R383). -/
def Core.stateWord (c : Core) : Word := putB 0 c.sup ||| putB 1 c.nest ||| putB 2 c.inton
def Core.setStateWord (c : Core) (w : Word) : Core := { c with sup := bit w 0, nest := bit w 1, inton := bit w 2 }

/-- Trap causes (R385). -/
def causeIllegal : Nat := 1
def causePriv : Nat := 2
def causeIfetch : Nat := 3
def causeAlign : Nat := 4
def causeDaccess : Nat := 5
def causeSpill : Nat := 6
def causeFill : Nat := 7
def causeEcc : Nat := 8
def causeCpfault : Nat := 9
def causeUcode : Nat := 10
def causeTrap : Nat := 11

/-- Trap entry (R384): the return address and STATE are saved, cause and value written, the handler runs at TENTRY. -/
def Core.trapEnter (c : Core) (cause : Nat) (tval ret : Word) : Core :=
  { c with tra := ret, tstate := c.stateWord, tcause := nw cause, tval := tval, sup := true, nest := true, inton := false
           pc := c.tentry }

/-- A synchronous trap (R384, R385): while NEST is 1 it goes to the recovery entry of the boot ROM, which stops the core. -/
def Core.trap (c : Core) (cause : Nat) (tval ret : Word) : Core :=
  if c.nest then
    { c with tra := ret, tstate := c.stateWord, tcause := nw cause, tval := tval, sup := true, inton := false
             pc := 0x0FFFC100, st := .stopped }
  else c.trapEnter cause tval ret

/-- RTT (R384): STATE comes back from TSTATE and execution continues at TRA. -/
def Core.rtt (c : Core) : Core := { c.setStateWord c.tstate with pc := c.tra }

/-- A CALL's window move (R381, R382): WIN and DEPTH rise and k7 of the new window takes the return address. -/
def Core.enterWindow (c : Core) (ret : Word) : Core :=
  let c := { c with win := (c.win + 1) % 16, depth := min 15 (c.depth + 1) }
  { c with w := upd 0 c.w ((16 * c.win + 15) % 256) ret }

/-- The flow of a core, to be returned to (R384, R400). -/
def Core.save (c : Core) : Saved :=
  ⟨c.pc, nth 0 c.g 7, c.win, c.depth, c.stateWord, c.tra, c.tstate, c.tcause, c.tval⟩
def Core.restore (c : Core) (f : Saved) : Core :=
  { c.setStateWord f.state with
    pc := f.pc, g := upd 0 c.g 7 f.g7, win := f.win, depth := f.depth, tra := f.tra, tstate := f.tstate
    tcause := f.tcause, tval := f.tval }

/-- A supervisor handler of TRAP service `n` stands on this core: its TRAP came from user mode (R385, R397). -/
def Core.serves (c : Core) (n : Nat) : Bool :=
  c.nest && decide (c.tcause = nw causeTrap ∧ c.tval = nw n) && !bit c.tstate 0

/-- A service ends: its results go to p0 and p1, and the caller goes on after its TRAP. -/
def Core.serviceEnd (c : Core) (p0 p1 : Option Word) : Core :=
  let c := match p0 with | none => c | some v => c.put 24 v
  let c := match p1 with | none => c | some v => c.put 25 v
  c.rtt

end Sys2Proof.Machine
end

