-- ==== Sys2Proof/Machine/Regs.lean ====
section
/-! DEFINITION. The register map: the address of every register and the masks of its fields by access code
(R11), from the register tables and field maps of the chapters (R53-R57, R98-R102, R136-R141, R169-R171,
R197-R200, R243-R244, R273-R275, R297-R298, R327-R329, R355-R356, R371-R372, R406-R407, R428-R430, R449-R450, R469-R470).
A field in no mask is RO or Reserved. -/
namespace Sys2Proof.Machine

/-! Addresses of the registers, by the names of the manual (R10). The first of a numbered array stands for it. -/
namespace Reg

abbrev SYS_ID : Nat := 0x0000
abbrev SYS_FW_VER : Nat := 0x0001
abbrev SYS_SERIAL_L : Nat := 0x0002
abbrev SYS_SERIAL_H : Nat := 0x0003
abbrev SYS_STATUS : Nat := 0x0004
abbrev SYS_EVENT : Nat := 0x0005
abbrev SYS_IRQ_EN : Nat := 0x0006
abbrev SYS_CTRL : Nat := 0x0007
abbrev SYS_RST_CAUSE : Nat := 0x0008
abbrev SYS_STRAP : Nat := 0x0009
abbrev SYS_SET_CTRL : Nat := 0x000A
abbrev SYS_SET_STAT : Nat := 0x000B
abbrev SYS_TURN_CYC_L : Nat := 0x000C
abbrev SYS_TURN_CYC_H : Nat := 0x000D
abbrev SYS_SCRATCH_0 : Nat := 0x0010
abbrev TIME_STATUS : Nat := 0x0080
abbrev TIME_CTRL : Nat := 0x0081
abbrev TIME_ZC_CFG : Nat := 0x0082
abbrev TIME_ZC_A_DLY : Nat := 0x0083
abbrev TIME_ZC_B_DLY : Nat := 0x0084
abbrev TIME_LOOP : Nat := 0x0085
abbrev TIME_PERIOD : Nat := 0x0086
abbrev TIME_PHASE : Nat := 0x0087
abbrev TIME_MAINS_CYC_L : Nat := 0x0088
abbrev TIME_MAINS_CYC_H : Nat := 0x0089
abbrev TIME_UNC : Nat := 0x008A
abbrev TIME_UNC_RATE : Nat := 0x008B
abbrev TIME_UNC_MAX : Nat := 0x008C
abbrev TIME_FLY_CYC : Nat := 0x008D
abbrev TIME_STEP_LAST : Nat := 0x008E
abbrev TIME_EVENT : Nat := 0x008F
abbrev TIME_IRQ_EN : Nat := 0x0090
abbrev TIME_NOISE_CFG : Nat := 0x0091
abbrev TIME_PLAN_POS : Nat := 0x0092
abbrev TIME_PLAN_CFG : Nat := 0x0098
abbrev TIME_PLAN_IDX : Nat := 0x0099
abbrev TIME_PLAN_DATA : Nat := 0x009A
abbrev TIME_GUARD : Nat := 0x009B
abbrev TIME_TAIL : Nat := 0x009C
abbrev TIME_CUT_U : Nat := 0x009D
abbrev TIME_CUT_A : Nat := 0x009E
abbrev TIME_CUT_B : Nat := 0x009F
abbrev TIME_CUT_H : Nat := 0x00A0
abbrev TIME_NOISE_0 : Nat := 0x00B0
abbrev PMU_STATUS : Nat := 0x0100
abbrev PMU_EVENT : Nat := 0x0101
abbrev PMU_IRQ_EN : Nat := 0x0102
abbrev PMU_CFG : Nat := 0x0103
abbrev PMU_MODE : Nat := 0x0104
abbrev PMU_STATE : Nat := 0x0105
abbrev PMU_PEND : Nat := 0x0106
abbrev PMU_LAST_WAKE : Nat := 0x0107
abbrev PMU_WAKE_WAGGLE : Nat := 0x0110
abbrev PMU_WAKE_LPCD : Nat := 0x0111
abbrev PMU_WAKE_TIME : Nat := 0x0112
abbrev PMU_WAKE_MAINS : Nat := 0x0113
abbrev PMU_WAKE_TAGM : Nat := 0x0114
abbrev PMU_WAKE_AT : Nat := 0x0115
abbrev PMU_BIAS : Nat := 0x0118
abbrev LINK_A_STAT : Nat := 0x0180
abbrev LINK_A_EVENT : Nat := 0x0181
abbrev LINK_A_IRQ_EN : Nat := 0x0182
abbrev LINK_A_CTRL : Nat := 0x0183
abbrev LINK_A_IRQ_MASK : Nat := 0x0184
abbrev LINK_A_BULK : Nat := 0x0185
abbrev LINK_A_CNT : Nat := 0x0186
abbrev LINK_B_STAT : Nat := 0x0190
abbrev LINK_B_EVENT : Nat := 0x0191
abbrev LINK_B_IRQ_EN : Nat := 0x0192
abbrev LINK_B_CTRL : Nat := 0x0193
abbrev LINK_B_IRQ_MASK : Nat := 0x0194
abbrev LINK_B_BULK : Nat := 0x0195
abbrev LINK_B_CNT : Nat := 0x0196
abbrev LINK_XLEN : Nat := 0x01A0
abbrev LINK_IRQ_SUM : Nat := 0x01A1
abbrev LINK_CFG : Nat := 0x01A2
abbrev LINK_M_CFG : Nat := 0x01B0
abbrev LINK_M_CTRL : Nat := 0x01B1
abbrev LINK_M_STAT : Nat := 0x01B2
abbrev LINK_M_IDX : Nat := 0x01B3
abbrev LINK_M_DATA : Nat := 0x01B4
abbrev UHF_STATUS : Nat := 0x0300
abbrev UHF_EVENT : Nat := 0x0301
abbrev UHF_IRQ_EN : Nat := 0x0302
abbrev UHF_RADIO_CFG : Nat := 0x0303
abbrev UHF_LOCK_HOLD : Nat := 0x0304
abbrev UHF_CHAN_BASE : Nat := 0x0305
abbrev UHF_CHAN_CFG : Nat := 0x0306
abbrev UHF_CHAN_IDX : Nat := 0x0307
abbrev UHF_CHAN_DATA : Nat := 0x0308
abbrev UHF_DWELL_MAX : Nat := 0x0309
abbrev UHF_DWELL_CNT : Nat := 0x030A
abbrev UHF_MOD_CFG : Nat := 0x030B
abbrev UHF_PWR_SET : Nat := 0x030C
abbrev UHF_PORT_CFG : Nat := 0x030D
abbrev UHF_SW_CFG : Nat := 0x030E
abbrev UHF_AER_0 : Nat := 0x0310
abbrev UHF_CPL_CFG : Nat := 0x0320
abbrev UHF_CPL_A_FWD : Nat := 0x0321
abbrev UHF_CPL_A_REF : Nat := 0x0322
abbrev UHF_CPL_B_FWD : Nat := 0x0323
abbrev UHF_CPL_B_REF : Nat := 0x0324
abbrev UHF_CANC_CFG : Nat := 0x0328
abbrev UHF_CANC_A_VEC : Nat := 0x0329
abbrev UHF_CANC_B_VEC : Nat := 0x032A
abbrev UHF_CANC_IDX : Nat := 0x032B
abbrev UHF_CANC_DATA : Nat := 0x032C
abbrev UHF_COEX_CFG : Nat := 0x0330
abbrev UHF_BLANK_CFG : Nat := 0x0331
abbrev RXD_A_STATUS : Nat := 0x03C0
abbrev RXD_A_EVENT : Nat := 0x03C1
abbrev RXD_A_IRQ_EN : Nat := 0x03C2
abbrev RXD_A_CTRL : Nat := 0x03C3
abbrev RXD_A_SLICE : Nat := 0x03C4
abbrev RXD_A_PATH : Nat := 0x03C8
abbrev RXD_A_NCO : Nat := 0x03C9
abbrev RXD_A_RSMP : Nat := 0x03CA
abbrev RXD_A_DRC : Nat := 0x03CB
abbrev RXD_A_CS : Nat := 0x03CC
abbrev RXD_A_TE : Nat := 0x03CD
abbrev RXD_A_IF : Nat := 0x03CE
abbrev RXD_A_DEC : Nat := 0x03CF
abbrev RXD_A_LVL_CS : Nat := 0x03D0
abbrev RXD_A_LVL_TE : Nat := 0x03D1
abbrev RXD_A_LVL_IF : Nat := 0x03D2
abbrev RXD_A_BLF_EST : Nat := 0x03D3
abbrev RXD_A_RESULT : Nat := 0x03D4
abbrev RXD_A_DRC_VEC : Nat := 0x03D5
abbrev RXD_A_COEF_IDX : Nat := 0x03D8
abbrev RXD_A_COEF_DATA : Nat := 0x03D9
abbrev RXD_DIV_CFG : Nat := 0x03F0
abbrev RXD_SEP_CFG : Nat := 0x03F1
abbrev RXD_SEP_RES : Nat := 0x03F2
abbrev RXD_SEP_SINR : Nat := 0x03F3
abbrev RXD_B_STATUS : Nat := 0x0420
abbrev RXD_B_EVENT : Nat := 0x0421
abbrev RXD_B_IRQ_EN : Nat := 0x0422
abbrev RXD_B_CTRL : Nat := 0x0423
abbrev RXD_B_SLICE : Nat := 0x0424
abbrev RXD_B_PATH : Nat := 0x0428
abbrev RXD_B_NCO : Nat := 0x0429
abbrev RXD_B_RSMP : Nat := 0x042A
abbrev RXD_B_DRC : Nat := 0x042B
abbrev RXD_B_CS : Nat := 0x042C
abbrev RXD_B_TE : Nat := 0x042D
abbrev RXD_B_IF : Nat := 0x042E
abbrev RXD_B_DEC : Nat := 0x042F
abbrev RXD_B_LVL_CS : Nat := 0x0430
abbrev RXD_B_LVL_TE : Nat := 0x0431
abbrev RXD_B_LVL_IF : Nat := 0x0432
abbrev RXD_B_BLF_EST : Nat := 0x0433
abbrev RXD_B_RESULT : Nat := 0x0434
abbrev RXD_B_DRC_VEC : Nat := 0x0435
abbrev RXD_B_COEF_IDX : Nat := 0x0438
abbrev RXD_B_COEF_DATA : Nat := 0x0439
abbrev SEQ_STATUS : Nat := 0x0480
abbrev SEQ_EVENT : Nat := 0x0481
abbrev SEQ_IRQ_EN : Nat := 0x0482
abbrev SEQ_TURN : Nat := 0x0483
abbrev SEQ_TURN_CFG : Nat := 0x0484
abbrev SEQ_SW : Nat := 0x0485
abbrev SEQ_COND_L : Nat := 0x0486
abbrev SEQ_COND_H : Nat := 0x0487
abbrev SEQ_TAB_IDX : Nat := 0x0488
abbrev SEQ_TAB_DATA_L : Nat := 0x0489
abbrev SEQ_TAB_DATA_H : Nat := 0x048A
abbrev SEQ_LOG_STAT : Nat := 0x048C
abbrev SEQ_TICK_L : Nat := 0x048E
abbrev SEQ_TICK_H : Nat := 0x048F
abbrev SEQ_THR_0_ENTRY : Nat := 0x0490
abbrev SEQ_THR_0_STAT : Nat := 0x0491
abbrev SEQ_THR_0_LC_L : Nat := 0x0492
abbrev SEQ_THR_0_LC_H : Nat := 0x0493
abbrev GEN2_STATUS : Nat := 0x0500
abbrev GEN2_EVENT : Nat := 0x0501
abbrev GEN2_IRQ_EN : Nat := 0x0502
abbrev GEN2_LINK : Nat := 0x0503
abbrev GEN2_DERIVED : Nat := 0x0504
abbrev GEN2_QUERY : Nat := 0x0505
abbrev GEN2_QALG : Nat := 0x0506
abbrev GEN2_RND : Nat := 0x0507
abbrev GEN2_SEL_CFG : Nat := 0x0508
abbrev GEN2_QSTAT : Nat := 0x0509
abbrev GEN2_RDESC_0 : Nat := 0x0510
abbrev GEN2_FB_IDX : Nat := 0x0520
abbrev GEN2_FB_DATA : Nat := 0x0521
abbrev GEN2_CNT_SING : Nat := 0x0530
abbrev GEN2_CNT_REC : Nat := 0x0531
abbrev GEN2_CNT_COLL : Nat := 0x0532
abbrev GEN2_CNT_EMPTY : Nat := 0x0533
abbrev GEN2_CNT_MISS : Nat := 0x0534
abbrev GEN2_CNT_OTHER : Nat := 0x0535
abbrev COMB_STATUS : Nat := 0x0580
abbrev COMB_EVENT : Nat := 0x0581
abbrev COMB_IRQ_EN : Nat := 0x0582
abbrev COMB_CFG : Nat := 0x0583
abbrev COMB_PRES : Nat := 0x0584
abbrev COMB_DWELL : Nat := 0x0585
abbrev COMB_MOVE : Nat := 0x0586
abbrev COMB_EVT_CFG : Nat := 0x0587
abbrev COMB_USED : Nat := 0x0588
abbrev COMB_PRESENT : Nat := 0x0589
abbrev COMB_UNREP : Nat := 0x058A
abbrev COMB_NOCELL : Nat := 0x058B
abbrev COMB_ECC : Nat := 0x058C
abbrev COMB_SWEEP_POS : Nat := 0x058D
abbrev COMB_PLACE_L : Nat := 0x0590
abbrev COMB_PLACE_H : Nat := 0x0591
abbrev COMB_REC_L : Nat := 0x0592
abbrev COMB_REC_H : Nat := 0x0593
abbrev COMB_DUMP_IDX : Nat := 0x0598
abbrev COMB_DUMP_DATA : Nat := 0x0599
abbrev COMB_DMK_CFG : Nat := 0x05A0
abbrev COMB_DMK_EPOCH : Nat := 0x05A1
abbrev COMB_DMK_LEFT : Nat := 0x05A2
abbrev COMB_DMK_KEY : Nat := 0x05A3
abbrev HF_STATUS : Nat := 0x05C0
abbrev HF_EVENT : Nat := 0x05C1
abbrev HF_IRQ_EN : Nat := 0x05C2
abbrev HF_CFG : Nat := 0x05C3
abbrev HF_DRV : Nat := 0x05C4
abbrev HF_MOD_CFG : Nat := 0x05C5
abbrev HF_RX_CFG : Nat := 0x05C6
abbrev HF_AC_CFG : Nat := 0x05C7
abbrev HF_ISO4_CFG : Nat := 0x05C8
abbrev HF_ISO4_STAT : Nat := 0x05C9
abbrev HF_RESULT : Nat := 0x05CA
abbrev HF_RDESC_0 : Nat := 0x05D0
abbrev HF_FB_IDX : Nat := 0x05E0
abbrev HF_FB_DATA : Nat := 0x05E1
abbrev HF_RX_IDX : Nat := 0x05E2
abbrev HF_RX_DATA : Nat := 0x05E3
abbrev HF_LPCD_CFG : Nat := 0x05F0
abbrev HF_LPCD_THR : Nat := 0x05F1
abbrev HF_LPCD_BASE : Nat := 0x05F2
abbrev HF_LPCD_LAST : Nat := 0x05F3
abbrev HF_LPCD_CTRL : Nat := 0x05F4
abbrev HF_LPCD_CNT : Nat := 0x05F5
abbrev TAGM_STATUS : Nat := 0x0640
abbrev TAGM_EVENT : Nat := 0x0641
abbrev TAGM_IRQ_EN : Nat := 0x0642
abbrev TAGM_CFG : Nat := 0x0643
abbrev TAGM_UID_CFG : Nat := 0x0644
abbrev TAGM_FPROT : Nat := 0x0645
abbrev TAGM_UID_L : Nat := 0x0646
abbrev TAGM_UID_H : Nat := 0x0647
abbrev TAGM_MB_IDX : Nat := 0x0648
abbrev TAGM_MB_DATA : Nat := 0x0649
abbrev TAGM_MB_SEQ : Nat := 0x064A
abbrev TAGM_CNT : Nat := 0x064B
abbrev CAL_STATUS : Nat := 0x0680
abbrev CAL_EVENT : Nat := 0x0681
abbrev CAL_IRQ_EN : Nat := 0x0682
abbrev CAL_CTRL : Nat := 0x0683
abbrev CAL_DT : Nat := 0x0684
abbrev CAL_TOL : Nat := 0x0685
abbrev CAL_COUNT : Nat := 0x0686
abbrev CAL_LAST : Nat := 0x0687
abbrev CAL_TEMP : Nat := 0x0688
abbrev CAL_SET_VALID : Nat := 0x0689
abbrev CAL_SET_VALID_B : Nat := 0x068A
abbrev CAL_AGE_HRS_L : Nat := 0x0690
abbrev CAL_AGE_HRS_H : Nat := 0x0691
abbrev CAL_AGE_RO : Nat := 0x0692
abbrev CAL_AGE_PA : Nat := 0x0693
abbrev CAL_AGE_XO : Nat := 0x0694
abbrev CAL_AGE_FRAM : Nat := 0x0695
abbrev CAL_MARGIN : Nat := 0x0698
abbrev CAL_REPLAN : Nat := 0x0699
abbrev CAL_SNR_IDX : Nat := 0x069A
abbrev CAL_SNR_DATA : Nat := 0x069B
abbrev SVC_STATUS : Nat := 0x0700
abbrev SVC_EVENT : Nat := 0x0701
abbrev SVC_IRQ_EN : Nat := 0x0702
abbrev SVC_FENCE : Nat := 0x0703
abbrev SVC_FENCE_CTRL : Nat := 0x0704
abbrev SVC_SAFE_CAUSE : Nat := 0x0705
abbrev SVC_LEDGER : Nat := 0x0706
abbrev SVC_LEDGER_IDX : Nat := 0x0707
abbrev SVC_LEDGER_DATA : Nat := 0x0708
abbrev SVC_RETIRED : Nat := 0x0709
abbrev SVC_TEST : Nat := 0x070A
abbrev SVC_CNT : Nat := 0x070B
abbrev CORE_STATUS : Nat := 0x0780
abbrev CORE_EVENT : Nat := 0x0781
abbrev CORE_IRQ_EN : Nat := 0x0782
abbrev CORE_WDOG : Nat := 0x0783
abbrev CORE_IMG_CTRL : Nat := 0x0784
abbrev CORE_IMG_DATA : Nat := 0x0785
abbrev CORE_IMG_STAT : Nat := 0x0786
abbrev CORE_IMG_CRC : Nat := 0x0787
abbrev CORE_APL_CFG : Nat := 0x0788
abbrev CORE_APL_STAT : Nat := 0x0789
abbrev CORE_APL_CNT : Nat := 0x078A
abbrev CORE_UC_IDX : Nat := 0x0790
abbrev CORE_UC_DATA_L : Nat := 0x0791
abbrev CORE_UC_DATA_H : Nat := 0x0792
abbrev CORE_UC_DEC_0 : Nat := 0x07A0
end Reg

/-- The masks of one register, or of a run of alike registers from `lo` to `hi`: read-write, write-one-to-clear,
read-clears, write-only and configuration (RO, SP) bits, and the reset value its map gives. -/
structure RegInfo where
  lo : Nat
  hi : Nat
  rw : Word
  w1c : Word
  rc : Word
  wo : Word
  sp : Word
  reset : Word
  deriving DecidableEq, Repr

/-- An address that no chapter defines (R358). -/
def RegInfo.none : RegInfo := ⟨0, 0, 0, 0, 0, 0, 0, 0⟩

/-- The SYS bank. -/
def regTable_sys : List RegInfo := [
  ⟨0x0000, 0x0000, 0, 0, 0, 0, 0, 0x7416B100⟩,
  ⟨0x0001, 0x0001, 0, 0, 0, 0, 0, 0⟩,
  ⟨0x0002, 0x0002, 0, 0, 0, 0, 0, 0⟩,
  ⟨0x0003, 0x0003, 0, 0, 0, 0, 0, 0⟩,
  ⟨0x0004, 0x0004, 0, 0, 0, 0, 0, 0⟩,
  ⟨0x0005, 0x0005, 0, 0x1F, 0, 0, 0, 0⟩,
  ⟨0x0006, 0x0006, 0x1F, 0, 0, 0, 0, 0⟩,
  ⟨0x0007, 0x0007, 0, 0, 0, 0xFF000003, 0, 0⟩,
  ⟨0x0008, 0x0008, 0, 0x5F, 0, 0, 0, 0x41⟩,
  ⟨0x0009, 0x0009, 0, 0, 0, 0, 0, 0⟩,
  ⟨0x000A, 0x000A, 0, 0, 0, 0x1, 0, 0⟩,
  ⟨0x000B, 0x000B, 0, 0, 0, 0, 0, 0⟩,
  ⟨0x000C, 0x000C, 0, 0, 0, 0, 0, 0⟩,
  ⟨0x000D, 0x000D, 0, 0, 0, 0, 0, 0⟩,
  ⟨0x0010, 0x0013, 0xFFFFFFFF, 0, 0, 0, 0, 0⟩]

/-- The TIME bank. -/
def regTable_time : List RegInfo := [
  ⟨0x0080, 0x0080, 0, 0, 0, 0, 0, 0⟩,
  ⟨0x0081, 0x0081, 0x14, 0, 0, 0xB, 0, 0⟩,
  ⟨0x0082, 0x0082, 0xFFFF1F, 0, 0, 0, 0, 0x33003⟩,
  ⟨0x0083, 0x0083, 0xFFF, 0, 0, 0, 0, 0⟩,
  ⟨0x0084, 0x0084, 0xFFF, 0, 0, 0, 0, 0⟩,
  ⟨0x0085, 0x0085, 0xFFF3, 0, 0, 0, 0, 0x4081⟩,
  ⟨0x0086, 0x0086, 0, 0, 0, 0, 0, 0⟩,
  ⟨0x0087, 0x0087, 0, 0, 0, 0, 0, 0⟩,
  ⟨0x0088, 0x0088, 0, 0, 0, 0, 0, 0⟩,
  ⟨0x0089, 0x0089, 0, 0, 0, 0, 0, 0⟩,
  ⟨0x008A, 0x008A, 0, 0, 0, 0, 0, 0⟩,
  ⟨0x008B, 0x008B, 0xFFFFFF, 0, 0, 0, 0, 0x1F9605⟩,
  ⟨0x008C, 0x008C, 0xFFFF, 0, 0, 0, 0, 0x32⟩,
  ⟨0x008D, 0x008D, 0, 0, 0, 0, 0, 0⟩,
  ⟨0x008E, 0x008E, 0, 0, 0, 0, 0, 0⟩,
  ⟨0x008F, 0x008F, 0, 0x1FF, 0, 0, 0, 0⟩,
  ⟨0x0090, 0x0090, 0x1FF, 0, 0, 0, 0, 0⟩,
  ⟨0x0091, 0x0091, 0x1F, 0, 0, 0, 0, 0x10⟩,
  ⟨0x0092, 0x0092, 0, 0, 0, 0, 0, 0⟩,
  ⟨0x0098, 0x0098, 0, 0, 0, 0, 0xF3F, 0⟩,
  ⟨0x0099, 0x0099, 0, 0, 0, 0, 0, 0⟩,
  ⟨0x009A, 0x009A, 0, 0, 0, 0, 0, 0⟩,
  ⟨0x009B, 0x009B, 0, 0, 0, 0, 0x3F, 0x10⟩,
  ⟨0x009C, 0x009C, 0, 0, 0, 0, 0xFFFF, 0x500⟩,
  ⟨0x009D, 0x009D, 0, 0, 0, 0, 0xFFFFFFFF, 0xFFFFFFFF⟩,
  ⟨0x009E, 0x009E, 0, 0, 0, 0, 0xFFFFFFFF, 0xFFFFFFFF⟩,
  ⟨0x009F, 0x009F, 0, 0, 0, 0, 0xFFFFFFFF, 0xFFFFFFFF⟩,
  ⟨0x00A0, 0x00A0, 0, 0, 0, 0, 0xFFFFFFFF, 0xFFFFFFFF⟩,
  ⟨0x00B0, 0x00DF, 0, 0, 0, 0, 0, 0⟩]

/-- The PMU bank. -/
def regTable_pmu : List RegInfo := [
  ⟨0x0100, 0x0100, 0, 0, 0, 0, 0, 0xA00⟩,
  ⟨0x0101, 0x0101, 0, 0xFF, 0, 0, 0, 0⟩,
  ⟨0x0102, 0x0102, 0xFF, 0, 0, 0, 0, 0⟩,
  ⟨0x0103, 0x0103, 0xFFFF0101, 0, 0, 0, 0, 0x7D00000⟩,
  ⟨0x0104, 0x0104, 0xFFFFFFF, 0, 0, 0, 0, 0x2AA0A00⟩,
  ⟨0x0105, 0x0105, 0, 0, 0, 0, 0, 0x2AA0A00⟩,
  ⟨0x0106, 0x0106, 0, 0, 0, 0, 0, 0⟩,
  ⟨0x0107, 0x0107, 0, 0, 0, 0, 0, 0⟩,
  ⟨0x0110, 0x0110, 0x3FFF, 0, 0, 0, 0, 0x4E⟩,
  ⟨0x0111, 0x0111, 0x3FFF, 0, 0, 0, 0, 0x8C8⟩,
  ⟨0x0112, 0x0112, 0x3FFF, 0, 0, 0, 0, 0x48⟩,
  ⟨0x0113, 0x0113, 0x3FFF, 0, 0, 0, 0, 0⟩,
  ⟨0x0114, 0x0114, 0x3FFF, 0, 0, 0, 0, 0x48⟩,
  ⟨0x0115, 0x0115, 0xFFFFFFFF, 0, 0, 0, 0, 0⟩,
  ⟨0x0118, 0x0118, 0, 0, 0, 0, 0, 0x283C37⟩]

/-- The LINK bank. -/
def regTable_link : List RegInfo := [
  ⟨0x0180, 0x0180, 0, 0, 0, 0, 0, 0⟩,
  ⟨0x0181, 0x0181, 0, 0x3FF, 0, 0, 0, 0⟩,
  ⟨0x0182, 0x0182, 0x3FF, 0, 0, 0, 0, 0⟩,
  ⟨0x0183, 0x0183, 0x2, 0, 0, 0x1, 0, 0⟩,
  ⟨0x0184, 0x0184, 0xFFFF, 0, 0, 0, 0, 0xFFFF⟩,
  ⟨0x0185, 0x0185, 0, 0, 0, 0, 0, 0⟩,
  ⟨0x0186, 0x0186, 0, 0, 0xFFFFFFFF, 0, 0, 0⟩,
  ⟨0x0190, 0x0190, 0, 0, 0, 0, 0, 0⟩,
  ⟨0x0191, 0x0191, 0, 0x7FF, 0, 0, 0, 0⟩,
  ⟨0x0192, 0x0192, 0x7FF, 0, 0, 0, 0, 0⟩,
  ⟨0x0193, 0x0193, 0x6, 0, 0, 0x1, 0, 0⟩,
  ⟨0x0194, 0x0194, 0xFFFF, 0, 0, 0, 0, 0⟩,
  ⟨0x0195, 0x0195, 0, 0, 0, 0, 0, 0⟩,
  ⟨0x0196, 0x0196, 0, 0, 0xFFFFFFFF, 0, 0, 0⟩,
  ⟨0x01A0, 0x01A0, 0xFFFFFFFF, 0, 0, 0, 0, 0x80008000⟩,
  ⟨0x01A1, 0x01A1, 0, 0, 0, 0, 0, 0⟩,
  ⟨0x01A2, 0x01A2, 0xFF, 0, 0, 0, 0, 0x10⟩,
  ⟨0x01B0, 0x01B0, 0x1FF, 0, 0, 0, 0, 0x8⟩,
  ⟨0x01B1, 0x01B1, 0x600001FF, 0, 0, 0x80000000, 0, 0⟩,
  ⟨0x01B2, 0x01B2, 0, 0, 0, 0, 0, 0⟩,
  ⟨0x01B3, 0x01B3, 0x3F, 0, 0, 0, 0, 0⟩,
  ⟨0x01B4, 0x01B4, 0xFFFFFFFF, 0, 0, 0, 0, 0⟩]

/-- The UHF bank. -/
def regTable_uhf : List RegInfo := [
  ⟨0x0300, 0x0300, 0, 0, 0, 0, 0, 0⟩,
  ⟨0x0301, 0x0301, 0, 0x3FF, 0, 0, 0, 0⟩,
  ⟨0x0302, 0x0302, 0x3FF, 0, 0, 0, 0, 0⟩,
  ⟨0x0303, 0x0303, 0, 0, 0, 0, 0x131, 0x101⟩,
  ⟨0x0304, 0x0304, 0, 0, 0, 0, 0xFFFF, 0x190⟩,
  ⟨0x0305, 0x0305, 0, 0, 0, 0, 0xFFFFF, 0xD1F60⟩,
  ⟨0x0306, 0x0306, 0, 0, 0, 0, 0x3F07, 0x2⟩,
  ⟨0x0307, 0x0307, 0, 0, 0, 0, 0, 0⟩,
  ⟨0x0308, 0x0308, 0, 0, 0, 0, 0, 0⟩,
  ⟨0x0309, 0x0309, 0, 0, 0, 0, 0xFFFF, 0⟩,
  ⟨0x030A, 0x030A, 0, 0, 0, 0, 0, 0⟩,
  ⟨0x030B, 0x030B, 0, 0, 0, 0, 0x3FF1, 0x1850⟩,
  ⟨0x030C, 0x030C, 0, 0, 0, 0, 0x7F7F, 0x2828⟩,
  ⟨0x030D, 0x030D, 0, 0, 0, 0, 0x17, 0x10⟩,
  ⟨0x030E, 0x030E, 0, 0, 0, 0, 0xFF0F, 0x5000⟩,
  ⟨0x0310, 0x031F, 0, 0, 0, 0, 0x8000003F, 0⟩,
  ⟨0x0320, 0x0320, 0, 0, 0, 0, 0x3F0F, 0x604⟩,
  ⟨0x0321, 0x0321, 0, 0, 0, 0, 0, 0⟩,
  ⟨0x0322, 0x0322, 0, 0, 0, 0, 0, 0⟩,
  ⟨0x0323, 0x0323, 0, 0, 0, 0, 0, 0⟩,
  ⟨0x0324, 0x0324, 0, 0, 0, 0, 0, 0⟩,
  ⟨0x0328, 0x0328, 0, 0, 0, 0, 0xFFFF01, 0x3CE201⟩,
  ⟨0x0329, 0x0329, 0, 0, 0, 0, 0, 0⟩,
  ⟨0x032A, 0x032A, 0, 0, 0, 0, 0, 0⟩,
  ⟨0x032B, 0x032B, 0x7FF, 0, 0, 0x80000000, 0, 0⟩,
  ⟨0x032C, 0x032C, 0x83FF03FF, 0, 0, 0, 0, 0⟩,
  ⟨0x0330, 0x0330, 0, 0, 0, 0, 0xFFFFFFFF, 0xC81400⟩,
  ⟨0x0331, 0x0331, 0, 0, 0, 0, 0xFFFF0377, 0⟩]

/-- The RXD bank. -/
def regTable_rxd : List RegInfo := [
  ⟨0x03C0, 0x03C0, 0, 0, 0, 0, 0, 0x1⟩,
  ⟨0x03C1, 0x03C1, 0, 0xFFF, 0, 0, 0, 0⟩,
  ⟨0x03C2, 0x03C2, 0xFFF, 0, 0, 0, 0, 0⟩,
  ⟨0x03C3, 0x03C3, 0x3, 0, 0, 0, 0, 0x2⟩,
  ⟨0x03C4, 0x03C4, 0, 0, 0, 0, 0, 0xFFFF⟩,
  ⟨0x03C8, 0x03C8, 0, 0, 0, 0, 0xFF0307, 0x3⟩,
  ⟨0x03C9, 0x03C9, 0, 0, 0, 0, 0x1FFFFF, 0⟩,
  ⟨0x03CA, 0x03CA, 0, 0, 0, 0, 0xFF0F01, 0x160301⟩,
  ⟨0x03CB, 0x03CB, 0, 0, 0, 0, 0xFFF3, 0x1043⟩,
  ⟨0x03CC, 0x03CC, 0, 0, 0, 0, 0x8F0F03FF, 0x80201B0⟩,
  ⟨0x03CD, 0x03CD, 0, 0, 0, 0, 0x8F0F03FF, 0x840201B8⟩,
  ⟨0x03CE, 0x03CE, 0, 0, 0, 0, 0x8F0F03FF, 0xA040370⟩,
  ⟨0x03CF, 0x03CF, 0, 0, 0, 0, 0xFF, 0x1C⟩,
  ⟨0x03D0, 0x03D0, 0, 0, 0, 0, 0, 0⟩,
  ⟨0x03D1, 0x03D1, 0, 0, 0, 0, 0, 0⟩,
  ⟨0x03D2, 0x03D2, 0, 0, 0, 0, 0, 0⟩,
  ⟨0x03D3, 0x03D3, 0, 0, 0, 0, 0, 0⟩,
  ⟨0x03D4, 0x03D4, 0, 0, 0, 0, 0, 0⟩,
  ⟨0x03D5, 0x03D5, 0, 0, 0, 0, 0, 0⟩,
  ⟨0x03D8, 0x03D8, 0x7FF, 0, 0, 0, 0, 0⟩,
  ⟨0x03D9, 0x03D9, 0xFFFFFFFF, 0, 0, 0, 0, 0⟩,
  ⟨0x03F0, 0x03F0, 0, 0, 0, 0, 0x1FF, 0x4⟩,
  ⟨0x03F1, 0x03F1, 0, 0, 0, 0, 0xFF01, 0x2401⟩,
  ⟨0x03F2, 0x03F2, 0, 0, 0, 0, 0, 0⟩,
  ⟨0x03F3, 0x03F3, 0, 0, 0, 0, 0, 0⟩,
  ⟨0x0420, 0x0420, 0, 0, 0, 0, 0, 0x1⟩,
  ⟨0x0421, 0x0421, 0, 0xFFF, 0, 0, 0, 0⟩,
  ⟨0x0422, 0x0422, 0xFFF, 0, 0, 0, 0, 0⟩,
  ⟨0x0423, 0x0423, 0x3, 0, 0, 0, 0, 0x2⟩,
  ⟨0x0424, 0x0424, 0, 0, 0, 0, 0, 0xFFFF⟩,
  ⟨0x0428, 0x0428, 0, 0, 0, 0, 0xFF0307, 0x3⟩,
  ⟨0x0429, 0x0429, 0, 0, 0, 0, 0x1FFFFF, 0⟩,
  ⟨0x042A, 0x042A, 0, 0, 0, 0, 0xFF0F01, 0x160301⟩,
  ⟨0x042B, 0x042B, 0, 0, 0, 0, 0xFFF3, 0x1043⟩,
  ⟨0x042C, 0x042C, 0, 0, 0, 0, 0x8F0F03FF, 0x80201B0⟩,
  ⟨0x042D, 0x042D, 0, 0, 0, 0, 0x8F0F03FF, 0x840201B8⟩,
  ⟨0x042E, 0x042E, 0, 0, 0, 0, 0x8F0F03FF, 0xA040370⟩,
  ⟨0x042F, 0x042F, 0, 0, 0, 0, 0xFF, 0x1C⟩,
  ⟨0x0430, 0x0430, 0, 0, 0, 0, 0, 0⟩,
  ⟨0x0431, 0x0431, 0, 0, 0, 0, 0, 0⟩,
  ⟨0x0432, 0x0432, 0, 0, 0, 0, 0, 0⟩,
  ⟨0x0433, 0x0433, 0, 0, 0, 0, 0, 0⟩,
  ⟨0x0434, 0x0434, 0, 0, 0, 0, 0, 0⟩,
  ⟨0x0435, 0x0435, 0, 0, 0, 0, 0, 0⟩,
  ⟨0x0438, 0x0438, 0x7FF, 0, 0, 0, 0, 0⟩,
  ⟨0x0439, 0x0439, 0xFFFFFFFF, 0, 0, 0, 0, 0⟩]

/-- The SEQ bank. -/
def regTable_seq : List RegInfo := [
  ⟨0x0480, 0x0480, 0, 0, 0, 0, 0, 0xF0⟩,
  ⟨0x0481, 0x0481, 0, 0x3FF, 0, 0, 0, 0⟩,
  ⟨0x0482, 0x0482, 0x3FF, 0, 0, 0, 0, 0⟩,
  ⟨0x0483, 0x0483, 0, 0, 0, 0, 0, 0⟩,
  ⟨0x0484, 0x0484, 0xFFFF, 0, 0, 0, 0, 0x4E20⟩,
  ⟨0x0485, 0x0485, 0, 0, 0, 0, 0, 0⟩,
  ⟨0x0486, 0x0486, 0, 0, 0, 0, 0, 0⟩,
  ⟨0x0487, 0x0487, 0, 0, 0, 0, 0, 0⟩,
  ⟨0x0488, 0x0488, 0, 0, 0, 0, 0, 0⟩,
  ⟨0x0489, 0x0489, 0, 0, 0, 0, 0, 0⟩,
  ⟨0x048A, 0x048A, 0, 0, 0, 0, 0, 0⟩,
  ⟨0x048C, 0x048C, 0, 0, 0xFFFF0000, 0, 0, 0⟩,
  ⟨0x048E, 0x048E, 0, 0, 0, 0, 0, 0⟩,
  ⟨0x048F, 0x048F, 0, 0, 0, 0, 0, 0⟩,
  ⟨0x0490, 0x0490, 0, 0, 0, 0, 0xFFF, 0⟩,
  ⟨0x0491, 0x0491, 0, 0, 0, 0, 0, 0⟩,
  ⟨0x0492, 0x0492, 0, 0, 0, 0, 0, 0⟩,
  ⟨0x0493, 0x0493, 0, 0, 0, 0, 0, 0⟩,
  ⟨0x0494, 0x0494, 0, 0, 0, 0, 0xFFF, 0⟩,
  ⟨0x0495, 0x0495, 0, 0, 0, 0, 0, 0⟩,
  ⟨0x0496, 0x0496, 0, 0, 0, 0, 0, 0⟩,
  ⟨0x0497, 0x0497, 0, 0, 0, 0, 0, 0⟩,
  ⟨0x0498, 0x0498, 0, 0, 0, 0, 0xFFF, 0⟩,
  ⟨0x0499, 0x0499, 0, 0, 0, 0, 0, 0⟩,
  ⟨0x049A, 0x049A, 0, 0, 0, 0, 0, 0⟩,
  ⟨0x049B, 0x049B, 0, 0, 0, 0, 0, 0⟩,
  ⟨0x049C, 0x049C, 0, 0, 0, 0, 0xFFF, 0⟩,
  ⟨0x049D, 0x049D, 0, 0, 0, 0, 0, 0⟩,
  ⟨0x049E, 0x049E, 0, 0, 0, 0, 0, 0⟩,
  ⟨0x049F, 0x049F, 0, 0, 0, 0, 0, 0⟩]

/-- The GEN2 bank. -/
def regTable_gen2 : List RegInfo := [
  ⟨0x0500, 0x0500, 0, 0, 0, 0, 0, 0x10000⟩,
  ⟨0x0501, 0x0501, 0, 0x1F, 0, 0, 0, 0⟩,
  ⟨0x0502, 0x0502, 0x1F, 0, 0, 0, 0, 0⟩,
  ⟨0x0503, 0x0503, 0, 0, 0, 0, 0xFF3FF000, 0x21280000⟩,
  ⟨0x0504, 0x0504, 0, 0, 0, 0, 0, 0x215012C⟩,
  ⟨0x0505, 0x0505, 0, 0, 0, 0, 0xFFF0333, 0xF040013⟩,
  ⟨0x0506, 0x0506, 0, 0, 0, 0, 0xFFFFFF, 0x441844⟩,
  ⟨0x0507, 0x0507, 0, 0, 0, 0, 0x8FFFFF00, 0x6500000⟩,
  ⟨0x0508, 0x0508, 0, 0, 0, 0, 0x3FF, 0x100⟩,
  ⟨0x0509, 0x0509, 0, 0, 0, 0, 0, 0⟩,
  ⟨0x0510, 0x051E, 0, 0, 0, 0, 0xF80003FF, 0⟩,
  ⟨0x0520, 0x0520, 0, 0, 0, 0, 0, 0⟩,
  ⟨0x0521, 0x0521, 0, 0, 0, 0, 0, 0⟩,
  ⟨0x0530, 0x0530, 0, 0, 0xFFFFFFFF, 0, 0, 0⟩,
  ⟨0x0531, 0x0531, 0, 0, 0xFFFFFFFF, 0, 0, 0⟩,
  ⟨0x0532, 0x0532, 0, 0, 0xFFFFFFFF, 0, 0, 0⟩,
  ⟨0x0533, 0x0533, 0, 0, 0xFFFFFFFF, 0, 0, 0⟩,
  ⟨0x0534, 0x0534, 0, 0, 0xFFFFFFFF, 0, 0, 0⟩,
  ⟨0x0535, 0x0535, 0, 0, 0xFFFFFFFF, 0, 0, 0⟩]

/-- The COMB bank. -/
def regTable_comb : List RegInfo := [
  ⟨0x0580, 0x0580, 0, 0, 0, 0, 0, 0x200⟩,
  ⟨0x0581, 0x0581, 0, 0x3F, 0, 0, 0, 0⟩,
  ⟨0x0582, 0x0582, 0x3F, 0, 0, 0, 0, 0⟩,
  ⟨0x0583, 0x0583, 0xF0B, 0, 0, 0, 0, 0x402⟩,
  ⟨0x0584, 0x0584, 0xFFFF000F, 0, 0, 0, 0, 0xBB80001⟩,
  ⟨0x0585, 0x0585, 0xFFFFF, 0, 0, 0, 0, 0⟩,
  ⟨0x0586, 0x0586, 0xFFFF, 0, 0, 0, 0, 0x206⟩,
  ⟨0x0587, 0x0587, 0xFF1F9F, 0, 0, 0, 0, 0x401788⟩,
  ⟨0x0588, 0x0588, 0, 0, 0, 0, 0, 0⟩,
  ⟨0x0589, 0x0589, 0, 0, 0, 0, 0, 0⟩,
  ⟨0x058A, 0x058A, 0, 0, 0, 0, 0, 0⟩,
  ⟨0x058B, 0x058B, 0, 0, 0xFFFFFFFF, 0, 0, 0⟩,
  ⟨0x058C, 0x058C, 0, 0, 0xFFFFFFFF, 0, 0, 0⟩,
  ⟨0x058D, 0x058D, 0, 0, 0, 0, 0, 0⟩,
  ⟨0x0590, 0x0590, 0, 0, 0, 0, 0, 0⟩,
  ⟨0x0591, 0x0591, 0, 0, 0, 0, 0, 0⟩,
  ⟨0x0592, 0x0592, 0, 0, 0, 0, 0, 0⟩,
  ⟨0x0593, 0x0593, 0, 0, 0, 0, 0, 0⟩,
  ⟨0x0598, 0x0598, 0xFFFFF, 0, 0, 0, 0, 0⟩,
  ⟨0x0599, 0x0599, 0, 0, 0, 0, 0, 0⟩,
  ⟨0x05A0, 0x05A0, 0xFFFF0005, 0, 0, 0, 0, 0x5A00004⟩,
  ⟨0x05A1, 0x05A1, 0, 0, 0, 0, 0, 0⟩,
  ⟨0x05A2, 0x05A2, 0, 0, 0, 0, 0, 0⟩,
  ⟨0x05A3, 0x05A3, 0, 0, 0, 0, 0, 0⟩]

/-- The HF bank. -/
def regTable_hf : List RegInfo := [
  ⟨0x05C0, 0x05C0, 0, 0, 0, 0, 0, 0⟩,
  ⟨0x05C1, 0x05C1, 0, 0xFF, 0, 0, 0, 0⟩,
  ⟨0x05C2, 0x05C2, 0xFF, 0, 0, 0, 0, 0⟩,
  ⟨0x05C3, 0x05C3, 0, 0, 0, 0, 0xFFFF1F18, 0x13880918⟩,
  ⟨0x05C4, 0x05C4, 0, 0, 0, 0, 0x3F, 0x20⟩,
  ⟨0x05C5, 0x05C5, 0, 0, 0, 0, 0xF101, 0x2000⟩,
  ⟨0x05C6, 0x05C6, 0, 0, 0, 0, 0x3FFFFFF, 0x370641C⟩,
  ⟨0x05C7, 0x05C7, 0, 0, 0, 0, 0xFF0F7F, 0x200325⟩,
  ⟨0x05C8, 0x05C8, 0, 0, 0, 0, 0xFFFFFF78, 0x640C8820⟩,
  ⟨0x05C9, 0x05C9, 0, 0, 0, 0, 0, 0⟩,
  ⟨0x05CA, 0x05CA, 0, 0, 0, 0, 0, 0⟩,
  ⟨0x05D0, 0x05DE, 0, 0, 0, 0, 0xFFFFFFFF, 0⟩,
  ⟨0x05E0, 0x05E0, 0, 0, 0, 0, 0, 0⟩,
  ⟨0x05E1, 0x05E1, 0, 0, 0, 0, 0, 0⟩,
  ⟨0x05E2, 0x05E2, 0xFF, 0, 0, 0, 0, 0⟩,
  ⟨0x05E3, 0x05E3, 0, 0, 0, 0, 0, 0⟩,
  ⟨0x05F0, 0x05F0, 0xFF3F0FFF, 0, 0, 0, 0, 0x160000C8⟩,
  ⟨0x05F1, 0x05F1, 0xFFFF, 0, 0, 0, 0, 0x1406⟩,
  ⟨0x05F2, 0x05F2, 0, 0, 0, 0, 0, 0⟩,
  ⟨0x05F3, 0x05F3, 0, 0, 0, 0, 0, 0⟩,
  ⟨0x05F4, 0x05F4, 0, 0, 0, 0x1, 0, 0⟩,
  ⟨0x05F5, 0x05F5, 0, 0, 0xFFFFFFFF, 0, 0, 0⟩]

/-- The TAGM bank. -/
def regTable_tagm : List RegInfo := [
  ⟨0x0640, 0x0640, 0, 0, 0, 0, 0, 0⟩,
  ⟨0x0641, 0x0641, 0, 0x3F, 0, 0, 0, 0⟩,
  ⟨0x0642, 0x0642, 0x3F, 0, 0, 0, 0, 0⟩,
  ⟨0x0643, 0x0643, 0xFFFF1F03, 0, 0, 0, 0, 0xA03⟩,
  ⟨0x0644, 0x0644, 0xFF, 0, 0, 0, 0, 0⟩,
  ⟨0x0645, 0x0645, 0xFFFFFFFF, 0, 0, 0, 0, 0x8000⟩,
  ⟨0x0646, 0x0646, 0, 0, 0, 0, 0, 0⟩,
  ⟨0x0647, 0x0647, 0, 0, 0, 0, 0, 0⟩,
  ⟨0x0648, 0x0648, 0x7FF, 0, 0, 0, 0, 0⟩,
  ⟨0x0649, 0x0649, 0, 0, 0, 0, 0, 0⟩,
  ⟨0x064A, 0x064A, 0, 0, 0, 0, 0, 0⟩,
  ⟨0x064B, 0x064B, 0, 0, 0xFFFFFFFF, 0, 0, 0⟩]

/-- The CAL bank. -/
def regTable_cal : List RegInfo := [
  ⟨0x0680, 0x0680, 0, 0, 0, 0, 0, 0⟩,
  ⟨0x0681, 0x0681, 0, 0x1F, 0, 0, 0, 0⟩,
  ⟨0x0682, 0x0682, 0x1F, 0, 0, 0, 0, 0⟩,
  ⟨0x0683, 0x0683, 0x11F, 0, 0, 0, 0, 0x11F⟩,
  ⟨0x0684, 0x0684, 0x3F, 0, 0, 0, 0, 0x8⟩,
  ⟨0x0685, 0x0685, 0xFFFFF, 0, 0, 0, 0, 0x24112⟩,
  ⟨0x0686, 0x0686, 0, 0, 0, 0, 0, 0⟩,
  ⟨0x0687, 0x0687, 0, 0, 0, 0, 0, 0⟩,
  ⟨0x0688, 0x0688, 0, 0, 0, 0, 0, 0⟩,
  ⟨0x0689, 0x0689, 0, 0, 0, 0, 0, 0⟩,
  ⟨0x068A, 0x068A, 0, 0, 0, 0, 0, 0⟩,
  ⟨0x0690, 0x0690, 0, 0, 0, 0, 0, 0⟩,
  ⟨0x0691, 0x0691, 0, 0, 0, 0, 0, 0⟩,
  ⟨0x0692, 0x0692, 0, 0, 0, 0, 0, 0⟩,
  ⟨0x0693, 0x0693, 0, 0, 0, 0, 0, 0⟩,
  ⟨0x0694, 0x0694, 0, 0, 0, 0, 0, 0⟩,
  ⟨0x0695, 0x0695, 0, 0, 0, 0, 0, 0⟩,
  ⟨0x0698, 0x0698, 0, 0, 0, 0, 0, 0x1E32D0⟩,
  ⟨0x0699, 0x0699, 0xFF00FF, 0, 0, 0, 0, 0x18000C⟩,
  ⟨0x069A, 0x069A, 0x3F, 0, 0, 0, 0, 0⟩,
  ⟨0x069B, 0x069B, 0, 0, 0, 0, 0, 0⟩]

/-- The SVC bank. -/
def regTable_svc : List RegInfo := [
  ⟨0x0700, 0x0700, 0, 0, 0, 0, 0, 0⟩,
  ⟨0x0701, 0x0701, 0, 0xFF, 0, 0, 0, 0⟩,
  ⟨0x0702, 0x0702, 0xFF, 0, 0, 0, 0, 0⟩,
  ⟨0x0703, 0x0703, 0, 0, 0, 0, 0, 0⟩,
  ⟨0x0704, 0x0704, 0, 0, 0, 0xFF0001FF, 0, 0⟩,
  ⟨0x0705, 0x0705, 0, 0, 0, 0, 0, 0⟩,
  ⟨0x0706, 0x0706, 0, 0, 0, 0, 0, 0⟩,
  ⟨0x0707, 0x0707, 0x7FFFF, 0, 0, 0, 0, 0⟩,
  ⟨0x0708, 0x0708, 0, 0, 0, 0, 0, 0⟩,
  ⟨0x0709, 0x0709, 0, 0, 0, 0, 0, 0⟩,
  ⟨0x070A, 0x070A, 0, 0, 0, 0, 0, 0⟩,
  ⟨0x070B, 0x070B, 0, 0, 0xFFFFFFFF, 0, 0, 0⟩]

/-- The CORE bank. -/
def regTable_core : List RegInfo := [
  ⟨0x0780, 0x0780, 0, 0, 0, 0, 0, 0x4⟩,
  ⟨0x0781, 0x0781, 0, 0x3F, 0, 0, 0, 0⟩,
  ⟨0x0782, 0x0782, 0x3F, 0, 0, 0, 0, 0⟩,
  ⟨0x0783, 0x0783, 0, 0, 0, 0, 0, 0x64⟩,
  ⟨0x0784, 0x0784, 0x3, 0, 0, 0xC0000000, 0, 0x2⟩,
  ⟨0x0785, 0x0785, 0, 0, 0, 0xFFFFFFFF, 0, 0⟩,
  ⟨0x0786, 0x0786, 0, 0, 0, 0, 0, 0⟩,
  ⟨0x0787, 0x0787, 0, 0, 0, 0, 0, 0⟩,
  ⟨0x0788, 0x0788, 0xFF03, 0, 0, 0, 0, 0xA00⟩,
  ⟨0x0789, 0x0789, 0, 0, 0, 0, 0, 0⟩,
  ⟨0x078A, 0x078A, 0, 0, 0xFFFFFFFF, 0, 0, 0⟩,
  ⟨0x0790, 0x0790, 0xFF, 0, 0, 0, 0, 0⟩,
  ⟨0x0791, 0x0791, 0xFFFFFFFF, 0, 0, 0, 0, 0⟩,
  ⟨0x0792, 0x0792, 0xFFFF, 0, 0, 0, 0, 0⟩,
  ⟨0x07A0, 0x07AF, 0xC000FF0F, 0, 0, 0, 0, 0⟩]

/-- The RING bank: eight registers for each ring (R355, R356). -/
def ringInfo (a : Nat) : RegInfo :=
  let n := (a - 0x200) / 8
  match a % 8 with
  | 0 => ⟨a, a, 0x8FFF07FF, 0, 0, 0, 0, if n < 4 then 0xC0080000 + nw (8 * n) else 0x80100020 + nw (16 * (n - 4))⟩
  | 4 => ⟨a, a, 0x1FFFF, 0, 0, 0x80000000, 0, 0⟩
  | 5 => if n < 4 then ⟨a, a, 0, 0, 0xFFFF0000, 0, 0, 0⟩ else ⟨a, a, 0xFFFF, 0, 0xFFFF0000, 0, 0, 0x64⟩
  | 6 => ⟨a, a, 0, 0x7F, 0, 0, 0, 0⟩
  | 7 => ⟨a, a, 0x7F, 0, 0, 0, 0, 0⟩
  | _ => RegInfo.none

/-- The table of the bank an address lies in (R357). -/
def bankTable (a : Nat) : List RegInfo :=
  if 0 ≤ a ∧ a < 128 then regTable_sys
  else if 128 ≤ a ∧ a < 256 then regTable_time
  else if 256 ≤ a ∧ a < 384 then regTable_pmu
  else if 384 ≤ a ∧ a < 512 then regTable_link
  else if 768 ≤ a ∧ a < 960 then regTable_uhf
  else if 960 ≤ a ∧ a < 1152 then regTable_rxd
  else if 1152 ≤ a ∧ a < 1280 then regTable_seq
  else if 1280 ≤ a ∧ a < 1408 then regTable_gen2
  else if 1408 ≤ a ∧ a < 1472 then regTable_comb
  else if 1472 ≤ a ∧ a < 1600 then regTable_hf
  else if 1600 ≤ a ∧ a < 1664 then regTable_tagm
  else if 1664 ≤ a ∧ a < 1792 then regTable_cal
  else if 1792 ≤ a ∧ a < 1920 then regTable_svc
  else if 1920 ≤ a ∧ a < 2048 then regTable_core
  else []

/-- The row of a register; an address that no chapter defines has no bits (R358). -/
def regInfo (a : Nat) : RegInfo :=
  if 0x200 ≤ a ∧ a < 0x300 then ringInfo a
  else ((bankTable a).find? fun r => r.lo ≤ a && a ≤ r.hi).getD RegInfo.none

/-- What a register holds after reset: the value its map states, 0 where it defines none (R358). -/
def regReset (a : Nat) : Word := (regInfo a).reset

end Sys2Proof.Machine
end

