-- ==== Sys2Proof/Machine/Ops.lean ====
section
/-! DEFINITION. The operations every block shares: registers and event flags, set-paired configuration, power-domain
tests, stamps, rings and records, and the table of operations. Helpers act on the device (`Dev`); a command's meaning
applies them with `State.run`. -/
namespace Sys2Proof.Machine

/-- A command whose effect lies in the device alone: the tag and the queue stay. -/
def State.run (s : State) (f : Dev → Dev) : Out := .next { s with dev := f s.dev }

/-! Registers -/

/-- The word of a register that is held as a word; shadow pointers are at address + 0x8000. -/
def reg (d : Dev) (a : Nat) : Word := CMap.get regReset d.regs a

/-- Writes the word of a register. -/
def setReg (a : Nat) (v : Word) (d : Dev) : Dev := { d with regs := CMap.set regReset d.regs a v }

/-- Replaces field `[hi:lo]` of a register. -/
def setField (a hi lo v : Nat) (d : Dev) : Dev := setReg a (setFld (reg d a) hi lo v) d

/-- Marks of the present tick. -/
def tickMarks (d : Dev) : TickMarks := if d.marks.tick = d.now then d.marks else { tick := d.now, ev := [], pre := [] }

/-- Sets bit `b` of an event register, and notes it for the tick (R363). -/
def event (a b : Nat) (d : Dev) : Dev :=
  let m := tickMarks d
  { setReg a (reg d a ||| putB b true) d with
    marks := { m with ev := CMap.set (fun _ => 0) m.ev a (CMap.get (fun _ => 0) m.ev a ||| putB b true) } }

/-- Clears bit `b` of a register. -/
def clearBit (a b : Nat) (d : Dev) : Dev := setReg a (reg d a &&& ~~~ putB b true) d

/-- Adds `k` to the counter in field `[hi:lo]`, which saturates; the word before the tick's first increment is kept (R363). -/
def count (a hi lo k : Nat) (d : Dev) : Dev :=
  let m := tickMarks d
  let pre := if CMap.get (fun _ => 0) m.pre a = 0 then CMap.set (fun _ => 0) m.pre a ((reg d a).toNat + 1) else m.pre
  { setField a hi lo (satInc (2 ^ (hi - lo + 1) - 1) (fld (reg d a) hi lo) k) d with marks := { m with pre := pre } }

/-- A write of ones clears event bits but those set in the same tick (R363). -/
def w1c (a : Nat) (v : Word) (d : Dev) : Dev :=
  setReg a (reg d a &&& ~~~ (v &&& ~~~ CMap.get (fun _ => 0) (tickMarks d).ev a)) d

/-- A read of counters that it clears: it answers the word before the tick's increments, which stay (R363). -/
def readClear (a : Nat) (mask : Word) (d : Dev) : Dev × Word :=
  let m := tickMarks d
  let p := CMap.get (fun _ => 0) m.pre a
  let cur := reg d a
  let old := if p = 0 then cur else nw (p - 1)
  ({ setReg a ((cur &&& ~~~ mask) ||| ((cur &&& mask) - (old &&& mask))) d with
      marks := { m with pre := if p = 0 then m.pre else CMap.set (fun _ => 0) m.pre a ((cur &&& ~~~ mask).toNat + 1) } },
   (cur &&& ~~~ mask) ||| (old &&& mask))

/-- Clears the words of a range of registers: they go back to their reset values. -/
def clearRegs (lo hi : Nat) (d : Dev) : Dev := { d with regs := CMap.clearRange d.regs lo hi }

/-- The set in force and the other one (R364). -/
def activeSet (d : Dev) : CfgSet := if d.sel then d.set1 else d.set0
def shadowSet (d : Dev) : CfgSet := if d.sel then d.set0 else d.set1

/-- Replaces the active or the shadow set. -/
def setActive (c : CfgSet) (d : Dev) : Dev := if d.sel then { d with set1 := c } else { d with set0 := c }
def setShadow (c : CfgSet) (d : Dev) : Dev := if d.sel then { d with set0 := c } else { d with set1 := c }

/-- A set-paired register of a set, and of the set in force. -/
def cfgOf (c : CfgSet) (a : Nat) : Word := CMap.get regReset c.regs a
def cfg (d : Dev) (a : Nat) : Word := cfgOf (activeSet d) a

/-- Default of the twill table (R508) and of the zero-filled memories. -/
def tabDefault (_ : Nat) : DWord := 0x04000000000000FF
def zeroW (_ : Nat) : Word := 0

/-- A block is fenced (R460). -/
def fenced (d : Dev) (block : Nat) : Bool := d.svc.fences.getLsbD block

/-- The test of a block is concurrent: its ISOLATE and RESTORE phases are empty (R451, R466). -/
def testConcurrent (block : Nat) : Bool := [0x05, 0x06, 0x13, 0x14, 0x15].contains block

/-- A block is out of service: fenced (R460), or between ISOLATE and RESTORE of a test that is not concurrent (R466). -/
def outOfService (d : Dev) (block : Nat) : Bool :=
  fenced d block || d.svc.test.any fun x => x.block == block && x.now != 0 && !testConcurrent block

/-- Link and separator setting of the round in progress, which stay those of its Query, or of the set in force (R173). -/
def roundRuns (d : Dev) : Bool := decide (2 ≤ d.gen2.rstate)
def linkNow (d : Dev) : Word := if roundRuns d then d.gen2.link else cfg d Reg.GEN2_LINK
/-- A SEP that is out of service makes no separation (R451). -/
def sepEnabled (d : Dev) : Bool :=
  (if roundRuns d then d.gen2.sepOn else bit (cfg d Reg.RXD_SEP_CFG) 0) && !outOfService d 0x0E

/-! The keeping store (R8, R444, R463) -/

/-- CRC-32C that protects a record of the keeping store. -/
def recordCrc (ws : List Word) : Word := nw (crc32c (ws.flatMap bytesOf))

/-- A ledger entry with its CRC, and whether the CRC of an entry is good. -/
def sealEntry (ws : List Word) : List Word := ws ++ [recordCrc ws]
def entryGood (ws : List Word) : Bool := nth 0 ws 5 == recordCrc (ws.take 5)

/-- The newest `n` of a list. -/
def lastN (n : Nat) (l : List α) : List α := l.drop (l.length - n)

/-- Ledger entries held, five words each: the last 512 whose CRC is good. -/
def heldEntries (d : Dev) : List (List Word) := (lastN 512 (d.svc.ledger.filter entryGood)).map (·.take 5)

/-- A write of a record area of the keeping store (R444): 0 to 511 ledger, 512 fences, 513 slices, 514 safe state, 515 key,
516 stress, 517 epoch, 520 on temperature sets, 600 on SEQ last reported; none while KEEP is fenced (R451). -/
def keepWrite (area : Nat) (d : Dev) : Dev :=
  if fenced d 0x13 then d
  else { d with svc := { d.svc with writes := CMap.set (fun _ => 0) d.svc.writes area (CMap.get (fun _ => 0) d.svc.writes area + 1) } }

/-! Free values -/

/-- Draws a word of entropy (R239, R281, R305). -/
def drawEntropy (d : Dev) : BitVec 64 × Dev := (Config.entropy d.free, { d with free := d.free + 1 })

/-- Draws a word the manual leaves open. -/
def drawFree (d : Dev) : Word × Dev := (Config.freeWord d.free, { d with free := d.free + 1 })

/-- Draws `n` of them. -/
def drawFrees : Nat → Dev → Dev × List Word
  | 0, d => (d, [])
  | n + 1, d =>
    let (w, d) := drawFree d
    let (d, ws) := drawFrees n d
    (d, w :: ws)

/-! Power domains -/

/-- Position of domain `n` (0 AON, 1 LINK_A, 2 LINK_B, 3 CORE_M, 4 CORE_S, 5 MEM_COMB, 6 MEM_RING, 7 SEQ, 8 UHF_TX,
9 RXA, 10 RXB, 11 HF, 12 CAL, 13 TAGM). -/
def dom (d : Dev) (n : Nat) : Dom := nth Dom.full d.pmu.doms n

/-- Domain `n` is ON. -/
def domOn (d : Dev) (n : Nat) : Bool :=
  match (dom d n).pos with
  | .on => true
  | .entering _ _ _ => false
  | _ => false

/-- Domain of the core in service (R375). -/
def coreDom (d : Dev) : Nat := if d.cpu.onS then 4 else 3

/-- The core in service executes instructions. -/
def coreRuns (d : Dev) : Bool := decide ((coreIn d).st = .run) && domOn d (coreDom d)

/-- The handler of service `n` stands on the core in service for the flow that runs, applet or filter (R385, R397). -/
def inService (d : Dev) (n : Nat) : Bool := coreRuns d && (coreIn d).serves n

/-- The applet's main flow waits in service `n`, running or preempted by a filter call (R397, R400). -/
def mainService (d : Dev) (n : Nat) : Bool :=
  domOn d (coreDom d) && decide ((coreIn d).st ≠ .stopped) &&
    (match d.cpu.apl.filter with
     | none => (coreIn d).serves n
     | some f => ((coreIn d).restore f.back).serves n)

/-- A service of the main flow ends: its results go to p0 and p1, and it goes on after its TRAP. -/
def serviceReturn (p0 p1 : Option Word) (d : Dev) : Dev :=
  match d.cpu.apl.filter with
  | none => setCore ((coreIn d).serviceEnd p0 p1) d
  | some f =>
    let c := ((coreIn d).restore f.back).serviceEnd p0 p1
    let d := setCore { coreIn d with w := c.w } d
    { d with cpu := { d.cpu with apl := { d.cpu.apl with filter := some { f with back := c.save } } } }

/-! Stamps -/

/-- `MAINS_CYC` [31:0], and [39:32] in [31:24] (R233, R350). -/
def cycLo (c : Cyc) : Word := c.extractLsb' 0 32
def cycHi (c : Cyc) : Word := (c.extractLsb' 32 8).zeroExtend 32 <<< 24
def stampL (d : Dev) : Word := cycLo d.tb.cyc
def stampH (d : Dev) : Word := cycHi d.tb.cyc

/-! Rings (R343-R348) -/

def ring (d : Dev) (n : Nat) : Ring := nth (Ring.reset 0) d.rings n
def setRing (n : Nat) (r : Ring) (d : Dev) : Dev := { d with rings := upd (Ring.reset 0) d.rings n r }

/-- Words in use and in all. -/
def Ring.used (r : Ring) : Nat := (r.recs.map List.length).sum
def Ring.cap (r : Ring) : Nat := 64 * r.size
def Ring.room (r : Ring) : Nat := r.cap - r.used

/-- Address of register `k` of ring `n` (R355). -/
def ringReg (n k : Nat) : Nat := 0x200 + 8 * n + k

/-- Places a record or packet in a ring with room for it and raises NEW and LEVEL (R344, R346, R356). -/
def ringPlace (n : Nat) (words : List Word) (gap : Bool) (d : Dev) : Dev :=
  let r := ring d n
  let used := r.used + words.length
  let ms := fld (reg d (ringReg n 5)) 15 0
  let wm := fld (reg d (ringReg n 4)) 16 0
  let d := setRing n { r with
      recs := r.recs ++ [words], wpos := (r.wpos + words.length) % max 1 r.cap, gapFresh := gap, written := true
      nseq := if n < 4 then r.nseq else r.nseq + 1
      staleAt := if r.recs.isEmpty && decide (4 ≤ n) && ms != 0 then some (d.now + ms * 160000) else r.staleAt } d
  let d := event (ringReg n 6) 0 d
  if wm ≠ 0 ∧ wm ≤ used ∧ r.used < wm then event (ringReg n 6) 5 d else d

/-- Header of a record: type, length, sequence number (R349). -/
def recHeader (type len : Nat) (seq : BitVec 8) : Word := put 31 16 type ||| put 15 8 len ||| put 7 0 seq.toNat

/-- Places a report record of a type and body. -/
def recPlace (n type : Nat) (body : List Word) (gap : Bool) (d : Dev) : Dev :=
  ringPlace n (recHeader type (body.length + 1) (ring d n).nseq :: body) gap d

/-- Writes a GAP kept for lack of room, as soon as two words are free (R345). -/
def gapFlush (n : Nat) (d : Dev) : Dev :=
  let r := ring d n
  if r.pendGap ≠ 0 ∧ 2 ≤ r.room then
    recPlace n 0xFFFE [nw (min 0x7FFFFFFF r.pendGap)] true (setRing n { r with pendGap := 0 } d)
  else d

/-- Counts a dropped record in the newest GAP, a new one, or a kept count (R345). -/
def recDrop (n : Nat) (d : Dev) : Dev :=
  let d := count (ringReg n 5) 31 16 1 (event (ringReg n 6) 3 d)
  let r := ring d n
  match r.gapFresh && decide (r.pendGap = 0), r.recs.getLast? with
  | true, some [h, c] =>
    setRing n { r with recs := r.recs.dropLast ++ [[h, nw (min 0x7FFFFFFF (c.toNat + 1))]] } d
  | _, _ => gapFlush n (setRing n { r with pendGap := min 0x7FFFFFFF (r.pendGap + 1) } d)

/-- A record of `len` words fits ring `n` under R345. -/
def recFits (d : Dev) (n len : Nat) : Bool := (ring d n).en && decide (len + 2 ≤ (ring d n).room)

/-- Offers a report record to ring `n`; says whether it was written (R343, R345). -/
def offer (n type : Nat) (body : List Word) (d : Dev) : Dev × Bool :=
  if (ring d n).en then
    let d := gapFlush n d
    if recFits d n (body.length + 1) ∧ (ring d n).pendGap = 0 then (recPlace n type body false d, true)
    else (recDrop n d, false)
  else (count (ringReg n 5) 31 16 1 d, false)

/-- Offers a record that may be lost. -/
def writeRecord (n type : Nat) (body : List Word) (d : Dev) : Dev := (offer n type body d).1

/-- Writes a REPLY, ACCESS or HF_DATA record, which is never dropped: to ring 4 when its ring is disabled or too small,
held in data SRAM while there is no room or an earlier record of the operation is held (R335, R343, R266). -/
def writeHeld (tag n type : Nat) (body : List Word) (final : Bool) (d : Dev) : Dev :=
  let n := if (ring d n).en ∧ body.length + 3 ≤ (ring d n).cap then n else 4
  let d := gapFlush n d
  if recFits d n (body.length + 1) && (ring d n).pendGap == 0 && d.held.all (fun h => h.tag ≠ tag) then
    recPlace n type body false d
  else { d with held := d.held ++ [{ tag := tag, ring := n, words := nw type :: body, final := final }] }

/-! Operations and replies (R334-R342, R350) -/

/-- The operation or short command in use under a tag. -/
def findOp (d : Dev) (tag : Nat) : Option Op := d.ops.find? fun o => o.tag = tag

/-- Changes the operation under a tag. -/
def updOp (tag : Nat) (f : Op → Op) (d : Dev) : Dev :=
  { d with ops := d.ops.map fun o => if o.tag = tag then f o else o }

/-- The code of an operation state (R336). -/
def OpState.code : OpState → Nat
  | .queued => 0 | .running => 1 | .suspended => 2 | .done => 3 | .cancelled => 4 | .failed => 5

/-- Body of a REPLY (R350). -/
def replyBody (d : Dev) (status : Nat) (final : Bool) (tag opcode : Nat) (progress : Word) (st : OpState) (cring : Nat)
    (res : List Word) : List Word :=
  [put 31 24 status ||| putB 23 final ||| put 22 16 tag ||| put 15 0 opcode, progress, stampL d,
   stampH d ||| put 23 21 st.code ||| put 20 19 cring] ++ res

/-- The operation still has a record held under R335. -/
def hasHeld (d : Dev) (tag : Nat) : Bool := d.held.any fun h => h.tag = tag

/-- Writes a REPLY of an operation. -/
def replyOp (o : Op) (status : Nat) (final : Bool) (st : OpState) (res : List Word) (d : Dev) : Dev :=
  writeHeld o.tag o.rring 0x0001 (replyBody d status final o.tag o.opcode o.progress st o.cring res) final d

/-- Opcodes of tag access (R340); 0x409 stands for the exchange of a TAG_XCHG under its APPLET_CMD's tag (R398). -/
def isAccess (opcode : Nat) : Bool := decide (0x400 ≤ opcode ∧ opcode ≤ 0x409)

/-- Body of the ACCESS record of the access operation in progress (R353). -/
def accessBody (d : Dev) (o : Op) (status : Nat) (unknown : Bool) (ptr : Nat) : List Word :=
  let mine := d.acc.op = some o.tag
  [put 31 24 status ||| put 22 16 o.tag ||| put 15 0 o.opcode,
   (if mine then put 31 24 d.acc.tagErrCode ||| putB 23 d.acc.tagErrValid ||| put 22 20 d.acc.cause else 0)
     ||| put 19 16 (fld (nth 0 o.block 1) 11 8),
   putB 31 unknown ||| put 23 0 ptr, stampL d, stampH d]

/-- Mask length of an access block, and the address of its C0 (R202, R341). -/
def accMaskLen (b : List Word) : Nat := min 496 (max 16 (fld (nth 0 b 1) 24 16))
def accC (b : List Word) : Nat := 3 + (accMaskLen b + 31) / 32

/-- First word pointer of an access operation's block list and the words of one block (R220, R341). -/
def accessC0 (o : Op) : Nat := accC o.block
def accessBlockWords (o : Op) : Nat :=
  if o.opcode = 0x402 ∨ o.opcode = 0x403 then min 16 (max 1 (fld (nth 0 o.block 1) 4 0)) else 1
def accessPtr (d : Dev) (o : Op) : Nat :=
  fld (nth 0 o.block (accessC0 o)) 23 0 + (if d.acc.op = some o.tag then d.acc.confirmed else 0)

/-- Writes the ACCESS record of an access operation, ahead of its REPLY (R353). -/
def accessRecord (o : Op) (status : Nat) (d : Dev) : Dev :=
  if isAccess o.opcode ∧ o.opcode ≠ 0x409 then
    writeHeld o.tag o.rring 0x0401
      (accessBody d o status (decide (d.acc.op = some o.tag) && d.acc.unconf) (accessPtr d o)) false d
  else d

/-- Stores words from an address of the applet data, word by word; words outside it are not stored (R376). -/
def appletStore : Nat → List Word → Dev → Dev
  | _, [], d => d
  | a, w :: ws, d =>
    appletStore (a + 4) ws
      (if 0x1003C000 ≤ a ∧ a < 0x10040000 ∧ a % 4 = 0 then
         { d with cpu := { d.cpu with dsram := CMap.set (fun _ => 0) d.cpu.dsram ((a - 0x10000000) / 4) w } }
       else d)

/-- The command of a TAG_XCHG is an APPLET_CMD again. -/
def xchgRestore (tag : Nat) (block : List Word) (d : Dev) : Dev :=
  let d := updOp tag (fun o => { o with opcode := 0x904, st := .running, block := block, need := block.length, pend := .none
                                        failAs := none, saved := none, progress := 0, startCyc := none }) d
  { d with cpu := { d.cpu with apl := { d.cpu.apl with xchg := none } }
           acc := if d.acc.op = some tag then Access.reset else d.acc }

/-- A TAG_XCHG ends (R398): its command is an APPLET_CMD again, the bits decided go to the applet's data, status and bit
count to the applet. -/
def xchgEnd (o : Op) (status : Nat) (d : Dev) : Dev :=
  match d.cpu.apl.xchg with
  | none => d
  | some x =>
    let bits := if status = 0 ∧ d.acc.op = some o.tag then d.acc.data else []
    let waits := mainService d 5
    let d := xchgRestore o.tag x.block (appletStore x.addr.toNat (packBits 33 bits) d)
    if waits then serviceReturn (some (nw status)) (some (nw bits.length)) d else d

/-- Ends an operation: its ACCESS record, its final REPLY, and its tag is free unless that REPLY is held (R334, R335); a CAL_RUN or ONLINE_TEST in progress ends. -/
def endOp (tag status : Nat) (st : OpState) (res : List Word) (d : Dev) : Dev :=
  match findOp d tag with
  | none => d
  | some o =>
    if o.ended then d
    else if o.opcode = 0x409 then xchgEnd o status d
    else
    let d := replyOp o status true st res (accessRecord o status d)
    let d := if (d.cal.cmd.map CalCmd.tag) = some tag then { d with cal := { d.cal with cmd := none } } else d
    let d := if (d.svc.test.map TestRun.tag) = some tag then { d with svc := { d.svc with test := none } } else d
    let d := if hasHeld d tag then updOp tag (fun o => { o with st := st, ended := true, lastStatus := status }) d
             else { d with ops := d.ops.filter fun o => o.tag ≠ tag }
    if d.acc.op = some tag then { d with acc := Access.reset } else d

/-- Ends the short command under a tag when it is still the one of an opcode. -/
def endShort (opcode tag status : Nat) (st : OpState) (d : Dev) : Dev :=
  match findOp d tag with
  | none => d
  | some o => if o.opcode = opcode then endOp tag status st [] d else d

/-- The operation has ended but for its held final REPLY. -/
def opLive (o : Op) : Bool := !o.ended

/-- Operations of the sequencer threads: mask of the threads an opcode needs (R201, R337, R340). -/
def opThreads (o : Op) : List Nat :=
  if o.opcode = 0x300 ∨ isAccess o.opcode then [0, 1]
  else if o.opcode = 0x200 then (if bit (nth 0 o.block 0) 4 then [0, 2] else [0, 1])
  else if o.opcode = 0x500 ∨ o.opcode = 0x501 then [3]
  else []

/-! Elapsed time and positions -/

/-- Microseconds to fine ticks. -/
def us (n : Nat) : Nat := 160 * n

/-- Reads a word of a memory map with zero default. -/
def memW (m : CMap Word) (k : Nat) : Word := CMap.get zeroW m k
def memSet (m : CMap Word) (k : Nat) (v : Word) : CMap Word := CMap.set zeroW m k v

/-- Thread `n` of the sequencer (0 U, 1 A, 2 B, 3 H), and its replacement. -/
def thr (d : Dev) (n : Nat) : Thread := nth Thread.reset d.seq.thr n
def setThr (n : Nat) (th : Thread) (d : Dev) : Dev := { d with seq := { d.seq with thr := upd Thread.reset d.seq.thr n th } }

/-- Chain A (false) or B (true), and its replacement. -/
def chain (d : Dev) (b : Bool) : Chain := if b then d.chB else d.chA
def setChain (b : Bool) (c : Chain) (d : Dev) : Dev := if b then { d with chB := c } else { d with chA := c }

/-- Offset of chain B's registers from chain A's (R136). -/
def chOff (b : Bool) : Nat := if b then 0x60 else 0

/-- Port A (false) or B (true), and its replacement. -/
def port (d : Dev) (b : Bool) : Port := if b then d.portB else d.portA
def setPort (b : Bool) (p : Port) (d : Dev) : Dev := if b then { d with portB := p } else { d with portA := p }

/-- Offset of port B's registers from port A's (R327). -/
def portOffset (b : Bool) : Nat := if b then 0x10 else 0

end Sys2Proof.Machine
end

