-- ==== Sys2Proof/Machine/CalOps.lean ====
section
/-! DEFINITION. Calibrations as the other blocks see them: requests, stops, the codes formed from the temperature sets and
the moments they take effect (R431-R440). -/
namespace Sys2Proof.Machine

/-- Instance `i` of the layout of `CAL_STATUS.PEND`. -/
def calOf (d : Dev) (i : Nat) : CalInst := nth CalInst.reset d.cal.inst i

def setCal (i : Nat) (c : CalInst) (d : Dev) : Dev := { d with cal := { d.cal with inst := upd CalInst.reset d.cal.inst i c } }

/-- Calibration bit of an instance (R431). -/
def calBit (i : Nat) : Nat := match i with | 5 => 1 | 6 => 4 | i => i

/-- Instances in run order: ascending bit, chain A before chain B (R435). -/
def calOrder : List Nat := [0, 1, 5, 2, 3, 4, 6]

/-- Domains of an instance (R431). -/
def calDomains (i : Nat) : List Nat :=
  match i with
  | 0 => [8, 9]
  | 1 => [8, 9]
  | 2 => [8]
  | 3 => [11]
  | 4 => [9]
  | 5 => [8, 10]
  | _ => [10]

/-- Longest time of a run in fine ticks (R431). -/
def calTime (i : Nat) : Nat :=
  match calBit i with
  | 0 => us 1200 | 1 => us 2400 | 2 => us 1600 | 3 => us 200 | _ => us 3600

/-- Runs of it have been made and not yet judged, or it runs now. -/
def calGoing (d : Dev) (i : Nat) : Bool := d.cal.run.any (fun r => r.id = i) || (calOf d i).prev.isSome

/-- It becomes pending (R434); while it runs it is to run once more after it ends. -/
def calPend (i reason : Nat) (d : Dev) : Dev :=
  let c := calOf d i
  if calGoing d i then setCal i { c with again := true } d
  else if c.pend then d
  else setCal i { c with pend := true, reason := reason } d

/-- It begins again with its first run (R436). -/
def calFresh (i : Nat) (d : Dev) : Dev := setCal i { calOf d i with prev := none, runs := 0, disagree := 0 } d

/-- The run in progress is stopped and discarded (R436). -/
def calStop (d : Dev) : Dev :=
  match d.cal.run with
  | none => d
  | some r => calFresh r.id { d with cal := { d.cal with run := none } }

/-- The die temperature lies further than `CAL_DT`, in degC, from another in 0.25 degC (R434). -/
def calMoved (d : Dev) (t : Int) : Bool := decide (4 * max 1 (fld (reg d Reg.CAL_DT) 5 0) < (d.cal.temp - t).natAbs)

/-- `CAL_CTRL.AUTO` of an instance. -/
def calAuto (d : Dev) (i : Nat) : Bool := bit (reg d Reg.CAL_CTRL) (calBit i)

/-- It has never run and has no valid value in any set, and its domains are ON (R434). -/
def calFirst (d : Dev) (i : Nat) : Bool :=
  calAuto d i && (calOf d i).lastTemp.isNone && !(calOf d i).sets.any CalSet.valid && (calDomains i).all (domOn d)

/-! Temperature sets (R439, R440) -/

/-- Set that takes a result measured at a die temperature in 0.25 degC (R439). -/
def calBand (t : Int) : Nat := if t < -100 then 0 else if t < 30 then 1 else if t < 170 then 2 else if t < 330 then 3 else 4

/-- CRC-32C of a temperature set's record: its temperature, then its codes (R8, R441). -/
def setCrc (temp : Int) (codes : List Int) : Word := recordCrc (ofInt temp :: codes.map ofInt)

/-- At power-up of CAL the sets are read from the keeping store: one whose CRC fails is invalid (R441). -/
def calReadSets (d : Dev) : Dev :=
  let read := fun (c : CalSet) => if c.valid && c.crc != setCrc c.temp c.codes then CalSet.reset else c
  { d with cal := { d.cal with inst := d.cal.inst.map fun i => { i with sets := i.sets.map read } } }

/-- A quotient to nearest, ties to even. -/
def divEven (n : Int) (m : Nat) : Int :=
  let q := n / (m : Int)
  let r := n % (m : Int)
  if (m : Int) < 2 * r ∨ (2 * r = m ∧ q % 2 = 1) then q + 1 else q

/-- Codes of an instance: 8 of the modulator; filter and range; 26 sub-bands and two trims; I and Q; three of each slice. -/
def calCodes (i : Nat) : Nat := match calBit i with | 0 => 8 | 1 => 2 | 2 => 28 | 3 => 2 | _ => 54

/-- Code `k` is taken from the nearest set rather than interpolated (R431). -/
def calNear (i k : Nat) : Bool := (decide (calBit i = 1) && k == 1) || (decide (calBit i = 2) && decide (k < 26))

/-- Of two sets that bracket `t`, the nearer, the lower on a tie. -/
def calNearer (t : Int) (a b : CalSet) : CalSet := if (b.temp - t).natAbs < (a.temp - t).natAbs then b else a

/-- The set below or at `t` and the set above it, of the valid ones in rising order. -/
def calBracket (t : Int) (sets : List CalSet) : Option CalSet × Option CalSet :=
  ((sets.filter fun c => c.valid && decide (c.temp ≤ t)).getLast?, (sets.filter fun c => c.valid && decide (t < c.temp)).head?)

/-- Code `k` of instance `i` formed at `t` from its sets (R440). -/
def calCodeAt (i k : Nat) (t : Int) (sets : List CalSet) : Int :=
  match calBracket t sets with
  | (none, none) => Config.factoryCode i k
  | (some a, none) => nth 0 a.codes k
  | (none, some b) => nth 0 b.codes k
  | (some a, some b) =>
    let v := nth 0 a.codes k
    if calNear i k then nth 0 (calNearer t a b).codes k
    else v + divEven ((nth 0 b.codes k - v) * (t - a.temp)) (b.temp - a.temp).toNat

/-- The codes of an instance at the present die temperature. -/
def calForm (d : Dev) (i : Nat) : Option (List Int) :=
  let c := calOf d i
  if c.sets.any CalSet.valid then some ((List.range (calCodes i)).map fun k => calCodeAt i k d.cal.temp c.sets) else none

/-- Every instance's codes are formed again (R440). -/
def calFormAll (d : Dev) : Dev :=
  (List.range 7).foldl (fun d i => setCal i { calOf d i with next := calForm d i } d) { d with cal := { d.cal with formed := d.cal.temp } }

/-- Code `k` of a list of codes, or its factory value. -/
def calCode (i : Nat) (o : Option (List Int)) (k : Nat) : Int :=
  match o with
  | none => Config.factoryCode i k
  | some l => nth 0 l k

/-- Codes `lo` to `hi` - 1 of an instance take effect (R438). -/
def calApply (i lo hi : Nat) (d : Dev) : Dev :=
  let c := calOf d i
  if c.force = c.next then d
  else setCal i { c with force := some ((List.range (calCodes i)).map fun k => calCode i (if lo ≤ k ∧ k < hi then c.next else c.force) k) } d

/-- A chain's codes take effect at its entry to SAMPLING (R438). -/
def calApplyChain (ch : Bool) (d : Dev) : Dev :=
  if ch then calApply 6 0 54 (calApply 5 0 2 d) else calApply 4 0 54 (calApply 1 0 2 d)

end Sys2Proof.Machine
end

