-- ==== Sys2Proof/Machine/TimeOps.lean ====
section
/-! DEFINITION. The mains timebase as the rest of the device sees it: phase, slots, plans, windows, the flywheel bound
and the exchange cut-off (R25-R41). -/
namespace Sys2Proof.Machine

/-- Phase units in a cycle (R25). -/
def puCycle : Nat := 98304

/-- The code of a timebase state (R21). -/
def TbState.code : TbState → Nat
  | .none => 0 | .acquire => 1 | .locked => 2 | .slew => 3 | .fly => 4 | .free => 5

/-- The timebase holds a phase (R56). -/
def tbValid (s : Dev) : Bool :=
  match s.tb.st with
  | .none => false
  | .acquire => false
  | _ => true

/-- Phase units to 1/256 ticks at a period. -/
def puToQ (period pu : Nat) : Nat := pu * period / puCycle

/-- `TIME_LOOP.SLEW_MAX` with its limits (R55). -/
def slewMax (s : Dev) : Nat := min 64 (max 1 (fld (reg s Reg.TIME_LOOP) 15 8))

/-- `TIME_LOOP.ACQ`; 0 and 1 act as 2 (R55). -/
def acqCount (s : Dev) : Nat := max 2 (fld (reg s Reg.TIME_LOOP) 7 4)

/-- The window half-width in pu (R17). -/
def zcWin (s : Dev) : Nat := fld (reg s Reg.TIME_ZC_CFG) 15 8 * 64

/-- Part of a slew removed at an instant, in 1/65,536 pu: at SLEW_MAX in a cycle, spread evenly (R45). -/
def slewSub (s : Dev) (w : Slew) (tQ : Nat) : Nat :=
  min (w.e.natAbs * 65536) (w.base + slewMax s * 65536 * (tQ - w.startQ) / max 1 s.tb.period)

/-- The same with the sign of the error; 0 with no slew in progress. -/
def slewShift (s : Dev) (tQ : Nat) : Int :=
  match s.tb.slewing with
  | none => 0
  | some w => if 0 ≤ w.e then (slewSub s w tQ : Nat) else - ((slewSub s w tQ : Nat) : Int)

/-- Phase units since pu 0 of the running cycle at an instant in 1/256 ticks, unwrapped. -/
def rawPhase (s : Dev) (tQ : Nat) : Int :=
  (((tQ : Int) - s.tb.originQ) * puCycle * 65536 + slewShift s tQ * s.tb.period) / (65536 * (max 1 s.tb.period : Nat) : Int)

/-- Folds the part of a slew already removed into the phase origin and ends the slew. -/
def foldSlew (tQ : Nat) (s : Dev) : Dev :=
  { s with tb.originQ := ((s.tb.originQ : Int) - slewShift s tQ * s.tb.period / (65536 * puCycle : Int)).toNat, tb.slewing := none }

/-- The slew goes on from the part removed so far: what a change of its rate needs (R45). -/
def slewRebase (s : Dev) : Dev :=
  { s with tb.slewing := s.tb.slewing.map fun w => { w with base := slewSub s w (s.now * 256), startQ := s.now * 256 } }

/-- Local phase at tick `t`, 0 to 98,303 (R25); a backward hold freezes it at the phase of its start (R46). -/
def phaseAt (s : Dev) (t : Nat) : Nat :=
  (rawPhase s (match s.tb.holdUntil with
    | none => t * 256
    | some h => h * 256) % puCycle).toNat

/-- Conductor offset in slots, 32 per conductor (R27). -/
def condOff (s : Dev) : Nat := 32 * fld (cfg s Reg.TIME_PLAN_CFG) 5 4

/-- Building slot of a local slot (R27). -/
def buildingSlot (s : Dev) (l : Nat) : Nat := (l + condOff s) % 96

/-- Plan cycle in force, `off` cycles ahead (R31). -/
def planCycle (s : Dev) (off : Nat) : Nat :=
  (s.tb.cyc.toNat + s.tb.planPhase + off) % (fld (cfg s Reg.TIME_PLAN_CFG) 3 0 + 1)

/-- Bit of mask `m` (0 U, 1 A, 2 B, 3 H, 4 L) for a plan cycle and building slot (R29). -/
def maskBit (set : CfgSet) (m cyc b : Nat) : Bool :=
  bit (CMap.get (fun _ => 0) set.plan (cyc * 15 + m * 3 + b / 32)) (b % 32)

/-- Mask `m` selects the slot `k` slots after local slot `l` of the running cycle. -/
def slotSel (s : Dev) (m l k : Nat) : Bool :=
  maskBit (activeSet s) m (planCycle s ((l + k) / 96)) (buildingSlot s ((l + k) % 96))

/-- The current slot is selected for thread `th` (R155). -/
def inSlot (d : Dev) (th : Nat) : Bool := tbValid d && slotSel d th (phaseAt d d.now / 1024) 0

/-- Every slot of every cycle of the plan in force is selected (R34). -/
def maskFull (s : Dev) (m : Nat) : Bool :=
  (List.range (fld (cfg s Reg.TIME_PLAN_CFG) 3 0 + 1)).all fun c =>
    (List.range 96).all fun b => maskBit (activeSet s) m c b

/-- Some slot of the plan in force is selected (R50). -/
def maskAny (s : Dev) (m : Nat) : Bool :=
  (List.range (fld (cfg s Reg.TIME_PLAN_CFG) 3 0 + 1)).any fun c =>
    (List.range 96).any fun b => maskBit (activeSet s) m c b

/-- Slot `k` ahead of local slot `l` begins a plan at building slot 0 (R34). -/
def planHead (s : Dev) (l k : Nat) : Bool :=
  buildingSlot s ((l + k) % 96) = 0 && planCycle s ((l + k) / 96) = 0

/-- The slot `k` ahead ends a window before it: it is not selected, or the whole plan is selected and it heads a plan. -/
def windowBreak (s : Dev) (m : Nat) (full : Bool) (l k : Nat) : Bool :=
  if full then planHead s l k else !slotSel s m l k

/-- Slots from local slot `l` to the end of the window that holds it (R33, R34): the first break at 1 or more. -/
def windowSlots (s : Dev) (m : Nat) (full : Bool) (l : Nat) : Nat → Nat → Nat
  | 0, k => k
  | fuel + 1, k => if windowBreak s m full l k then k else windowSlots s m full l fuel (k + 1)

/-- Local slot `l` is the first of a window (R34, R35). -/
def windowFirst (s : Dev) (m l : Nat) : Bool :=
  if maskFull s m then planHead s l 0
  else slotSel s m l 0 &&
    !(maskBit (activeSet s) m
        (if l = 0 then (s.tb.cyc.toNat + s.tb.planPhase + fld (cfg s Reg.TIME_PLAN_CFG) 3 0) % (fld (cfg s Reg.TIME_PLAN_CFG) 3 0 + 1)
         else planCycle s 0) (buildingSlot s ((l + 95) % 96)))

/-- `TIME_PLAN_CFG.JOIN` of a thread. -/
def planJoin (s : Dev) (m : Nat) : Bool := bit (cfg s Reg.TIME_PLAN_CFG) (8 + m)

/-- The coming slot end for R35, in pu after pu 0 of local slot `l`, and whether it is a window end (R33). -/
def slotEnd (s : Dev) (m l : Nat) : Nat × Bool :=
  let full := maskFull s m
  if planJoin s m then (1024 * windowSlots s m full l 1600 1, true)
  else (1024, windowBreak s m full l 1)

/-- ppm at which the flywheel bound grows (R41). -/
def uncRate (s : Dev) : Nat := if s.tb.onRc then fld (reg s Reg.TIME_UNC_RATE) 15 8 else fld (reg s Reg.TIME_UNC_RATE) 7 0

/-- The bound as grown so far is kept: what a change of its rate needs (R41). -/
def uncFold (s : Dev) : Dev :=
  { s with tb.uncAcc := s.tb.uncAcc + uncRate s * (s.now - s.tb.uncSince), tb.uncSince := s.now }

/-- µs bound of the flywheel since the last qualified crossing, rounded up (R41). -/
def flyBound (s : Dev) (t : Nat) : Nat :=
  let acc := s.tb.uncAcc + uncRate s * (t - s.tb.uncSince)
  min 0xFFFFFFFF ((acc + 159999999) / 160000000 + s.tb.uncSw)

/-- `TIME_UNC` at a tick (R41). -/
def tbUnc (s : Dev) (t : Nat) : Nat :=
  match s.tb.st with
  | .none => 0xFFFFFFFF
  | .acquire => 0xFFFFFFFF
  | .locked => if s.tb.onRc then 31 else 2
  | .slew => if s.tb.onRc then 31 else 2
  | .fly => flyBound s t
  | .free => if s.tb.selfStarted then 0xFFFFFFFF else flyBound s t

/-- The allowance u of R37 in pu: none of it in FREE with FREE_RUN at 1. -/
def allowU (s : Dev) (t : Nat) : Nat :=
  let u := (tbUnc s t * 160 * 256 * puCycle + max 1 s.tb.period - 1) / max 1 s.tb.period
  match s.tb.st with
  | .fly => u
  | .free => if bit (reg s Reg.TIME_CTRL) 2 then 0 else u
  | _ => 0

/-- `TIME_GUARD`, below 2 acting as 2 (R37), or the larger guard floor GFLOOR (R447). -/
def guardPu (s : Dev) : Nat := max (fld (reg s Reg.CAL_MARGIN) 29 24) (max 2 (fld (cfg s Reg.TIME_GUARD) 5 0))

/-- A thread may start an exchange at tick `t` (R35): its slot is selected, the reserve before the coming slot end and
the first-slot guard are kept, the reserve is not 0xFFFF, which forbids every exchange (R57), and no step is pending (R46). -/
def cutOk (s : Dev) (m t : Nat) : Bool :=
  let p := phaseAt s t
  let l := p / 1024
  let (endPu, edge) := slotEnd s m l
  let c := cfg s (Reg.TIME_CUT_U + m)
  let reserve := if edge then fld c 31 16 else fld c 15 0
  let u := allowU s t
  tbValid s && slotSel s m l 0 && s.tb.stepPend.isNone
    && reserve != 0xFFFF && decide (p + reserve + u ≤ l * 1024 + endPu)
    && (!windowFirst s m l || decide (l * 1024 + guardPu s + u ≤ p))

/-- Some window of the plan in force is at least EDGE plus GUARD long for thread `m` (R38). -/
def windowLongEnough (s : Dev) (m : Nat) : Bool :=
  let full := maskFull s m
  let need := fld (cfg s (Reg.TIME_CUT_U + m)) 31 16 + guardPu s
  (List.range (fld (cfg s Reg.TIME_PLAN_CFG) 3 0 + 1)).any fun c =>
    (List.range 96).any fun l =>
      slotSel s m (96 * c + l) 0 && decide (need ≤ 1024 * windowSlots s m full (96 * c + l) 1600 1)

/-- `TIME_PHASE` (R56). -/
def timePhaseWord (s : Dev) : Word :=
  if tbValid s then
    let p := phaseAt s s.now
    putB 31 true ||| put 30 24 (buildingSlot s (p / 1024)) ||| put 23 17 (p / 1024) ||| put 16 0 p
  else 0

/-- An instant in 1/256 tick lies in the last cycle: not more than a period and the window's half-width ago, with no period
the longest interval of R20. -/
def inLastCycle (s : Dev) (q : Nat) : Bool :=
  let p := if s.tb.period = 0 then 3555200 * 256 else s.tb.period
  decide (s.now * 256 ≤ q + p + puToQ p (zcWin s))

/-- `TIME_STATUS` (R52). -/
def timeStatusWord (s : Dev) : Word :=
  (BitVec.ofInt 32 s.tb.skew <<< 16) ||| putB 9 s.tb.rateErr ||| putB 8 s.tb.stepPend.isSome
    ||| putB 7 (s.tb.lastB.any fun t => inLastCycle s (t * 256)) ||| putB 6 (s.tb.lastA.any fun t => inLastCycle s (t * 256))
    ||| put 5 4 (if s.tb.lastTakenQ.any (inLastCycle s) then s.tb.zcSrc else 0) ||| putB 3 s.tb.onRc ||| put 2 0 s.tb.st.code

/-- A TIME record of a cause, the state before the event and e (R352). -/
def timeRecord (cause : Nat) (prev : TbState) (e : Int) (s : Dev) : Dev :=
  writeRecord 5 0x0101
    [put 31 24 cause ||| put 14 12 prev.code ||| put 10 8 s.tb.st.code ||| put 3 0 (planCycle s 0),
     cycLo s.tb.cyc, cycHi s.tb.cyc, nw (tbUnc s s.now), ofInt e, reg s Reg.TIME_FLY_CYC, nw s.tb.period] s

/-- The slot `k` ahead of local slot `l` starts a window of a thread in the plan in force (R33, R34). -/
def windowStartAt (d : Dev) (th l k : Nat) : Bool :=
  if maskFull d th then planHead d l k else slotSel d th l k && !slotSel d th l (k - 1)

/-- Fine ticks to the next window start of a thread; none when its mask is empty or the timebase holds no phase. -/
def toWindow (d : Dev) (th : Nat) : Option Nat :=
  if tbValid d then
    let p := phaseAt d d.now
    let l := p / 1024
    ((List.range 1536).find? fun k => windowStartAt d th l (k + 1)).map fun k => puToQ d.tb.period (1024 * (l + k + 1) - p) / 256
  else none

/-- Work of `len` fine ticks that begins now ends before the next window start of every thread of a list. -/
def fitsGap (d : Dev) (threads : List Nat) (len : Nat) : Bool :=
  threads.all fun th => match toWindow d th with | none => true | some g => decide (len < g)

end Sys2Proof.Machine
end

