-- ==== Sys2Proof/Machine/UhfOps.lean ====
section
/-! DEFINITION. The UHF transmit side as every command uses it: channel list, power, ports, radio transitions, carrier,
canceller, coexistence and blanking (R58-R95). -/
namespace Sys2Proof.Machine

/-! Channel list (R58-R61) -/

/-- Raster in kHz of `UHF_CHAN_CFG.RASTER` (R100). -/
def rasterKhz (code : Nat) : Nat :=
  match code with
  | 0 => 25 | 1 => 50 | 2 => 100 | 3 => 125 | 4 => 200 | 5 => 250 | _ => 500

/-- Frequency in kHz of channel number `n` under a set's base and raster (R58). -/
def chanFreq (c : CfgSet) (n : Nat) : Nat :=
  fld (cfgOf c Reg.UHF_CHAN_BASE) 19 0 + n * rasterKhz (fld (cfgOf c Reg.UHF_CHAN_CFG) 2 0)

/-- The frequency lies within 860.000-960.000 MHz (R59). -/
def freqOk (f : Nat) : Bool := decide (860000 ≤ f ∧ f ≤ 960000)

/-- Entry `k` of a set's channel list, and whether it is valid. -/
def chanEntry (c : CfgSet) (k : Nat) : Word := memW c.chan k
def entryValid (d : Dev) (k : Nat) : Bool := bit (chanEntry (activeSet d) k) 31

/-- The list in force holds a valid entry (R60). -/
def anyChannel (d : Dev) : Bool := (List.range 64).any (entryValid d)

/-- The entry a hop to the next entry takes (R60, R61). -/
def nextEntry (d : Dev) : Option Nat :=
  let len := fld (cfg d Reg.UHF_CHAN_CFG) 13 8
  let start := match d.uhf.entry with
    | none => 0
    | some e => if len < e then 0 else e + 1
  ((List.range (len + 1)).map fun i => (start + i) % (len + 1)).find? (entryValid d)

/-- The entry an RF request tunes to when no hop is in it (R60). -/
def tuneEntry (d : Dev) : Option Nat :=
  match d.uhf.entry with
  | some e => if entryValid d e then some e else nextEntry d
  | none => nextEntry d

/-- Entries of an incoming set that fall outside the range are made invalid (R59). -/
def chanSweep (c : CfgSet) : CfgSet × Bool :=
  let bad := fun (e : Nat × Word) => bit e.2 31 && !freqOk (chanFreq c (fld e.2 11 0))
  ({ c with chan := (c.chan.filterMap fun e =>
      if bad e then (if e.2 &&& 0x7FFFFFFF = 0 then none else some (e.1, e.2 &&& 0x7FFFFFFF)) else some e) },
   c.chan.any bad)

/-! Ports and power (R64-R73) -/

/-- `UHF_AER_n` in force; its enable; its trim. -/
def aerReg (d : Dev) (n : Nat) : Word := cfg d (Reg.UHF_AER_0 + n)
def aerEnabled (d : Dev) (n : Nat) : Bool := bit (aerReg d n) 31
def aerTrim (d : Dev) (n : Nat) : Int := toSigned 6 (fld (aerReg d n) 5 0)

/-- Port of an aerial: true for UHF_B (R69). -/
def aerPort (n : Nat) : Bool := decide (8 ≤ n)

/-- Status a transmit aerial is refused with (R71): AERIAL_OFF 0x23, PORT_FENCED 0x22. -/
def aerialRefusal (d : Dev) (n : Nat) : Option Nat :=
  let pc := cfg d Reg.UHF_PORT_CFG
  if bit pc (if aerPort n then 1 else 0) || !aerEnabled d n then some 0x23
  else if fenced d (if aerPort n then 0x0B else 0x0A) then some 0x22
  else none

/-- LVL + TRIM of an aerial on its port (R64). -/
def powerBase (d : Dev) (n : Nat) : Int :=
  let w := cfg d Reg.UHF_PWR_SET
  (min 92 (if aerPort n then fld w 14 8 else fld w 6 0) : Nat) + aerTrim d n

/-- Power code P: the clamp to 0-92 (R64). -/
def powerClamp (p : Int) : Nat := min 92 p.toNat

/-- PWRADJ: the offset comes into force on a carrier that is on too (R150). -/
def setAdj (a : Int) (d : Dev) : Dev :=
  { d with uhf := { d.uhf with adj := a, power := powerClamp (d.uhf.base + a) } }

/-- Settle wait of a switch in fine ticks (R72). -/
def settleTicks (d : Dev) : Nat := 4 * fld (cfg d Reg.UHF_SW_CFG) 15 8

/-- Selects aerial `n`: its throw is driven on its port's bus at a tick, the settle wait follows (R69, R72). -/
def driveAerial (n at_ : Nat) (d : Dev) : Dev :=
  let end_ := at_ + settleTicks d
  if aerPort n then
    { d with uhf := { d.uhf with aerial := n, port := true, throwAt := at_, throwPrev := d.uhf.throwB, throwB := n - 8, settleB := end_ } }
  else { d with uhf := { d.uhf with aerial := n, port := false, throwAt := at_, throwPrev := d.uhf.throwA, throwA := n, settleA := end_ } }

/-- The throw of the present aerial is driven again and settles (R72, R453). -/
def redrive (d : Dev) : Dev := driveAerial d.uhf.aerial d.now d

/-- Throw on the bus of port UHF_A (false) or UHF_B now (R72). -/
def busThrow (d : Dev) (p : Bool) : Nat :=
  if aerPort d.uhf.aerial = p ∧ d.now < d.uhf.throwAt then d.uhf.throwPrev else if p then d.uhf.throwB else d.uhf.throwA

/-- End of the settle wait of the transmit aerial's port. -/
def settleEnd (d : Dev) : Nat := if aerPort d.uhf.aerial then d.uhf.settleB else d.uhf.settleA

/-- A ramp-up is in progress, or the carrier is on, or its ramp-down has not ended: the transmitting port carries RF (R72). -/
def carriesRf (d : Dev) : Bool :=
  d.uhf.carrier || (d.uhf.move.any fun m => m.ramp && !m.waitLock && decide (m.takeAt ≤ d.now)) || decide (d.now < d.uhf.rfEnd)

/-- A chain's input port: true for UHF_B (R70). -/
def rxPort (d : Dev) (ch : Bool) : Bool := bit (cfg d Reg.UHF_PORT_CFG) (if ch then 4 else 2)

/-- A port carries no RF from this device and no chain samples through it (R73). -/
def portIdle (d : Dev) (p : Bool) : Bool :=
  !(carriesRf d && d.uhf.port == p)
    && [false, true].all fun ch => decide ((chain d ch).st ≠ .sampling) || rxPort d ch != p

/-- The level of SW_A_EN (`p` false) or SW_B_EN: active unless the port is idle without x_EN_IDLE, by x_EN_POL; it floats while
UHF_TX is OFF or VIO_B is low (R73, R410). -/
def switchEnable (d : Dev) (p : Bool) : Option Bool :=
  match (dom d 8).pos, d.pmu.vioB with
  | .off, _ => none
  | _, false => none
  | _, true =>
    let c := cfg d Reg.UHF_SW_CFG
    some ((!portIdle d p || bit c (if p then 1 else 0)) != bit c (if p then 3 else 2))

/-- The three bits of a port's switch bus, SW_x_0 the least significant (R69); it floats while UHF_TX is OFF or VIO_B is low (R73, R410). -/
def switchBus (d : Dev) (p : Bool) : Option (BitVec 3) :=
  match (dom d 8).pos, d.pmu.vioB with
  | .off, _ => none
  | _, false => none
  | _, true => some (BitVec.ofNat 3 (busThrow d p))

/-! Blanking (R94) -/

/-- BLANK_0 (false) or BLANK_1 (true) is at its active level. -/
def blankLevel (d : Dev) (w : Bool) : Bool :=
  d.pmu.vioA && (if w then d.uhf.blank1.level != bit (cfg d Reg.UHF_BLANK_CFG) 9
  else d.uhf.blank0.level != bit (cfg d Reg.UHF_BLANK_CFG) 8)

/-- The input marks samples now: it is active or its extension runs. -/
def blankNow (d : Dev) (w : Bool) : Bool :=
  blankLevel d w || decide (d.now < (if w then d.uhf.blank1.extEnd else d.uhf.blank0.extEnd))

/-- Samples of a path (0 chain A, 1 chain B, 2 HF receive) are marked blanked. -/
def pathBlanked (d : Dev) (path : Nat) : Bool :=
  (blankNow d false && bit (cfg d Reg.UHF_BLANK_CFG) path) ||
  (blankNow d true && bit (cfg d Reg.UHF_BLANK_CFG) (4 + path))

/-! Canceller (R84-R89) -/

def canc (d : Dev) (ch : Bool) : Canc := nth Canc.reset d.uhf.canc (if ch then 1 else 0)
def setCanc (ch : Bool) (c : Canc) (d : Dev) : Dev :=
  { d with uhf := { d.uhf with canc := upd Canc.reset d.uhf.canc (if ch then 1 else 0) c } }

/-- Address of a seed: chain, transmit aerial, channel-list entry (R89). -/
def seedKey (ch : Bool) (aerial entry : Nat) : Nat := (if ch then 1024 else 0) + 64 * aerial + entry

/-- The word of a vector with VALID as given (R102). -/
def vecWord (valid : Bool) (wi wq : BitVec 10) : Word := putB 31 valid ||| put 25 16 wq.toNat ||| put 9 0 wi.toNat

/-- Starts ACQ of a chain at ramp-up complete, from its seed or the zero vector (R86). -/
def cancStart (ch : Bool) (d : Dev) : Dev :=
  let seed := memW d.uhf.seeds (seedKey ch d.uhf.aerial (d.uhf.entry.getD 0))
  let use := bit (cfg d Reg.UHF_CANC_CFG) 0 && bit seed 31
  setCanc ch { st := .acq, wi := if use then seed.extractLsb' 0 10 else 0, wq := if use then seed.extractLsb' 16 10 else 0
               ok := false, acqAcc := 0, acqSince := some d.now, failed := false, seeded := use } d

/-- The present vector of a chain: in TRACK it follows slow changes, which the manual does not give (R84); else as stored. -/
def cancVec (d : Dev) (ch : Bool) : BitVec 10 × BitVec 10 :=
  let c := canc d ch
  match c.st with
  | .track =>
    let v := Config.trackVec ch d.now c.wi c.wq
    (v.extractLsb' 0 10, v.extractLsb' 10 10)
  | _ => (c.wi, c.wq)

/-- A chain's canceller at ramp-down: from TRACK, and from no other state, its vector is stored as the seed; the flag falls
(R87). -/
def cancStop (ch : Bool) (d : Dev) : Dev :=
  let c := canc d ch
  let v := cancVec d ch
  let keep := match c.st with
    | .track => true
    | _ => false
  let d := if keep then
      { d with uhf := { d.uhf with seeds := memSet d.uhf.seeds (seedKey ch d.uhf.aerial (d.uhf.entry.getD 0)) (vecWord true v.1 v.2) } }
    else d
  setCanc ch { c with st := .idle, wi := v.1, wq := v.2, ok := false, acqAcc := 0, acqSince := none } d

/-- The canceller of a chain may update: unmodulated carrier, and samples that are not blanked (R85). -/
def cancFree (d : Dev) (ch : Bool) : Bool :=
  d.uhf.carrier && decide (d.uhf.st ≠ .tx) && !pathBlanked d (if ch then 1 else 0)

/-- Updates stop while the carrier is modulated or samples are blanked: TRACK freezes its vector in HOLD. The ACQ time stops
while the carrier is modulated only (R84, R85, R95). -/
def cancPause (ch : Bool) (d : Dev) : Dev :=
  let c := canc d ch
  match c.st with
  | .track => setCanc ch { c with st := .hold, wi := (cancVec d ch).1, wq := (cancVec d ch).2 } d
  | .acq =>
    if d.uhf.st = .tx then
      setCanc ch { c with acqAcc := c.acqAcc + (match c.acqSince with | some s => d.now - s | none => 0), acqSince := none } d
    else d
  | _ => d

/-- Updates resume on unmodulated, unblanked carrier; the ACQ time on unmodulated carrier (R85, R95). -/
def cancResume (ch : Bool) (d : Dev) : Dev :=
  let c := canc d ch
  match c.st with
  | .hold => if cancFree d ch then setCanc ch { c with st := .track } d else d
  | .acq => if d.uhf.carrier ∧ d.uhf.st ≠ .tx ∧ c.acqSince = none then setCanc ch { c with acqSince := some d.now } d else d
  | _ => d

/-- Ticks of unmodulated search so far (R88). -/
def acqTicks (d : Dev) (c : Canc) : Nat := c.acqAcc + (match c.acqSince with | some s => d.now - s | none => 0)

/-- Invalidates the seeds that a predicate on (chain, aerial, entry) selects (R89, R102). An invalidated seed reads as 0 in
WI and WQ too, which the manual leaves open (log entry 87). -/
def seedsDrop (p : Bool → Nat → Nat → Bool) (d : Dev) : Dev :=
  { d with uhf := { d.uhf with seeds := d.uhf.seeds.filter fun e => !p (decide (1024 ≤ e.1)) (e.1 / 64 % 16) (e.1 % 64) } }

/-! Carrier and radio transitions (R65, R66, R74-R79) -/

/-- States in which the carrier is on. -/
def Radio.hasCarrier : Radio → Bool
  | .cwHold => true | .tx => true | .rxCw => true | _ => false

/-- The code of a radio state (R74). -/
def Radio.code : Radio → Nat
  | .sleep => 0 | .standby => 1 | .synthOn => 2 | .cwHold => 3 | .tx => 4 | .rxCw => 5 | .rxListen => 6

/-- Carrier-on time since the last hop in microseconds (R62). -/
def dwellUs (d : Dev) : Nat :=
  (d.uhf.dwellAcc + (if d.uhf.carrier then d.now - d.uhf.carrierAt else 0)) / 160

/-- `UHF_MOD_CFG` as it acts: PW outside 17-33 acts as the nearer limit, DEPTH above 10 as 10 (R100). -/
def modEffective (w : Word) : Word :=
  setFld (setFld w 13 8 (min 33 (max 17 (fld w 13 8)))) 7 4 (min 10 (fld w 7 4))

/-- Drive trim of a ramp-up on the present aerial (R66): with CL at 1 what the last measurement on that aerial was short of its
set level is added to the trim it was taken with, within 2.0 dB; with CL at 0, or no measurement yet, none. -/
def rampTrim (d : Dev) : Int :=
  match bit (cfg d Reg.UHF_RADIO_CFG) 0, CMap.get (fun _ => none) d.uhf.fwdMeas d.uhf.aerial with
  | true, some m => max (-16) (min 16 (m.trim + ((240 + 2 * m.power : Nat) : Int) - m.level))
  | _, _ => 0

/-- Takes power, channel and modulation at the start of a ramp-up or a hop (R65), with the trim of R66. -/
def takeCarrier (d : Dev) : Dev :=
  let b := powerBase d d.uhf.aerial
  let c := activeSet d
  let d := calApply 0 0 8 d
  { d with uhf := { d.uhf with power := powerClamp (b + d.uhf.adj), base := b, trim := rampTrim d
                               modCfg := modEffective (cfg d Reg.UHF_MOD_CFG)
                               freq := chanFreq c (fld (chanEntry c (d.uhf.entry.getD 0)) 11 0) } }

/-- A ramp-up that is to come, or starts in this tick, takes its settings again: they are those in force at its start (R65). -/
def retake (d : Dev) : Dev :=
  if d.uhf.move.any (fun m => m.ramp && (m.waitLock || decide (d.now ≤ m.takeAt))) then takeCarrier d else d

/-- The ramp-down starts: no RF in 4 us, cancellers idle, coupler flags clear (R67, R87); a ramp-up in progress goes down as
well. -/
def carrierOff (d : Dev) : Dev :=
  let up := carriesRf d
  let d := if d.uhf.carrier then
      let d := cancStop true (cancStop false d)
      { d with uhf := { d.uhf with dwellAcc := d.uhf.dwellAcc + (d.now - d.uhf.carrierAt), carrier := false
                                   reflA := false, reflB := false, rfEnd := d.now + 640 } }
    else d
  if up ∧ d.uhf.rfEnd ≤ d.now then { d with uhf := { d.uhf with rfEnd := d.now + 640 } } else d

/-- The ramp-down that runs takes no longer than 2 us (R79, R92). -/
def rampDownFast (d : Dev) : Dev := { d with uhf := { d.uhf with rfEnd := min d.uhf.rfEnd (d.now + 320) } }

/-- A ramp-up completes: the carrier is on and both cancellers search (R86). -/
def carrierOn (d : Dev) : Dev :=
  let d := { d with uhf := { d.uhf with carrier := true, carrierAt := if d.uhf.carrier then d.uhf.carrierAt else d.now } }
  cancStart true (cancStart false d)

/-- Ticks from SYNTH_ON to a state (R75). -/
def fromSynth : Radio → Nat
  | .sleep => 3360 | .standby => 160 | .synthOn => 0 | .cwHold => 1280 | .tx => 1280 | .rxCw => 1600 | .rxListen => 640

/-- Ticks from a state with lock to SYNTH_ON (R75). -/
def toSynth : Radio → Nat
  | .cwHold => 640 | .tx => 640 | .rxCw => 640 | .rxListen => 80 | _ => 0

/-- Ticks between two states of which both hold the carrier (R75). -/
def carrierMove : Radio → Radio → Nat
  | .cwHold, .tx => 40 | .tx, .cwHold => 0 | .tx, .rxCw => 320 | .cwHold, .rxCw => 320 | .rxCw, .tx => 480
  | .rxCw, .cwHold => 40 | _, _ => 0

/-- The crystal must start for SLEEP to be left (R74): 1.2 ms, else 1 us. -/
def sleepExit (d : Dev) : Nat := if d.pmu.xo then 160 else 192000

/-- Ticks from a state to another once the synthesiser runs (R75). -/
def stepTicks (a b : Radio) : Nat :=
  if a = b then 0 else if a.hasCarrier && b.hasCarrier then carrierMove a b else toSynth a + fromSynth b

/-- Start of a ramp-up that may begin at a tick: the switch has settled and the last ramp-down has ended (R72). -/
def rampFrom (d : Dev) (at_ : Nat) : Nat := max at_ (max (settleEnd d) d.uhf.rfEnd)

/-- A transition with lock that needs no ramp-up, and one that ramps up from a tick and needs `after` from its start on. -/
def moveTo (target : Radio) (done : Nat) (hop : Option Nat) : Move :=
  { target := target, done := done, waitLock := false, rest := 0, ramp := false, takeAt := 0, hop := hop, seeded := false }
def rampTo (target : Radio) (from_ after : Nat) (hop : Option Nat) : Move :=
  { target := target, done := from_ + after, waitLock := false, rest := 0, ramp := true, takeAt := from_, hop := hop, seeded := false }

/-- A transition that waits for lock and needs `rest` after it. -/
def lockTo (target : Radio) (done rest : Nat) (ramp : Bool) (hop : Option Nat) : Move :=
  { target := target, done := done, waitLock := true, rest := rest, ramp := ramp, takeAt := 0, hop := hop, seeded := false }

/-- The transition to a target along the shortest joined path (R75), from the present state or from where a transition in
progress ends; a carrier that is on, or ramps up, ramps down at once. -/
def movePlan (d : Dev) (target : Radio) : Move :=
  let up := target.hasCarrier && !d.uhf.carrier
  match d.uhf.move with
  | some m =>
    let hop := if target.hasCarrier then m.hop else none
    let base := max d.now m.done
    if m.waitLock then lockTo target m.done (m.rest + stepTicks m.target target) up hop
    else if !target.hasCarrier ∧ (d.uhf.carrier ∨ m.ramp) then
      moveTo target (d.now + (if carriesRf d then 640 else 0) + fromSynth target) none
    else if up && !m.ramp then rampTo target (rampFrom d (base + toSynth m.target)) (fromSynth target) hop
    else { m with target := target, done := base + stepTicks m.target target, hop := hop, seeded := false }
  | none =>
    let low := decide (d.uhf.st = .sleep ∨ d.uhf.st = .standby)
    let down := decide (target = .sleep ∨ target = .standby)
    let pre := if d.uhf.st = .sleep then sleepExit d else 0
    if d.uhf.st = target then moveTo target d.now none
    else if low && down then moveTo target (d.now + (if target = .sleep then 3200 else pre)) none
    else if low then lockTo target (d.now + pre + 7200 + fromSynth target) (fromSynth target) up none
    else if up then rampTo target (rampFrom d (d.now + toSynth d.uhf.st)) (fromSynth target) none
    else moveTo target (d.now + stepTicks d.uhf.st target) none

/-- The radio is down and its domain is not ON. -/
def radioDown (d : Dev) : Bool := !domOn d 8 && decide (d.uhf.st = .sleep ∨ d.uhf.st = .standby)

/-- Starts a transition: the carrier ramps down at once when the target has none; a ramp-up takes its settings; leaving
STANDBY or SLEEP upward tunes to an entry and waits for lock (R60, R65). With UHF_TX not ON the radio stays. -/
def startMove (target : Radio) (d : Dev) : Dev :=
  if radioDown d then d else
  let m := movePlan d target
  let d := if target.hasCarrier then d else carrierOff d
  let d := if m.waitLock then { d with uhf := { d.uhf with entry := (tuneEntry d).or d.uhf.entry } } else d
  let d := if target = .sleep ∨ target = .standby then { d with uhf := { d.uhf with lock := false, hopEntry := none } } else d
  let d := if d.uhf.st = .tx ∧ target ≠ .tx then cancResume true (cancResume false { d with uhf := { d.uhf with st := .cwHold } }) else d
  let d := { d with uhf := { d.uhf with move := some m } }
  if m.ramp then takeCarrier d else d

/-- A carrier is on or ramps up: its settings are latched. -/
def carrierLatched (d : Dev) : Bool := d.uhf.carrier || d.uhf.move.any fun m => m.ramp

/-- The synthesiser holds lock for an emission: on a latched carrier, or on a current entry that is valid (R60, R65). -/
def tuned (d : Dev) : Bool := d.uhf.lock && (carrierLatched d || d.uhf.entry.any (entryValid d))

/-- Locked with the carrier off on an entry that the list in force no longer holds (R60). -/
def entryLost (d : Dev) : Bool := d.uhf.lock && !tuned d

/-- The synthesiser locks again, on the entry of R60. -/
def relock (d : Dev) : Dev :=
  { d with uhf := { d.uhf with entry := (tuneEntry d).or d.uhf.entry, lock := false
                               move := some (lockTo .synthOn (d.now + toSynth d.uhf.st + 2240) 0 false none) } }

/-- Ticks of a hop from now to lock: ramp-down or the stop of the chains, then 14 us, or the 45 us of a synthesiser start (R75). -/
def hopToLock (d : Dev) : Nat :=
  if d.uhf.st = .sleep then sleepExit d + 7200
  else if d.uhf.st = .standby then 7200
  else (if d.uhf.carrier then 640 else if d.uhf.st = .rxListen then 80 else 0) + 2240

/-- The synthesiser leaves its channel for a hop to entry `e`: the carrier ramps down and the time of R62 begins again. -/
def hopTune (e : Nat) (m : Move) (d : Dev) : Dev :=
  let d := carrierOff d
  { d with uhf := { d.uhf with entry := some e, dwellAcc := 0, dwell := false, lock := false, move := some m } }

/-- A HOP that must wait at the lock and grant gates tunes to its channel meanwhile, with no ramp-up to follow (R80, R83). -/
def hopHold (e : Nat) (d : Dev) : Dev :=
  if radioDown d then d
  else
    let listen := decide (d.uhf.st = .rxListen)
    hopTune e (lockTo .synthOn (d.now + hopToLock d) 0 false none) { d with uhf := { d.uhf with hopEntry := some e, hopListen := listen } }

/-- Starts a hop to an entry from a request that arrived at `at_` (R60, R62, R75): re-lock 14 us and ramp-up 8 us; the 4 us of
seeded convergence follow the ramp-up. -/
def startHop (e at_ : Nat) (d : Dev) : Dev :=
  if radioDown d then d else
  let listen := decide (d.uhf.st = .rxListen)
  let rest := if listen then 640 else 1280
  let d := hopTune e (lockTo (if listen then .rxListen else .cwHold) (d.now + hopToLock d + rest) rest (!listen) (some e))
    { d with uhf := { d.uhf with hopAt := some at_ } }
  if listen then d else takeCarrier d

/-- A held HOP passes with its channel tuned: the ramp-up, or the chains again where it came in RX_LISTEN, is all that is left
of it (R75, R83). -/
def finishHop (e : Nat) (d : Dev) : Dev :=
  let listen := d.uhf.hopListen
  let d := { d with uhf := { d.uhf with hopEntry := none, hopListen := false } }
  if listen then { d with uhf := { d.uhf with move := some (moveTo .rxListen (d.now + 640) (some e)) } }
  else takeCarrier { d with uhf := { d.uhf with move := some (rampTo .cwHold (rampFrom d d.now) 1280 (some e)) } }

/-- The radio falls back after an exchange that did not complete (R78): SYNTH_ON with lock, else STANDBY. A radio at rest in
SLEEP or STANDBY that no request calls on has no exchange to end. -/
def fallBack (d : Dev) : Dev :=
  let idle := d.uhf.move.isNone && d.uhf.heldAt.isNone && !d.uhf.exchange
  let d := { d with uhf := { d.uhf with heldAt := none, hopEntry := none, hopListen := false, hopAt := none } }
  if d.uhf.lock then startMove .synthOn d
  else if (idle && decide (d.uhf.st = .sleep ∨ d.uhf.st = .standby)) || !domOn d 8 then
    let d := carrierOff d
    { d with uhf := { d.uhf with move := none } }
  else
    let d := carrierOff d
    { d with uhf := { d.uhf with st := .standby, move := none } }

/-- The return state of R76 at the end of an exchange. -/
def returnState (d : Dev) : Dev :=
  match fld (cfg d Reg.UHF_RADIO_CFG) 5 4 with
  | 1 => if d.uhf.carrier then startMove .cwHold d else if d.uhf.lock then startMove .synthOn d else d
  | 2 => if d.uhf.st = .sleep then d else startMove .standby d
  | _ => if d.uhf.lock then startMove .synthOn d else d

/-! Coexistence (R91-R93) -/

/-- COEX_GNT is at its active level by GNT_POL; without VIO_A it reads as no grant (R93, R410). -/
def gntOn (d : Dev) : Bool := d.pmu.vioA && (d.uhf.gntPin != bit (cfg d Reg.UHF_COEX_CFG) 5)

/-- The grant counts at the present tick: it is active, or was withdrawn in this very tick (R92). -/
def gntCounts (d : Dev) : Bool := gntOn d || decide (d.uhf.gntOff = some d.now)

/-- Levels of COEX_REQ and COEX_PRIO by REQ_POL and PRIO_POL (R93); without VIO_A they are high impedance (R410). -/
def coexReqPin (d : Dev) : Option Bool :=
  if d.pmu.vioA then some ((d.uhf.coexU.req || d.uhf.coexH.req) != bit (cfg d Reg.UHF_COEX_CFG) 4) else none
def coexPrioPin (d : Dev) : Option Bool :=
  if d.pmu.vioA then
    some (((d.uhf.coexU.req && d.uhf.coexU.prio) || (d.uhf.coexH.req && d.uhf.coexH.prio)) != bit (cfg d Reg.UHF_COEX_CFG) 6)
  else none

/-- The grant gates a thread's emission: U by the port of its aerial, H by EN_HF. -/
def coexGated (d : Dev) (th : Nat) : Bool :=
  let c := cfg d Reg.UHF_COEX_CFG
  if th = 3 then bit c 2 else if aerPort d.uhf.aerial then bit c 1 else bit c 0

/-- The coexistence request of the HF driver (`h` true) or of the UHF path, and its replacement. -/
def coexReq (h : Bool) (d : Dev) : CoexReq := if h then d.uhf.coexH else d.uhf.coexU
def setCoexReq (h : Bool) (r : CoexReq) (d : Dev) : Dev :=
  { d with uhf := { d.uhf with coexU := if h then d.uhf.coexU else r, coexH := if h then r else d.uhf.coexH } }

/-- COEX_REQ rises for an emission of a path planned at `planned` (R91). -/
def coexRequest (h : Bool) (planned : Nat) (prio : Bool) (d : Dev) : Dev :=
  setCoexReq h ⟨true, (coexReq h d).prio || prio, planned⟩ d

/-- COEX_REQ falls at the end of an exchange (SPAN 0) or of a window (SPAN 1) (R93). -/
def coexDrop (h windowEnd : Bool) (d : Dev) : Dev :=
  if bit (cfg d Reg.UHF_COEX_CFG) 7 = windowEnd then setCoexReq h { coexReq h d with req := false, prio := false } d else d

/-! Status (R99) -/

/-- The code of a canceller state (R84). -/
def CancSt.code : CancSt → Nat
  | .idle => 0 | .acq => 1 | .track => 2 | .hold => 3

/-- `UHF_STATUS`. -/
def uhfStatusWord (d : Dev) : Word :=
  putB 23 d.uhf.paLim ||| putB 22 d.uhf.reflB ||| putB 21 d.uhf.reflA ||| putB 20 (gntOn d) ||| putB 19 (d.uhf.coexU.req || d.uhf.coexH.req)
  ||| putB 18 (blankLevel d true) ||| putB 17 (blankLevel d false) ||| put 15 14 (canc d true).st.code
  ||| put 13 12 (canc d false).st.code ||| putB 11 (canc d true).ok ||| putB 10 (canc d false).ok
  ||| putB 9 d.uhf.lock ||| putB 8 d.uhf.port ||| put 7 4 d.uhf.aerial
  ||| put 2 0 (if d.uhf.move.isSome then 7 else d.uhf.st.code)

end Sys2Proof.Machine
end

