-- ==== Sys2Proof/Machine/RxdOps.lean ====
section
/-! DEFINITION. The receive chains as every command uses them: coefficient memory, chain states, windows and their
outcomes (R104-R134). -/
namespace Sys2Proof.Machine

/-- Non-zero half-band taps at 0x500-0x528, in units of 2^-17 (R109). -/
def hbTaps : List Int :=
  [-4096, 36864, 65536, 768, -6400, 38400, 65536, 35, -405, 2268, -8820, 39690, 65536] ++
  ((List.replicate 4 [-8, 106, -681, 2859, -9529, 40021, 65536]).flatten)

/-- Descriptors of firmware's default banks and their group delays (R118). -/
def stockDesc (b : Nat) : Word := match b with | 0 => 141 | 1 => 0x10000 + 64 | 2 => 97 | _ => 0x10000 + 48
def stockDelay (b : Nat) : Nat := match b with | 0 => 70 | 1 => 20 | 2 => 48 | _ => 14

/-- Tap `t` of phase `p` of firmware's default resampler bank, Q1.15: the taps of a phase sum to 1.0 (R121). -/
def defaultTaps (p t : Nat) : BitVec 16 :=
  if t = 7 then 0x8000 - ((List.range 7).map (Config.defaultTap p)).sum else Config.defaultTap p t

/-- What an unlisted word of a coefficient memory reads as: 0, or firmware's default banks. -/
def coefDefault (stock : Bool) (a : Nat) : Word :=
  if !stock then 0
  else if a % 256 = 255 ∧ a < 0x400 then stockDesc (a / 256)
  else if a < 0x400 then
    (if a % 256 < (match a / 256 with | 0 => 71 | 1 => 64 | 2 => 49 | _ => 48) then (Config.defaultCoef a).zeroExtend 32 else 0)
  else if a < 0x500 then defaultTaps ((a - 0x400) / 4) (2 * (a % 4) + 1) ++ defaultTaps ((a - 0x400) / 4) (2 * (a % 4))
  else 0

/-- A stored word of a chain's coefficient memory. -/
def coefMem (c : Chain) (a : Nat) : Word := CMap.get (coefDefault c.stock) c.coef a

/-- A word of a chain's coefficient memory (R111). -/
def coefWord (c : Chain) (a : Nat) : Word :=
  if a < 0x500 then coefMem c a
  else if a ≤ 0x528 then put 17 0 ((BitVec.ofInt 18 (nth 0 hbTaps (a - 0x500))).toNat)
  else 0

/-- A channel-filter bank is valid (R110). -/
def bankValid (c : Chain) (b : Nat) : Bool :=
  let w := coefMem c (256 * b + 255)
  let n := fld w 7 0
  n != 0 && (bit w 16 || decide (n % 2 = 1))

/-- Coefficient `i` of a bank, signed Q1.17. -/
def bankCoef (c : Chain) (b i : Nat) : Int := toSigned 18 (fld (coefMem c (256 * b + i)) 17 0)

/-- A quotient rounded up, for a divisor of either sign. -/
def divUp (n m : Int) : Int := if m < 0 then -(n / -m) else -(-n / m)

/-- Group delay of a bank in channel-filter samples (R110); the half sample of a minimum-phase bank of even N whose coefficients
sum to 0 is left out (log entry 97). -/
def bankDelay (c : Chain) (b : Nat) : Int :=
  let w := coefMem c (256 * b + 255)
  let n := fld w 7 0
  let cs := (List.range n).map (bankCoef c b)
  if c.stock && c.coef.all (fun e => decide (e.1 / 256 ≠ b)) then stockDelay b
  else if bit w 16 ∧ cs.sum ≠ 0 then
    divUp (((List.range n).zip cs).foldl (fun (a : Int) p => a + p.1 * p.2) 0) cs.sum
  else (n - 1) / 2

/-- Address of register `o` of a chain's block (R136). -/
def chReg (ch : Bool) (o : Nat) : Nat := 0x3C0 + chOff ch + o

/-- The chain samples or is ready to (R117). -/
def chainUsable (c : Chain) : Bool :=
  match c.st with
  | .idle => true | .sampling => true | _ => false

/-- The chain samples. -/
def chainSampling (c : Chain) : Bool :=
  match c.st with
  | .sampling => true | _ => false

/-- The NCO frequency word for the entry in use (R107): f x 2^32 / 2.88 GHz, to nearest, ties to even. -/
def ncoFreqWord (d : Dev) (ch : Bool) : Word :=
  let f : Int := (d.uhf.freq * 1000 : Nat) + toSigned 21 (fld (chain d ch).runNco 20 0)
  let n := f * 4294967296
  let q := n / 2880000000
  let r := n % 2880000000
  ofInt (if r * 2 > 2880000000 ∨ (r * 2 = 2880000000 ∧ q % 2 = 1) then q + 1 else q)

/-- Phase accumulator of a chain's NCO now: it advances by the frequency word with each of 18 samples a tick (R107). -/
def ncoNow (d : Dev) (ch : Bool) : Word :=
  let c := chain d ch
  c.ncoPhase + c.ncoWord * nw (18 * (d.now - c.ncoAt))

/-- The NCO takes the word of the entry in use; its phase runs on through the change (R107). -/
def ncoTake (ch : Bool) (d : Dev) : Dev :=
  setChain ch { chain d ch with ncoPhase := ncoNow d ch, ncoAt := d.now, ncoWord := ncoFreqWord d ch } d

/-- Residual estimate now (R108): 0 with EN at 0, held outside SAMPLING, with BW at 0 and by FRZ_TE while TE is 1; it learns or
tracks otherwise. -/
def drcNow (d : Dev) (ch : Bool) : Int × Int :=
  let c := chain d ch
  let w := cfg d (chReg ch 0x0B)
  let bw := if c.learnEnd.isSome then 0 else min 8 (fld w 7 4)
  if !bit w 0 then (0, 0)
  else if !chainSampling c || (c.learnEnd.isNone && decide (bw = 0)) || (bit w 1 && c.te && c.learnEnd.isNone) then (c.ri, c.rq)
  else
    let p := Config.drcTrack ch d.now bw c.ri c.rq
    (p.1.toInt, p.2.toInt)

/-- The estimate stands as it is now. -/
def drcLatch (ch : Bool) (d : Dev) : Dev :=
  let p := drcNow d ch
  setChain ch { chain d ch with ri := p.1, rq := p.2 } d

/-- Entry of a chain to SAMPLING (R106, R108, R113, R116, R124, R438). -/
def enterSampling (ch : Bool) (d : Dev) : Dev :=
  let d := calApplyChain ch d
  let c := chain d ch
  let learn := if bit (cfg d (chReg ch 0x0B)) 0 then some (d.now + 40 * fld (cfg d (chReg ch 0x0B)) 15 8) else none
  let d := if c.nextActive.isSome then event (chReg ch 1) 11 d else d
  let d := clearBit (chReg ch 0x12) 15 (clearBit (chReg ch 0x11) 15 (clearBit (chReg ch 0x10) 15 d))
  let d := setChain ch { c with
      st := .sampling, active := c.nextActive.getD c.active, nextActive := none, learnEnd := learn
      runPath := cfg d (chReg ch 8), runNco := cfg d (chReg ch 9), runRsmp := cfg d (chReg ch 0x0A)
      runDec := cfg d (chReg ch 0x0F), cs := false, te := false, ifl := false, entryAt := d.now, marks := []
      ri := if learn.isSome then c.ri else 0, rq := if learn.isSome then c.rq else 0 } d
  ncoTake ch d

/-- A chain enters STOPPED (R108, R114). -/
def chainStopped (ch : Bool) (d : Dev) : Dev :=
  event (chReg ch 1) 0 (setChain ch { chain d ch with
    st := .stopped, stopPend := false, ri := 0, rq := 0, learnEnd := none, cs := false, te := false, ifl := false } d)

/-- A chain leaves SAMPLING (R113, R114). -/
def leaveSampling (ch : Bool) (d : Dev) : Dev :=
  if chainSampling (chain d ch) then
    let d := drcLatch ch d
    let c := chain d ch
    let d := setChain ch { c with st := .idle, learnEnd := none, cs := false, te := false, ifl := false } d
    if c.stopPend then chainStopped ch d else d
  else d

/-- The radio is in RX_CW or RX_LISTEN. -/
def radioReceives (d : Dev) : Bool :=
  d.uhf.move.isNone && decide (d.uhf.st = .rxCw ∨ d.uhf.st = .rxListen)

/-- Ready chains sample when the radio receives, and stop sampling when it does not (R113). -/
def chainsFollow (d : Dev) : Dev :=
  let go := fun (ch : Bool) (d : Dev) =>
    match radioReceives d, (chain d ch).st with
    | true, .idle => if domOn d (if ch then 10 else 9) then enterSampling ch d else d
    | false, .sampling => leaveSampling ch d
    | _, _ => d
  go true (go false d)

/-- RUN = 1 on a STOPPED chain, which follows when the tick is over (R113), unless it is fenced (R451); on a chain with a stop
pending it withdraws the stop (R114). -/
def chainRun (ch : Bool) (d : Dev) : Dev :=
  let c := chain d ch
  match c.st with
  | .stopped => if fenced d (if ch then 0x0D else 0x0C) then clearBit (chReg ch 3) 0 d else setChain ch { c with runAt := some d.now } d
  | .sampling => setChain ch { c with stopPend := false } d
  | _ => d

/-- A chain told to run leaves STOPPED one tick later when its selected bank is valid, so that a coefficient written at the tick
of RUN = 1 is applied before (R113). -/
def chainReady (ch : Bool) (d : Dev) : Dev :=
  let c := chain d ch
  match c.runAt, c.st with
  | some a, .stopped =>
    let d := setChain ch { c with runAt := none } { d with now := max d.now (a + 1) }
    if bankValid c (fld (cfg d (chReg ch 8)) 9 8) then chainsFollow (setChain ch { chain d ch with st := .idle } d)
    else event (chReg ch 1) 10 d
  | _, _ => d

/-- RUN = 0 stops a chain: at once from IDLE, pending while it samples (R113, R114). -/
def chainStop (ch : Bool) (d : Dev) : Dev :=
  let c := chain d ch
  match c.st with
  | .idle => chainStopped ch d
  | .sampling => setChain ch { c with stopPend := true } d
  | _ => setChain ch { c with runAt := none } d

/-! Windows (R90, R114, R127, R128, R152) -/

/-- The chain samples and its present sample carries the unsettled mark of R90; the blanked mark of R94. -/
def sampleUnset (d : Dev) (ch : Bool) : Bool := chainSampling (chain d ch) && decide ((canc d ch).st = .acq)
def sampleBlanked (d : Dev) (ch : Bool) : Bool := chainSampling (chain d ch) && pathBlanked d (if ch then 1 else 0)

/-- Outcome of a window that closes (R127). -/
def windowOutcome (d : Dev) (w : Window) (decided : Bool) : Nat :=
  if w.dead then 8
  else if w.sep && d.pair.sepRec then 2
  else if w.sep && decide (2 ≤ d.pair.nEst) && (decided || !w.unset) then 3
  else if decided then 1
  else if w.unset then 4
  else if w.synced && w.erased then 5
  else if w.teRose && !w.synced then 6
  else 7

/-- This chain's frame was taken (R131). -/
def chainTaken (d : Dev) (ch : Bool) (w : Window) : Bool := if w.pair then decide (d.pair.taken = ch) else true

/-- The separator runs on a window (R132). -/
def sepRuns (d : Dev) (w : Window) : Bool := w.sep && sepEnabled d

/-- `RXD_SEP_RES`: N_EST reads 0 while SEP is out of service (R451). -/
def sepResWord (d : Dev) : Word :=
  if outOfService d 0x0E then reg d Reg.RXD_SEP_RES &&& ~~~ 3 else reg d Reg.RXD_SEP_RES

/-- A window of the separator that closes without frame sync reports N_EST 0 and ENERGY (R133). -/
def sepNoSync (w : Window) (d : Dev) : Dev :=
  if sepRuns d w && !w.dead && !d.pair.sync && !d.pair.sepDone then setReg Reg.RXD_SEP_RES (putB 7 d.pair.te) d else d

/-- Closes a chain's window, `stopped` by a halt, cancel, suspend or fault of its thread (R144) or otherwise: its result, the
flags of R155, the run of saturated windows of R453, and a pending stop, which no window opened after it serves (R114). -/
def closeWindow (ch stopped : Bool) (d : Dev) : Dev :=
  let c := chain d ch
  match c.win with
  | none => d
  | some w =>
    let out := if stopped then 8 else windowOutcome d w c.decValid
    let word := put 31 24 w.snr ||| putB 19 w.blanked ||| putB 18 w.unset ||| putB 17 w.sat
      ||| putB 16 (chainTaken d ch w) ||| put 15 4 w.bits.length ||| put 3 0 out
    let d := sepNoSync w (setReg (chReg ch 0x14) word d)
    let runs := if w.satAll = some true ∧ w.teRose = false ∧ c.te = false then c.satRuns + 1 else 0
    let d := setChain ch { c with win := none, sync := false, satRuns := runs } d
    let d := if chainTaken d ch w then
        { d with seq := { d.seq with winOk := decide (out = 1 ∨ out = 2), blanked := w.blanked, lastChain := ch } } else d
    if (chain d ch).stopPend && !w.dead then chainStopped ch d else d

/-- Closes the windows that thread `th` opened. -/
def closeThreadWindows (th : Nat) (stopped : Bool) (d : Dev) : Dev :=
  let go := fun (ch : Bool) (d : Dev) =>
    match (chain d ch).win with
    | none => d
    | some w => if w.thr = th then closeWindow ch stopped d else d
  go true (go false d)

/-- Closes every UHF window. -/
def closeAllWindows (stopped : Bool) (d : Dev) : Dev := closeWindow true stopped (closeWindow false stopped d)

/-- An exchange of thread U is cut off: its windows close, the radio falls back under R78, the request of its path falls. -/
def carrierCut (d : Dev) : Dev :=
  chainsFollow (coexDrop false false (fallBack (closeAllWindows false { d with uhf := { d.uhf with exchange := false } })))

/-- A window that opens on the chain takes no sample: the chain is OFF or STOPPED, or has a stop pending (R114). -/
def chainDead (d : Dev) (ch : Bool) : Bool :=
  !chainUsable (chain d ch) || (chain d ch).stopPend || !domOn d (if ch then 10 else 9)

/-- Opens a window on a chain, with the chain that is taken until R131 decides; on a chain that is OFF, STOPPED or stopping it
closes at once and marks no sample (R114, R155). While it is open the other fields of `RXD_x_RESULT` read 0 with OUTCOME, which
the manual leaves open (log entry 89). -/
def openWindow (ch : Bool) (th : Nat) (desc : Word) (div sep pair taken : Bool) (d : Dev) : Dev :=
  let d := closeWindow ch false d
  let c := chain d ch
  let dead := chainDead d ch
  let w : Window := { thr := th, desc := desc, div := div, sep := sep, pair := pair, dead := dead
                      blanked := !dead && sampleBlanked d ch, unset := !dead && sampleUnset d ch, sat := false, satAll := none
                      teRose := false, synced := false, erased := false, snr := 0, bits := [] }
  let d := setReg (chReg ch 0x14) 0 (setChain ch { c with win := some w, decValid := false, crcOk := false, sync := false } d)
  let d := { d with
    pair := { d.pair with divB := false, divDone := false, sepDone := false, sepMulti := false, sepRec := false, nEst := 0, te := false, sync := false, taken := taken }
    seq := { d.seq with rnReady := false, winOk := false, blanked := false, handleOk := false, tagErr := false } }
  if dead then closeWindow ch true d else d

/-- Opens the window of an RXOPEN: on one chain, or one window on both, of which chain A is taken until R131 decides unless it
takes no sample (log entry 90). A paired window that is open closes whole before another opens on either chain (R152). -/
def openWindows (ch pair : Bool) (th : Nat) (desc : Word) (div sep : Bool) (d : Dev) : Dev :=
  let d := if [false, true].any (fun c => (chain d c).win.any Window.pair) then closeAllWindows false d else d
  let div := div && !outOfService d 0x0E
  if pair then
    let t := chainDead d false
    openWindow true th desc div sep true t (openWindow false th desc div sep true t d)
  else openWindow ch th desc div sep false ch d

/-- A change to a window in place. -/
def updWindow (ch : Bool) (f : Window → Window) (d : Dev) : Dev :=
  setChain ch { chain d ch with win := (chain d ch).win.map f } d

/-- Windows open on chains whose canceller searches carry the unsettled mark (R90); on blanked chains the blanked mark. -/
def markWindows (d : Dev) : Dev :=
  let go := fun (ch : Bool) (d : Dev) =>
    updWindow ch (fun w => if w.dead then w
      else { w with unset := w.unset || sampleUnset d ch, blanked := w.blanked || sampleBlanked d ch }) d
  go true (go false d)

/-- Cancellers of blanked chains pause, those of free chains resume, and open windows carry their marks (R85, R90, R95). -/
def blankFollow (d : Dev) : Dev :=
  let go := fun (ch : Bool) (d : Dev) =>
    if pathBlanked d (if ch then 1 else 0) then cancPause ch d else cancResume ch d
  let d := markWindows (go true (go false d))
  { d with hf := { d.hf with win := d.hf.win.map fun w => { w with blanked := w.blanked || pathBlanked d 2 } } }

/-- A blanking input (false BLANK_0, true BLANK_1), and its replacement. -/
def blankIn (d : Dev) (w : Bool) : BlankIn := if w then d.uhf.blank1 else d.uhf.blank0
def setBlank (w : Bool) (b : BlankIn) (d : Dev) : Dev :=
  if w then { d with uhf := { d.uhf with blank1 := b } } else { d with uhf := { d.uhf with blank0 := b } }

/-- The extension of an input that becomes inactive starts (R94). -/
def blankExtend (w : Bool) (d : Dev) : Dev :=
  let c := cfg d Reg.UHF_BLANK_CFG
  setBlank w { blankIn d w with extEnd := d.now + (if w then fld c 31 24 else fld c 23 16) } d

/-! Status words -/

/-- The code of a chain state (R113). -/
def ChainSt.code : ChainSt → Nat
  | .off => 0 | .stopped => 1 | .idle => 2 | .sampling => 3

/-- `RXD_x_STATUS` (R137). -/
def rxdStatusWord (d : Dev) (ch : Bool) : Word :=
  let c := chain d ch
  putB 10 c.stopPend ||| putB 9 c.ifl ||| putB 8 c.te ||| putB 7 c.cs ||| putB 6 (sampleBlanked d ch)
  ||| putB 5 (sampleUnset d ch) ||| putB 4 c.sync ||| put 1 0 c.st.code

/-- `RXD_x_DRC_VEC` (R140): the upper 16 of the 18 bits of r. -/
def drcVecWord (d : Dev) (ch : Bool) : Word :=
  put 31 16 ((BitVec.ofInt 16 ((drcNow d ch).2 / 4)).toNat) ||| put 15 0 ((BitVec.ofInt 16 ((drcNow d ch).1 / 4)).toNat)

/-! The tick (R113, R122) -/

/-- The samples from the present tick up to tick `t` carry the marks of the present one. -/
def markSpan (t : Nat) (ch : Bool) (d : Dev) : Dev :=
  if sampleUnset d ch || sampleBlanked d ch then
    let c := chain d ch
    setChain ch { c with marks := match c.marks.getLast? with
      | some (a, e) => if e = d.now then c.marks.dropLast ++ [(a, t)] else c.marks ++ [(d.now, t)]
      | none => [(d.now, t)] } d
  else d

/-- What the chains do between the present tick and a later one: chains told to run get ready, marks travel. -/
def chainsTick (t : Nat) (d : Dev) : Dev :=
  if d.now < t then
    let d := markSpan t true (markSpan t false d)
    chainReady true (chainReady false d)
  else d

end Sys2Proof.Machine
end

