-- ==== Sys2Proof/Machine/HfOps.lean ====
section
/-! DEFINITION. The HF side as every command uses it: field, windows and their outcomes, card sessions, ping distance
(R245-R271). -/
namespace Sys2Proof.Machine

/-- Level of the field or a ping by its code, in 0.5 dBm: 10 + 0.5 x code dBm, codes above 46 as 46 (R245). -/
def hfLevel (code : Nat) : Nat := 20 + min 46 code

/-- A card session ends: ISO4 state falls (R248). -/
def cardSessionEnd (d : Dev) : Dev :=
  setReg Reg.HF_ISO4_STAT 0 { d with hf := { d.hf with cardActive := false } }

/-- The block protocol ends: S(DESELECT) (R266). -/
def acDeselect (d : Dev) : Dev := cardSessionEnd d

/-- The field goes off: every card's session ends (R247, R248), and the HF driver's coexistence request falls, under SPAN 1 at
the end of the window (R93). -/
def hfFieldOff (d : Dev) : Dev :=
  if d.hf.field ≠ 0 then
    let d := cardSessionEnd { d with hf := { d.hf with field := 0, lim := false, overrun := none, txBusy := false } }
    if inSlot d 3 then coexDrop true false d else setCoexReq true ⟨false, false, 0⟩ d
  else { d with hf := { d.hf with overrun := none } }

/-- The field comes on at the set level taken now, up within 5 us of the check (R245, R247). -/
def hfFieldOn (d : Dev) : Dev :=
  let check := if bit (cfg d Reg.HF_CFG) 4 then 320 else 0
  let l := hfLevel (fld (cfg d Reg.HF_DRV) 5 0)
  { d with hf := { d.hf with field := 1, level := l, power := l, upAt := d.now + check + 800 } }

/-- Outcome of an HF window that closes (R256). -/
def hfOutcome (w : HfWin) (stopped : Bool) : Nat :=
  if stopped then 8
  else if w.coll then 2
  else if w.decided && w.good then 1
  else if w.decided then 3
  else if w.sof && w.erased then 4
  else if w.energy && !w.sof then 5
  else 6

/-- `HF_RESULT` of a window (R274). -/
def hfResultWord (w : HfWin) (page stopped : Bool) : Word :=
  put 31 20 w.cpos ||| putB 19 w.blanked ||| putB 18 w.sat ||| putB 17 w.parBad ||| putB 16 page ||| put 15 4 w.nbits
  ||| put 3 0 (hfOutcome w stopped)

/-- Closes the HF window (R254, R256). -/
def hfCloseWin (stopped : Bool) (d : Dev) : Dev :=
  match d.hf.win with
  | none => d
  | some w => setReg Reg.HF_RESULT (hfResultWord w d.hf.page stopped)
      { d with hf := { d.hf with win := none, txEndAt := none } }

/-! Check codes and parity (R250). Bits stand in the order of the protocol, in which the CRC-16 of every protocol has the polynomial
x^16 + x^12 + x^5 + 1 with the first bit sent as the most significant. -/

/-- Preset of a protocol's CRC-16, as it stands before the first bit sent: Type A's 0x6363 is written for bytes sent least significant
bit first. -/
def hfPreset (p : Nat) : Nat := match p with | 0 => natOfBits (bitsOf 16 0x6363).reverse | 5 => 0 | _ => 0xFFFF

/-- CRC-16 of a frame of a protocol, inverted for Type B and ISO/IEC 15693 (R250). -/
def hfCrc (p : Nat) (bs : List Bool) : Nat := crc16 (hfPreset p) bs ^^^ (if p = 2 ∨ p = 3 then 0xFFFF else 0)

/-- Bits that end in the CRC-16 of their protocol. -/
def hfCrcGood (p : Nat) (bs : List Bool) : Bool :=
  decide (16 ≤ bs.length) && decide (hfCrc p (bs.take (bs.length - 16)) = natOfBits (bs.drop (bs.length - 16)))

/-- Odd parity of a byte. -/
def oddParity (bs : List Bool) : Bool := decide (bs.count true % 2 = 0)

/-- A parity bit after each whole byte; `fuel` bounds the bytes. -/
def withParity : Nat → List Bool → List Bool
  | 0, bs => bs
  | fuel + 1, bs => if bs.length < 8 then bs else bs.take 8 ++ oddParity (bs.take 8) :: withParity fuel (bs.drop 8)

/-- Data bits of a reply whose whole bytes carry parity, and whether a parity bit is wrong. -/
def dropParity : Nat → List Bool → List Bool × Bool
  | 0, bs => (bs, false)
  | fuel + 1, bs =>
    if bs.length < 9 then (bs, false)
    else
      let (rest, bad) := dropParity fuel (bs.drop 9)
      (bs.take 8 ++ rest, bad || oddParity (bs.take 8) != nth false bs 8)

/-- Data bits of a Type A reply to a frame that ended in `split` bits of a byte: its first bits complete that byte, whose parity bit is
not checked (log entry 110). -/
def hfData (split : Nat) (bs : List Bool) : List Bool × Bool :=
  if split = 0 then dropParity 512 bs
  else
    let (rest, bad) := dropParity 512 (bs.drop (9 - split))
    (bs.take (8 - split) ++ rest, bad)

/-- Microsecond-exact ticks of a descriptor's TMO: 10 us or 10 ms units; 0 sets none (R254, R275). -/
def hfTmoTicks (desc : Word) : Option Nat :=
  let n := fld desc 22 12
  if n = 0 then none else some (n * (if bit desc 23 then 1600000 else 1600))

/-- 302.06 us x 2^n in fine ticks (R264, R265). -/
def fwiTicks (n : Nat) : Nat := 30206 * 2 ^ n * 160 / 100

/-- FWT in fine ticks (R265): an FWI of 15 acts as 4. -/
def fwtTicks (d : Dev) : Nat := fwiTicks (let i := fld (reg d Reg.HF_ISO4_STAT) 31 28; if i = 15 then 4 else i)

/-- Opens an HF window with the other receive page (R253-R255). -/
def hfOpenWin (desc : Word) (d : Dev) : Dev :=
  let d := hfCloseWin false d
  let base := d.hf.txEndAt.getD d.now
  let tmo := if d.hf.field = 1 then (hfTmoTicks desc).map (base + ·) else none
  let w : HfWin := { desc := desc, tmo := tmo, sof := false, energy := false, coll := false, cpos := 0, decided := false
                     good := false, erased := false, parBad := false, blanked := pathBlanked d 2, sat := false, nbits := 0, shut := false }
  setReg Reg.HF_RESULT (putB 16 (!d.hf.page))
    { d with hf := { d.hf with win := some w, page := !d.hf.page, decValid := false, crcOk := false, coll := false } }

/-- `HF_STATUS` (R274). -/
def hfStatusWord (d : Dev) : Word :=
  putB 9 d.hf.ext ||| putB 8 d.hf.lim ||| putB 7 d.hf.det ||| putB 6 d.hf.win.isSome
  ||| put 5 4 (if d.hf.field = 0 ∧ d.now < d.hf.pingOff ∧ d.hf.pingOff ≤ d.now + us 6 then 2 else d.hf.field)
  ||| put 3 0 d.hf.proto

/-- Building slot of a record, 0x7F while there is no phase (R263). -/
def recordSlot (d : Dev) : Nat := if tbValid d then buildingSlot d (phaseAt d d.now / 1024) else 0x7F

/-! Ping distance (R269) -/

/-- cos(2 pi n / 4096) x 2^50 for n up to a quarter turn, by its series. -/
def cosQuarter (n : Nat) : Int :=
  let th : Int := 7074237752028440 * n / 4096   -- 2 pi x 2^50 n / 4096
  let sq := th * th / 2 ^ 50
  let rec go : Nat → Nat → Int → Int → Int
    | 0, _, _, acc => acc
    | fuel + 1, k, term, acc =>
      let term := - (term * sq / 2 ^ 50) / ((2 * k - 1) * (2 * k) : Nat)
      go fuel (k + 1) term (acc + term)
  go 12 1 (2 ^ 50) (2 ^ 50)

/-- cos(2 pi n / 4096) x 2^50. -/
def cosTurn (n : Nat) : Int :=
  let n := n % 4096
  let n := if 2048 < n then 4096 - n else n
  if 1024 < n then - cosQuarter (2048 - n) else cosQuarter n

/-- |I - B|^2 x 2^50 of two vectors given by amplitude and phase code. -/
def pingDist2 (a p a0 p0 : Nat) : Int :=
  ((a * a + a0 * a0 : Nat) : Int) * 2 ^ 50 - 2 * (a * a0 : Nat) * cosTurn (4096 + p - p0)

/-- D = round(1024 |I - B| / |B|), saturating at 255 (R269); with no baseline, a free value. -/
def pingD (a p : Nat) (base : Word) : Nat :=
  let a0 := fld base 11 0
  if !bit base 31 || a0 == 0 then (Config.pingNoBase a p).toNat
  else
    let x := pingDist2 a p a0 (fld base 23 12)
    ((List.range 255).filter fun k => decide (((2 * k + 1) * (2 * k + 1) * a0 * a0 * 2 ^ 50 : Nat) ≤ 4 * 1048576 * x)).length

/-- THR - HYST; a HYST at or above THR acts as THR - 1 (R269, R275). -/
def lpcdLow (d : Dev) : Nat :=
  let w := reg d Reg.HF_LPCD_THR
  if fld w 15 8 ≤ fld w 7 0 then 1 else fld w 15 8 - fld w 7 0

end Sys2Proof.Machine
end

