-- ==== Sys2Proof/Machine/SeqOps.lean ====
section
/-! DEFINITION. The twill sequencer as every command uses it: steps, waits, conditions, gates, branches, abort points,
faults and turns (R142-R171). -/
namespace Sys2Proof.Machine

/-! Fields of a step (R146) -/

def stepAct (w : DWord) : Nat := fld w 63 58
def stepAp (w : DWord) : Bool := bit w 57
def stepTsafe (w : DWord) : Bool := bit w 56
def stepWk (w : DWord) : Nat := fld w 55 53
def stepWcond (w : DWord) : Nat := fld w 50 45
def stepBr (w : DWord) : Nat := fld w 36 35
def stepAlt (w : DWord) : Nat := fld w 34 23
def stepTime (w : DWord) : Nat := fld w 22 11
def stepArg (w : DWord) : Nat := fld w 10 0

/-- TIME in fine ticks under TSC (R148). -/
def stepTicksOf (w : DWord) : Nat := stepTime w * 16 ^ fld w 52 51

/-- A step of the table in force. -/
def tabStep (d : Dev) (i : Nat) : DWord := CMap.get tabDefault (activeSet d).tab i

/-! Conditions (R154, R155) -/

/-- The chain whose frame was taken (R131). -/
def takenChain (d : Dev) : Chain := chain d d.pair.taken

/-- COEX condition of an enable bit (R155). -/
def coexCond (d : Dev) (b : Nat) : Bool := gntOn d || !bit (cfg d Reg.UHF_COEX_CFG) b

/-- The suspend or cancel request of a thread. -/
def abortPending (t : Thread) : Bool :=
  match t.abort with
  | .none => false
  | _ => true

/-- Condition `c` as thread `th` sees it (R154). -/
def condition (d : Dev) (th c : Nat) : Bool :=
  match c with
  | 0x00 => true
  | 0x01 => (thr d th).timeout
  | 0x02 => (thr d th).late
  | 0x03 => (thr d th).refused
  | 0x04 => abortPending (thr d th)
  | 0x05 => !cutOk d th d.now
  | 0x06 => inSlot d th
  | 0x10 => d.uhf.lock
  | 0x11 => d.seq.txEnd
  | 0x12 => (canc d false).ok
  | 0x13 => (canc d true).ok
  | 0x14 => coexCond d 0
  | 0x15 => coexCond d 1
  | 0x16 => d.uhf.reflA
  | 0x17 => d.uhf.reflB
  | 0x18 => d.uhf.paLim
  | 0x19 => d.uhf.dwell
  | 0x1A => d.chA.sync
  | 0x1B => d.chB.sync
  | 0x1C => d.chA.decValid
  | 0x1D => d.chB.decValid
  | 0x1E => d.chA.crcOk
  | 0x1F => d.chB.crcOk
  | 0x20 => d.chA.cs
  | 0x21 => d.chB.cs
  | 0x22 => d.chA.te
  | 0x23 => d.chB.te
  | 0x24 => d.chA.ifl
  | 0x25 => d.chB.ifl
  | 0x26 => d.pair.divB
  | 0x27 => d.pair.sepDone
  | 0x28 => d.pair.sepMulti
  | 0x29 => d.pair.sepRec
  | 0x2A => (takenChain d).decValid
  | 0x2B => (takenChain d).crcOk
  | 0x2C => d.seq.rnReady
  | 0x2D => d.seq.winOk
  | 0x2E => d.seq.blanked
  | 0x2F => d.seq.handleOk
  | 0x30 => d.seq.tagErr
  | 0x31 => d.hf.txEnd
  | 0x32 => d.hf.decValid
  | 0x33 => d.hf.crcOk
  | 0x34 => d.hf.coll
  | 0x35 => d.hf.det
  | 0x36 => coexCond d 2
  | c => if 8 ≤ c ∧ c ≤ 15 then d.seq.sw.getLsbD (c - 8) else false

/-- Conditions 0-31 (`h` false) or 32-63 as a word for a thread (R169, R387). -/
def condWord (d : Dev) (th : Nat) (h : Bool) : Word :=
  nw (natOfBits ((List.range 32).map fun i => condition d th ((if h then 32 else 0) + 31 - i)))

/-! The sample of the conditions (R149) -/

/-- Every condition as each of the four threads sees it, one number a thread. -/
def condsAll (d : Dev) : List Nat := (List.range 4).map fun n => (condWord d n false).toNat + 2 ^ 32 * (condWord d n true).toNat

/-- The row of a command falls at fine tick `t` (R16): time never runs back. In a new tick the conditions sampled at the tick
before are at hand for the flag waits (R149), and no thread has acted yet (R157). -/
def tick (t : Nat) (d : Dev) : Dev :=
  let new := decide (d.now < t)
  let next := decide (d.now + 1 = t)
  let d := chainsTick t d
  { d with
    now := max d.now t
    seq := { d.seq with
      prev := if new then (if next then d.seq.cur.getD (condsAll d) else condsAll { d with now := t - 1 }) else d.seq.prev
      cur := if new then none else d.seq.cur
      stage := if new then 0 else d.seq.stage } }

/-- A condition of the thread's own last wait or gated action (R155), which the sample does not hold back. -/
def ownCond (c : Nat) : Bool := c == 1 || c == 2 || c == 3

/-- Condition `c` in the sample of the present tick, and in that of the tick before (R149). -/
def condNow (d : Dev) (n c : Nat) : Bool :=
  if ownCond c then condition d n c else (nth 0 (d.seq.cur.getD (condsAll d)) n).testBit c
def condPrev (d : Dev) (n c : Nat) : Bool :=
  if ownCond c then condition d n c else c == 0 || (nth 0 d.seq.prev n).testBit c

/-- What stands at place `k` in the order of R157 may still act in this tick: nothing that comes after it has acted. -/
def stageOk (d : Dev) (k : Nat) : Bool := decide (d.seq.stage ≤ k)

/-- It acts: the conditions of the tick are sampled, if they are not yet. -/
def stageMark (k : Nat) (d : Dev) : Dev :=
  { d with seq := { d.seq with cur := some (d.seq.cur.getD (condsAll d)), stage := max d.seq.stage k } }

/-! Thread states -/

/-- A change to a thread. -/
def updThr (n : Nat) (f : Thread → Thread) (d : Dev) : Dev := setThr n (f (thr d n)) d

/-- Thread is WAITING or HELD. -/
def thrRuns (t : Thread) : Bool :=
  match t.st with
  | .waiting => true | .held => true | _ => false

/-- Thread is turn-ready (R162). -/
def turnReady (d : Dev) (n : Nat) : Bool :=
  let t := thr d n
  match t.st with
  | .halted => true
  | .suspended => true
  | .fault => true
  | .waiting => !t.toFetch && stepTsafe t.word && decide (t.fetchAt < d.now)
  | .held => false

/-- Windows close, on U the exchange ends under R78, on H the field goes off (R144, R159, R167). -/
def thrStopEffects (n : Nat) (d : Dev) : Dev :=
  let d := closeThreadWindows n true d
  if n = 0 then carrierCut d
  else if n = 3 then hfFieldOff (hfCloseWin true d)
  else d

/-- Thread `n` halts at once (R144, R159); a thread already HALTED is unchanged. -/
def thrHalt (n : Nat) (d : Dev) : Dev :=
  if (thr d n).st = .halted then d
  else
    let d := updThr n (fun t => { t with st := .halted, toFetch := false, gate := none, abort := .none }) d
    event Reg.SEQ_EVENT n (thrStopEffects n (if n = 0 then setAdj 0 d else d))

/-- Thread `n` is parked at its step (R159). -/
def thrSuspend (n : Nat) (d : Dev) : Dev :=
  thrStopEffects n (updThr n (fun t => { t with st := .suspended, toFetch := false, gate := none, abort := .none }) d)

/-- Thread `n` faults with a code and sub-reason (R167, R463). -/
def thrFault (n code sub : Nat) (d : Dev) : Dev :=
  let d := updThr n (fun t => { t with st := .fault, code := code, sub := sub, toFetch := false, gate := none }) d
  event Reg.SEQ_EVENT 4 (thrStopEffects n d)

/-- Starts thread `n` at a step in this tick; counters, stack and anchor are cleared (R144, R149, R156). -/
def thrStart (n entry : Nat) (d : Dev) : Dev :=
  updThr n (fun t => { Thread.reset with st := .waiting, step := entry % 4096, anchor := d.now, fetchAt := d.now, toFetch := true, op := t.op }) d

/-- RESUME returns a SUSPENDED thread to WAITING at its step (R160). -/
def thrResume (n : Nat) (d : Dev) : Dev :=
  if (thr d n).st = .suspended then updThr n (fun t => { t with st := .waiting, toFetch := true, fetchAt := d.now, abort := .none }) d else d

/-! Waits (R147-R149) -/

/-- How a wait ended. -/
structure WaitEnd where
  timeout : Bool
  late : Bool
  deriving DecidableEq, Repr

/-- The wait of thread `n`'s fetched step is over at the present tick (R147, R149): a flag wait ends on the tick after the one at
which its condition was sampled true, and a condition sampled true at the tick of the timeout wins over it. -/
def waitOver (d : Dev) (n : Nat) : Option WaitEnd :=
  let t := thr d n
  let w := t.word
  let after := decide (t.fetchAt < d.now)
  let flag := fun (base : Nat) =>
    if after && (condPrev d n (stepWcond w) != bit w 44) then some ⟨false, false⟩
    else if stepTime w ≠ 0 ∧ base + stepTicksOf w ≤ d.now ∧ after ∧ (condNow d n (stepWcond w) != bit w 44) = false then some ⟨true, false⟩
    else none
  if t.st ≠ .waiting ∨ t.toFetch then none
  else match stepWk w with
  | 0 => if after then some ⟨false, false⟩ else none
  | 1 => if after ∧ t.fetchAt + stepTicksOf w ≤ d.now then some ⟨false, false⟩ else none
  | 2 =>
    if t.anchor + stepTicksOf w ≤ t.fetchAt then (if after then some ⟨false, true⟩ else none)
    else if t.anchor + stepTicksOf w ≤ d.now then some ⟨false, false⟩ else none
  | 3 => flag t.fetchAt
  | 5 => flag t.anchor
  | 4 =>
    let p := phaseAt d d.now
    if inSlot d n ∧ d.tb.slot = some (buildingSlot d (p / 1024)) ∧ t.fetchAt ≤ d.tb.slotTick ∧ min 1023 (stepTime w) ≤ p % 1024
    then some ⟨false, false⟩ else none
  | _ => none

/-! Branches (R156) -/

/-- Thread `n` goes to a step, which it fetches on the next tick (R149). -/
def goTo (n i : Nat) (d : Dev) : Dev :=
  updThr n (fun t => { t with st := .waiting, step := i % 4096, toFetch := true, fetchAt := d.now + 1, gate := none }) d

/-- The next step by BR, after the action passed, was issued or was refused (R156). -/
def branch (n : Nat) (d : Dev) : Dev :=
  let t := thr d n
  match stepBr t.word with
  | 1 => goTo n (stepAlt t.word) d
  | 2 => if condNow d n (fld t.word 43 38) != bit t.word 37 then goTo n (stepAlt t.word) d else goTo n (t.step + 1) d
  | _ => goTo n (t.step + 1) d

/-- The exchange of a thread ends with a status: U's is over and the request of its path falls (R71, R93). -/
def exchangeFails (n : Nat) (d : Dev) : Dev :=
  if n = 0 then coexDrop false false { d with uhf := { d.uhf with exchange := false } }
  else if n = 3 ∧ d.hf.field = 0 then coexDrop true false d
  else d

/-- A gated action is refused: it is void, REFUSED is set, the status shown, its exchange ends and the branch is taken
(R71, R151). -/
def refuse (n status : Nat) (d : Dev) : Dev :=
  branch n (updThr n (fun t => { t with refused := true, code := status }) (exchangeFails n d))

/-! Static faults of a step (R167): the sub-reason of R463 -/

/-- Actions of thread U alone, of A and B, of H. -/
def actThreads (act n : Nat) : Bool :=
  if 0x10 ≤ act ∧ act ≤ 0x14 then n = 0
  else if act = 0x20 ∨ act = 0x21 then n = 1 ∨ n = 2
  else if 0x30 ≤ act ∧ act ≤ 0x34 then n = 3
  else true

/-- Assigned action codes (R150). -/
def actKnown (act : Nat) : Bool :=
  decide (act ≤ 8 ∨ (0x10 ≤ act ∧ act ≤ 0x14) ∨ act = 0x20 ∨ act = 0x21 ∨ (0x30 ≤ act ∧ act ≤ 0x34))

/-- An argument no state of the machine could make good. -/
def argBad (w : DWord) (n : Nat) : Bool :=
  let a := stepArg w
  match stepAct w with
  | 0x08 => decide (a / 512 = 3 ∨ (a / 512 = 2 ∧ a % 32 < 4))
  | 0x10 => decide (a % 8 = 4 ∨ a % 8 = 5 ∨ a % 8 = 7)
  | 0x13 => decide (a / 2 % 4 = 3)
  | 0x20 => decide (n = 2 ∧ (a / 16 % 2 = 1 ∨ a / 64 % 2 = 1))
  | 0x30 => decide (a % 4 = 3)
  | _ => false

/-- Sub-reason of the fault a fetched step raises, if any; HALT, CALL, RET and LOOP ignore BR (R156). -/
def stepFault (w : DWord) (n : Nat) : Option Nat :=
  if !actKnown (stepAct w) then some 1
  else if 6 ≤ stepWk w then some 2
  else if stepBr w = 3 ∧ ¬ (1 ≤ stepAct w ∧ stepAct w ≤ 4) then some 3
  else if !actThreads (stepAct w) n then some 4
  else if argBad w n then some 5
  else none

/-- Return state of R76 and R153: at a HALT of U, or its fetch of a SLOT step, with no UHF window open. -/
def exchangeEnd (d : Dev) : Dev :=
  if d.chA.win.isNone ∧ d.chB.win.isNone then
    chainsFollow (coexDrop false false (returnState { d with uhf := { d.uhf with exchange := false } }))
  else d

/-- Thread `n` fetches its step at the present tick (R149): a single-bit error is corrected and counted, an uncorrectable one
faults the thread (R145). -/
def fetchStep (n : Nat) (ecc : EccRead) (d : Dev) : Dev :=
  let w := tabStep d (thr d n).step
  let d := updThr n (fun t => { t with word := w, fetchAt := d.now, toFetch := false }) d
  let go := fun (d : Dev) => match stepFault w n with
    | some sub => thrFault n 0x38 sub d
    | none => if n = 0 ∧ stepWk w = 4 then exchangeEnd d else d
  match ecc with
  | .bad => thrFault n 0x39 7 d
  | .fixed => go (event Reg.SEQ_EVENT 9 d)
  | .clean => go d

/-! Frames (R174, R175, R251) -/

/-- A word of the frame buffers in force. -/
def fbWord (d : Dev) (i : Nat) : Word := memW (activeSet d).fb i

/-- The operation's handle, and the RN16 of the last taken frame, for INS (R175). -/
def insWord (d : Dev) (ins : Nat) : Option (BitVec 16) := if ins = 1 then d.gen2.rn16 else if ins = 2 then d.acc.handle else none

/-- A software flag set or cleared by firmware. -/
def setSw (n : Nat) (v : Bool) (d : Dev) : Dev :=
  let m : BitVec 8 := BitVec.ofNat 8 (2 ^ n)
  { d with seq := { d.seq with sw := if v then d.seq.sw ||| m else d.seq.sw &&& ~~~ m } }

/-- Bits of a frame buffer in force, sent from bit 31 of its word 1 on (R174), with the 16 bits of INS in place (R175). -/
def fbBits (d : Dev) (b ins : Nat) : List Bool :=
  let h := fbWord d (16 * b)
  let bs := unpackBits (fld h 8 0) ((List.range 15).map fun i => fbWord d (16 * b + 1 + i))
  match insWord d ins with
  | none => bs
  | some v => bs.take (fld h 20 12) ++ bitsOf 16 v.toNat ++ bs.drop (fld h 20 12 + 16)

/-- The bits a TXF sends: those of the buffer and the check code over them (R174, R175). -/
def txFrame (d : Dev) (b ins : Nat) : List Bool :=
  let bs := fbBits d b ins
  match fld (fbWord d (16 * b)) 29 28 with
  | 1 => bs ++ bitsOf 5 (crc5 bs)
  | 2 => bs ++ bitsOf 16 (gen2Crc16 bs)
  | _ => bs

/-- A TXF of a buffer with INS faults its thread (R175). -/
def txfBad (d : Dev) (b ins : Nat) : Bool :=
  let h := fbWord d (16 * b)
  !bit h 31 || fld h 8 0 == 0 || decide (480 < fld h 8 0)
    || (ins != 0 && ((insWord d ins).isNone || decide (fld h 8 0 < fld h 20 12 + 16)))

/-- Header of an HF frame buffer in force. -/
def hfHeader (d : Dev) (b : Nat) : Word := memW (activeSet d).hffb (32 * b)

/-- An HFTX of a buffer faults its thread (R250-R252, R275): nothing to send, words past the memory, a protocol or a rate it does not
have (log entry 111). -/
def hftxBad (d : Dev) (b : Nat) : Bool :=
  let h := hfHeader d b
  let len := fld h 11 0
  let p := fld h 30 27
  !bit h 31 || len == 0 || decide (2080 < len) || decide (2048 < 32 * b + 1 + (len + 31) / 32)
    || decide (p ≠ 0 ∧ p ≠ 2 ∧ p ≠ 3 ∧ p ≠ 5) || decide (p = 3 ∧ 2 ≤ fld h 26 25) || decide (p = 5 ∧ fld h 26 25 ≠ 1 ∧ fld h 26 25 ≠ 2)

/-- The bits an HFTX sends: those of the buffer from bit 31 of its word 1 on, the CRC-16, and Type A parity (R250, R251). -/
def hfFrameBits (d : Dev) (b : Nat) : List Bool :=
  let h := hfHeader d b
  let n := fld h 11 0
  let bs := unpackBits n ((List.range ((n + 31) / 32)).map fun i => memW (activeSet d).hffb (32 * b + 1 + i))
  let bs := if bit h 24 then bs ++ bitsOf 16 (hfCrc (fld h 30 27) bs) else bs
  if bit h 23 ∧ fld h 30 27 = 0 then withParity 512 bs else bs

/-- A step that sends a frame cannot (R167, R175, R251): it faults as it issues, before any gate. -/
def sendBad (d : Dev) (w : DWord) : Bool :=
  let a := stepArg w
  (stepAct w == 0x13 && txfBad d (a / 32 % 64) (a / 2 % 4)) || (stepAct w == 0x31 && hftxBad d (a / 32 % 64))

/-! Gates (R151) -/

/-- The step's action emits RF and so passes the gates. -/
def actGated (d : Dev) (w : DWord) : Bool :=
  match stepAct w with
  | 0x10 => decide (stepArg w % 8 = 3)
  | 0x11 => true
  | 0x12 => carriesRf d && decide (stepArg w % 16 ≠ d.uhf.aerial)
  | 0x13 => true
  | 0x30 => decide (stepArg w % 4 ≠ 0)
  | 0x31 => true
  | _ => false

/-- EXS of a TXF or HFTX (R150). -/
def stepExs (w : DWord) : Bool := (stepAct w == 0x13 || stepAct w == 0x31) && bit w 4

/-- A HOP from RX_LISTEN emits nothing and passes only the lock gate (R151). -/
def listenHop (d : Dev) (w : DWord) : Bool :=
  stepAct w == 0x11 && (if d.uhf.hopEntry.isSome then d.uhf.hopListen else decide (d.uhf.st = .rxListen))

/-- Refusals of R60, R61 and R71 that a step meets once its slot gate is passed. -/
def gateRefusal (d : Dev) (w : DWord) : Option Nat :=
  match stepAct w with
  | 0x11 =>
    if d.uhf.hopEntry.isNone ∧ (if bit w 6 then !entryValid d (stepArg w % 64) else (nextEntry d).isNone) then some 0x24
    else if listenHop d w then none else aerialRefusal d d.uhf.aerial
  | 0x10 => if tuned d ∨ (tuneEntry d).isSome then aerialRefusal d d.uhf.aerial else some 0x24
  | 0x12 => aerialRefusal d (stepArg w % 16)
  | 0x13 => if tuned d ∨ (tuneEntry d).isSome then aerialRefusal d d.uhf.aerial else some 0x24
  | 0x30 => if fenced d 0x0F then some 0x62 else none
  | _ => none

/-- Every thread the exchange uses allows its start now (R35). -/
def exchangeOk (d : Dev) (n : Nat) : Bool :=
  cutOk d n d.now && (match (thr d n).op.bind (findOp d) with
    | none => true
    | some o => (opThreads o).all fun m => cutOk d m d.now)

/-- What is left of an exchange that had its grant goes on without one (R92): every action of it but the TXF or HFTX with EXS
that begins the next. -/
def exchangeGoesOn (d : Dev) (w : DWord) : Bool :=
  (0x10 ≤ stepAct w && stepAct w ≤ 0x13 && !stepExs w && d.uhf.exchange)
    || (stepAct w == 0x31 && !stepExs w && decide (d.hf.field = 1))

/-- The grant is sampled active at or after the planned start (R91, R92). -/
def grantNow (h : Bool) (d : Dev) : Bool := gntCounts d && (coexReq h d).req && decide ((coexReq h d).planned ≤ d.now)

/-- A calibration that owns the synthesiser runs: 1 or 3 (R80). -/
def calOwnsSynth (d : Dev) : Bool := d.cal.run.any fun r => !r.held && decide (r.id = 0 ∨ r.id = 2)

/-- The grant gates the action: by the port of the aerial it names, or of the present one (R91). -/
def coexFor (d : Dev) (n : Nat) (w : DWord) : Bool :=
  if stepAct w = 0x12 then coexGated { d with uhf := { d.uhf with aerial := stepArg w % 16 } } n else coexGated d n

/-- The gate an action stands at, if any: slot, cut-off, lock and grant, or the end of a frame in TX (R75, R151, R152), or
of a ping (R268). -/
def gateAt (d : Dev) (n : Nat) (w : DWord) : Option Gate :=
  let busy := decide (d.uhf.st = .tx) || (d.uhf.move.any fun m => decide (m.target = .tx))
  if n = 0 ∧ !listenHop d w ∧ !inSlot d 0 then some .slot
  else if stepExs w ∧ !exchangeOk d n then some .cut
  else if n = 0 ∧ stepAct w = 0x11 ∧ busy then some .rx
  else if n = 0 ∧ (!d.uhf.lock || (entryLost d && stepAct w != 0x11)) then some .lock
  else if n = 0 ∧ calOwnsSynth d then some .lock
  else if !listenHop d w ∧ coexFor d n w ∧ !exchangeGoesOn d w ∧ !grantNow (n == 3) d then some .lock
  else if stepAct w = 0x30 ∧ d.now < d.hf.pingEnd then some .rx
  else none

/-! Actions -/

/-- Words of the record and log entry of a POST (R158, R351). -/
def postResult (d : Dev) (n : Nat) : Word :=
  if n = 3 then reg d Reg.HF_RESULT else reg d (chReg d.seq.lastChain 0x14)

/-- Aerial a chain receives through (R70): the throw of the port it is set to. -/
def rxAerial (d : Dev) (ch : Bool) : Nat :=
  if bit (cfg d Reg.UHF_PORT_CFG) (if ch then 4 else 2) then 8 + d.uhf.throwB else d.uhf.throwA

/-- An entry of thread U in a round: the oldest slot without one is its slot, which keeps the frame taken last; a refused command
and the round's close have none (R184). -/
def slotPosted (code : Nat) (d : Dev) : Dev :=
  let g := d.gen2
  if g.rstate = 0 then d
  else if code = 5 ∨ code = 0x10 then
    { d with gen2 := { g with sent := g.sent ++ [⟨g.q, 0, [], 0⟩], rstate := if code = 0x10 then 3 else g.rstate } }
  else
    let r := g.slots.headD ⟨g.q, g.fslot, [], 0⟩
    { d with gen2 := { g with slots := g.slots.tail
                              sent := g.sent ++ [{ r with frame := (takenChain d).frame, aerial := rxAerial d d.pair.taken }] } }

/-- Doorbell codes of firmware's own access tables (R205): a unit has ended; a handle is given up at a head; a frame was refused. -/
def bellUnit : Nat := 0x41
def bellDrop : Nat := 0x42
def bellRefused : Nat := 0x43
/-- The doorbell of firmware's HF table: an exchange is over (R260). -/
def bellHf : Nat := 0x48

/-- Cause of a field loss behind the status of a refusal (R224, R353). -/
def refusalCause (status : Nat) : Nat := if status = 0x21 then 2 else if status = 0x20 then 3 else 4

/-- Firmware learns from a doorbell of its access table how the unit has ended, and from one of its HF table that the exchange has. -/
def unitBell (n code : Nat) (d : Dev) : Dev :=
  if n = 0 ∧ d.acc.op.isSome then
    let a := d.acc
    if code = bellUnit then { d with acc := { a with unitEnd := true } }
    else if code = bellDrop then { d with acc := { a with unitEnd := true, dropped := true, lost := true } }
    else if code = bellRefused then
      { d with acc := { a with unitEnd := true, lost := true, cause := if a.lost then a.cause else refusalCause (thr d 0).code } }
    else d
  else if n = 3 ∧ (thr d 3).op.isSome ∧ code = bellHf then { d with hf := { d.hf with ac := { d.hf.ac with unitEnd := true } } }
  else d

/-- POST (R158). -/
def actPost (n : Nat) (d : Dev) : Dev :=
  let t := thr d n
  let a := stepArg t.word
  let ticks := nw (d.now - d.seq.onAt)
  match a / 512 with
  | 0 =>
    if d.seq.log.length < 256 then
      let d := if n = 0 then slotPosted (a % 256) d else d
      { d with seq := { d.seq with log := d.seq.log ++
          [[put 31 30 n ||| put 19 8 t.step ||| put 7 0 a, ticks, postResult d n, sepResWord d]] } }
    else event Reg.SEQ_EVENT 8 (count Reg.SEQ_LOG_STAT 31 16 1 { d with gen2 := { d.gen2 with slots := if n = 0 then d.gen2.slots.tail else d.gen2.slots } })
  | 1 =>
    let d := unitBell n (a % 256) d
    if 0x80 ≤ a % 256 then { d with cpu := { d.cpu with apl := { d.cpu.apl with bells := d.cpu.apl.bells ++ [a % 256] } } }
    else { d with seq := { d.seq with bells := d.seq.bells ++ [(n, a % 256)] } }
  | _ =>
    writeRecord (a % 32) 0x0003
      [put 31 30 n ||| put 11 0 t.step, ticks, stampL d, postResult d n, sepResWord d] d

/-- ANCHOR (R150): a source that has no instant yet leaves the anchor. -/
def anchorOf (d : Dev) (n src : Nat) : Nat :=
  let now := d.now
  let cur := (thr d n).anchor
  match src with
  | 0 => now
  | 1 => d.seq.txEndAt.getD cur
  | 2 => (if n = 3 then d.seq.hfFrameEnd else d.seq.takenEnd).getD cur
  | _ => if tbValid d then (if d.tb.slot = some (buildingSlot d (phaseAt d now / 1024)) then d.tb.slotTick
      else now - phaseAt d now % 1024 * d.tb.period / (puCycle * 256)) else cur

/-- The state a RADIO argument names (R150). -/
def radioOf : Nat → Radio
  | 0 => .sleep | 1 => .standby | 2 => .synthOn | 3 => .cwHold | _ => .rxListen

/-- RADIO (R150, R152): windows close and the radio moves. -/
def actRadio (n : Nat) (d : Dev) : Dev :=
  let target := radioOf (stepArg (thr d n).word % 8)
  let d := closeAllWindows false d
  if target = .rxListen ∧ d.uhf.carrier then chainsFollow (startMove .rxListen (carrierOff d)) else chainsFollow (startMove target d)

/-- The entry a HOP asks for: the named one, or the next (R60). -/
def hopWanted (d : Dev) (w : DWord) : Nat := if bit w 6 then stepArg w % 64 else (nextEntry d).getD 0

/-- HOP (R60, R75): windows close as the radio leaves RX_CW; the hop starts, or goes on where it was held tuned. -/
def actHop (n arrived : Nat) (d : Dev) : Dev :=
  match d.uhf.hopEntry with
  | some e => chainsFollow (finishHop e d)
  | none => chainsFollow (startHop (hopWanted d (thr d n).word) arrived (closeAllWindows false d))

/-- A request pends on every running thread of an operation from this tick on (R159, R161). -/
def askThreads (tag : Nat) (req : PendReq) (d : Dev) : Dev :=
  (List.range 4).foldl (fun d n => if (thr d n).op = some tag ∧ thrRuns (thr d n)
    then updThr n (fun t => { t with abort := req, abortAt := d.now }) d else d) d

/-- A running operation is to end FAILED with a status at its next abort point (R61, R460). -/
def opFailAt (o : Op) (status : Nat) (d : Dev) : Dev :=
  askThreads o.tag .cancel (updOp o.tag (fun o => { o with failAs := some status, pend := .cancel }) d)

/-- Refused hop with no valid entry (R61): the carrier ramps down, the radio rests in SYNTH_ON, and running operations
that need RF are to end NO_CHANNEL. -/
def hopNoChannel (w : DWord) (d : Dev) : Dev :=
  if stepAct w = 0x11 ∧ !bit w 6 then
    let d := event Reg.UHF_EVENT 9 { d with uhf := { d.uhf with exchange := false } }
    let d := if d.uhf.carrier then chainsFollow (startMove .synthOn (closeAllWindows false d)) else d
    (d.ops.filter fun o => decide (o.st = .running ∧ o.failAs = none) && (opThreads o).contains 0).foldl
      (fun d o => opFailAt o 0x24 d) d
  else d

/-- AERIAL (R72): with RF on the port the carrier ramps down first, the new throw follows, the switch settles and the carrier ramps
up again; without RF the bus changes at once, and a ramp-up still to come waits for the switch. -/
def actAerial (n : Nat) (d : Dev) : Dev :=
  let a := stepArg (thr d n).word % 16
  if a = d.uhf.aerial ∧ carriesRf d then d
  else if d.uhf.carrier ∨ (carriesRf d ∧ d.uhf.move.any Move.ramp) then
    let d := carrierOff (closeAllWindows false d)
    let d := driveAerial a d.uhf.rfEnd d
    chainsFollow (takeCarrier { d with uhf := { d.uhf with move := some (rampTo .cwHold (settleEnd d) 1280 none) } })
  else
    let d := driveAerial a (max d.now d.uhf.rfEnd) d
    { d with uhf := { d.uhf with move := d.uhf.move.map fun m =>
        if m.ramp && !m.waitLock then { m with takeAt := max m.takeAt (settleEnd d), done := m.done + (max m.takeAt (settleEnd d) - m.takeAt) } else m } }

/-- A frame of an inventory round goes out (R173, R187, R189, R190, R198): a Query begins the round with the link and separator
setting in force, a QueryAdjust begins a frame, a QueryRep the next slot; an adjustment up or down sets Q_CHG. -/
def gen2Sent (b : Nat) (d : Dev) : Dev :=
  let g := d.gen2
  let slot := fun (q f : Nat) (g : Gen2) => ({ g with q := q, fslot := f, slots := g.slots ++ [⟨q, f, [], 0⟩] } : Gen2)
  if g.rstate = 0 ∨ 5 < b ∨ b = 1 then d
  else if b = 0 then
    { d with gen2 := slot g.qnext 0 { g with
        rstate := 2, session := fld (cfg d Reg.GEN2_QUERY) 5 4, target := g.tgtNext, link := cfg d Reg.GEN2_LINK
        sepOn := bit (cfg d Reg.RXD_SEP_CFG) 0, remain := false, stale := false, slots := [] } }
  else if b = 2 then { d with gen2 := slot g.q (min 0x3FFF (g.fslot + 1)) g }
  else
    let q := if b = 3 then min 15 (g.q + 1) else if b = 4 then g.q - 1 else g.q
    let d := { d with gen2 := slot q 0 { g with remain := false } }
    if b = 5 then d else event Reg.GEN2_EVENT 0 d

/-- TXF (R174, R175, R155): windows close, TX_END falls, the frame is built and the radio goes to TX. -/
def actTxf (n : Nat) (d : Dev) : Dev :=
  let w := (thr d n).word
  let b := stepArg w / 32 % 64
  let h := fbWord d (16 * b)
  let bits := txFrame d b (stepArg w / 2 % 4)
  let d := gen2Sent b (closeAllWindows false d)
  startMove .tx { d with
    seq := { d.seq with txEnd := false }
    uhf := { d.uhf with exchange := d.uhf.exchange || stepExs w, lastBuf := b, lastDesc := fld h 27 24, txPre := bit h 30, txBits := bits } }

/-- Reply descriptor `i` of the set in force; 15 takes that of the last frame sent (R152, R177). -/
def replyDesc (d : Dev) (i : Nat) : Option Word :=
  let i := if i = 15 then d.uhf.lastDesc else i
  if i = 15 then none else some (cfg d (Reg.GEN2_RDESC_0 + i))

/-- RXOPEN (R152): the radio moves to receive and the windows open; with no reply described it passes as a NOP (R177). -/
def actRxopen (n : Nat) (d : Dev) : Dev :=
  let a := stepArg (thr d n).word
  match replyDesc d (a % 16) with
  | none => d
  | some desc =>
    let base := match d.uhf.move with
      | some m => m.target
      | none => d.uhf.st
    let d := if base = .cwHold then startMove .rxCw d else if base = .synthOn then startMove .rxListen d else d
    openWindows (decide (n = 2)) (bit (thr d n).word 6) n desc (bit (thr d n).word 4) (bit (thr d n).word 5) d

/-- An RXOPEN in SLEEP or STANDBY is refused; one in TX, or on a borrowed chain, is held (R152). -/
def rxopenRefused (d : Dev) : Bool := d.uhf.move.isNone && decide (d.uhf.st = .sleep ∨ d.uhf.st = .standby)
def rxopenHeld (d : Dev) (n : Nat) : Bool :=
  decide (d.uhf.st = .tx) || (match d.uhf.move with | some m => decide (m.target = .tx) | none => false)
    || (decide (n = 2) && d.chB.win.any (fun w => w.pair))

/-- HFTX (R251): the HF window closes and the frame goes out. -/
def actHftx (n : Nat) (d : Dev) : Dev :=
  let b := stepArg (thr d n).word / 32 % 64
  let h := hfHeader d b
  let len := fld h 11 0
  let d := hfCloseWin false d
  { d with hf := { d.hf with
    txBusy := true, txEnd := false, proto := fld h 30 27, lastDesc := fld h 22 19, txBits := hfFrameBits d b
    split := if bit h 23 ∧ fld h 30 27 = 0 ∧ 8 ≤ len then len % 8 else 0 } }

/-- HFRX (R253, R254); descriptor 15 takes that of the last HF frame sent, and 15 there opens nothing. -/
def actHfrx (n : Nat) (d : Dev) : Dev :=
  let i := stepArg (thr d n).word % 16
  let i := if i = 15 then d.hf.lastDesc else i
  if i = 15 then d else hfOpenWin (cfg d (Reg.HF_RDESC_0 + i)) (calApply 3 0 2 d)

/-- CALL and RET (R156): the stack is four deep. -/
def actCall (n : Nat) (d : Dev) : Dev :=
  let t := thr d n
  if 4 ≤ t.stack.length then thrFault n 0x38 6 d
  else goTo n (stepAlt t.word) (updThr n (fun t => { t with stack := (t.step + 1) % 4096 :: t.stack }) d)
def actRet (n : Nat) (d : Dev) : Dev :=
  match (thr d n).stack with
  | [] => thrFault n 0x38 6 d
  | i :: rest => goTo n i (updThr n (fun t => { t with stack := rest }) d)

/-- LOOP (R150). -/
def actLoop (n : Nat) (d : Dev) : Dev :=
  let t := thr d n
  let i := stepArg t.word % 4
  let v := nth 0 t.lc i
  let d := updThr n (fun t => { t with lc := upd 0 t.lc i (v - 1) }) d
  if 1 < v then goTo n (stepAlt t.word) d else goTo n (t.step + 1) d

/-- HALT (R150, R152, R153): the thread's windows close, an HF window with outcome STOPPED (R256). -/
def actHalt (n : Nat) (d : Dev) : Dev :=
  let code := stepArg (thr d n).word % 256
  let d := closeThreadWindows n false (if n = 3 then hfCloseWin true d else d)
  let d := if n = 0 then setAdj 0 (exchangeEnd d) else d
  event Reg.SEQ_EVENT n (updThr n (fun t => { t with st := .halted, code := code, toFetch := false, gate := none, abort := .none }) d)

/-- HFFIELD: what the external-field check measured decides the start (R247); 0 switches the field off. -/
def actHffield (n ext : Nat) (d : Dev) : Dev :=
  let a := stepArg (thr d n).word % 4
  if a = 0 then branch n (hfFieldOff d)
  else if bit (cfg d Reg.HF_CFG) 4 ∧ fld (cfg d Reg.HF_RX_CFG) 25 16 ≤ ext then
    refuse n 0x29 (event Reg.HF_EVENT 7 { d with hf := { d.hf with ext := true } })
  else
    let d := { d with hf := { d.hf with ext := false } }
    if a = 2 then
      let l := hfLevel (fld (reg d Reg.HF_LPCD_CFG) 21 16)
      branch n { d with hf := { d.hf with field := 2, level := l, power := l } }
    else branch n (if d.hf.field = 1 then d else hfFieldOn d)

/-- The action of thread `n` takes its effect, its gates passed; the branch follows (R150, R156). `arrived` is the tick at which a
HOP came to its gates. -/
def actPerform (n ext arrived : Nat) (d : Dev) : Dev :=
  let t := thr d n
  let a := stepArg t.word
  match stepAct t.word with
  | 0x01 => actHalt n d
  | 0x02 => actCall n d
  | 0x03 => actRet n d
  | 0x04 => actLoop n d
  | 0x05 => branch n (updThr n (fun t => { t with lc := upd 0 t.lc (a / 512) (a % 512) }) d)
  | 0x06 => branch n (updThr n (fun t => { t with anchor := anchorOf d n (a % 4) }) d)
  | 0x07 =>
    let m : BitVec 8 := BitVec.ofNat 8 (2 ^ (a % 8))
    branch n { d with seq := { d.seq with sw := if a / 8 % 2 = 1 then d.seq.sw &&& ~~~ m else d.seq.sw ||| m } }
  | 0x08 => branch n (actPost n d)
  | 0x10 => branch n (actRadio n d)
  | 0x11 => branch n (actHop n arrived d)
  | 0x12 => branch n (actAerial n d)
  | 0x13 => branch n (actTxf n d)
  | 0x14 => branch n (setAdj (toSigned 8 (a % 256)) d)
  | 0x20 => branch n (actRxopen n d)
  | 0x21 => branch n (closeThreadWindows n false d)
  | 0x30 => actHffield n ext d
  | 0x31 => branch n (actHftx n d)
  | 0x32 => branch n (actHfrx n d)
  | 0x33 => branch n (hfCloseWin false d)
  | 0x34 => if d.hf.field ≠ 0 then refuse n 0x2A d else branch n (updThr n (fun t => { t with refused := false }) d)
  | _ => branch n d

/-- Holds thread `n` at a gate; at the lock and grant gate the request arrives and asks for lock and grant (R80, R91). -/
def holdAt (n : Nat) (g : Gate) (d : Dev) : Dev :=
  let t := thr d n
  let d := updThr n (fun t => { t with st := .held, gate := some g }) d
  match g with
  | .lock =>
    let c := cfg d Reg.UHF_COEX_CFG
    let d := if !coexFor d n t.word ∨ (t.st = .held ∧ t.gate = some .lock) then d
             else if !(coexReq (n == 3) d).req then coexRequest (n == 3) (d.now + us (fld c 15 8)) (bit t.word 3 && (stepAct t.word == 0x13 || stepAct t.word == 0x31)) d
             else setCoexReq (n == 3) { coexReq (n == 3) d with planned := max (coexReq (n == 3) d).planned d.now } d
    if n = 0 ∧ d.uhf.heldAt.isNone then
      let d := { d with uhf := { d.uhf with heldAt := some d.now } }
      if stepAct t.word = 0x11 then
        (if d.uhf.hopEntry.isSome ∨ calOwnsSynth d then d else chainsFollow (hopHold (hopWanted d t.word) (closeAllWindows false d)))
      else if entryLost d then chainsFollow (relock (closeAllWindows false d))
      else if !d.uhf.lock ∧ d.uhf.move.isNone then startMove .synthOn d else d
    else d
  | _ => d

/-- A field loss that an access operation in progress meets, with its cause (R353): the handle is gone, SW6 says so (R205), and
firmware knows whether the command was on the air before (R216). After the end of a unit only the handle is lost. -/
def fieldLossCause (c : Nat) (d : Dev) : Dev :=
  let a := d.acc
  if a.op.isNone then d
  else if a.unitEnd then setSw 6 false { d with acc := { a with cause := if a.lost then a.cause else c, handle := none, dropped := true } }
  else setSw 6 false { d with acc := { a with
    cause := c, handle := none, lost := true
    afterTx := a.afterTx || (decide (d.uhf.lastBuf = 18 ∨ 32 ≤ d.uhf.lastBuf) && d.seq.txEnd) } }

/-- The grant is gone: under YIELD 1 a gated path that emits ramps down within 2 us (R92). -/
def coexYield (d : Dev) : Dev :=
  if bit (cfg d Reg.UHF_COEX_CFG) 3 then
    let d := if carriesRf d ∧ coexGated d 0 then fieldLossCause 2 (rampDownFast (carrierCut (event Reg.UHF_EVENT 6 d))) else d
    if d.hf.field ≠ 0 ∧ coexGated d 3 then event Reg.UHF_EVENT 6 (coexDrop true false (hfFieldOff (hfCloseWin false d))) else d
  else d

/-- The action would emit RF (R411): gated, and no hop between receive-only states. -/
def emitsRf (d : Dev) (w : DWord) : Bool := actGated d w && !listenHop d w

/-- Mark of a thread whose action would emit with VPA_IN low: the supply fault follows (R411). -/
def supplyMark : Nat := 0x80

/-- An action has passed its gates: REFUSED falls, and it acts. A grant that was withdrawn in this very tick is withdrawn after
the start (R92). -/
def actPass (n ext : Nat) (d : Dev) : Dev :=
  let gone := coexFor d n (thr d n).word && !gntOn d && decide (d.uhf.gntOff = some d.now) && !listenHop d (thr d n).word
  let arrived := d.uhf.heldAt.getD d.now
  let d := updThr n (fun t => { t with refused := false }) d
  let d := actPerform n ext arrived (if n = 0 then { d with uhf := { d.uhf with heldAt := none } } else d)
  if gone then coexYield d else d

/-- Takes an action through its gates: it is held, refused, or performed (R151, R152); one that would emit while VPA_OK is 0
is a supply fault (R411). An RXOPEN with no reply described passes as a NOP, before any refusal or hold (R177). -/
def actGate (n ext : Nat) (d : Dev) : Dev :=
  let w := (thr d n).word
  if sendBad d w then thrFault n 0x38 5 d
  else if stepAct w = 0x20 then
    if (replyDesc d (stepArg w % 16)).isNone then branch n d
    else if rxopenRefused d then refuse n 0x20 d
    else if rxopenHeld d n then holdAt n .rx d
    else actPass n ext d
  else if stepAct w = 0x32 ∧ d.hf.txBusy then holdAt n .rx d
  else if stepAct w = 0x12 ∧ (aerialRefusal d (stepArg w % 16)).isSome then
    refuse n ((aerialRefusal d (stepArg w % 16)).getD 0) d
  else if actGated d w then
    match gateAt d n w with
    | some .slot => holdAt n .slot d
    | some .cut => holdAt n .cut d
    | g =>
      match gateRefusal d w with
      | some st => refuse n st (hopNoChannel w d)
      | none =>
        match g with
        | some g => holdAt n g d
        | none =>
          if !d.pmu.vpa && emitsRf d w then updThr n (fun t => { t with st := .fault, sub := supplyMark }) d else actPass n ext d
  else actPerform n ext d.now d

/-- A pending suspend or cancel takes hold of thread `n` at an abort point (R159). -/
def abortHere (n : Nat) (d : Dev) : Bool :=
  let t := thr d n
  abortPending t && thrRuns t && stepAp t.word && !t.toFetch && decide (t.abortAt < d.now) && decide (t.fetchAt < d.now)

def abortTake (n : Nat) (d : Dev) : Dev :=
  match (thr d n).abort with
  | .cancel => thrHalt n d
  | .suspend => thrSuspend n d
  | .none => d

/-- What an issue does ahead of its gates (R143, R152, R155, R254): TX_END falls at a TXF, and the windows close at a TXF and
at a RADIO; HF_TX_END and the HF window at an HFTX. -/
def actIssued (w : DWord) (d : Dev) : Dev :=
  if sendBad d w then d
  else match stepAct w with
  | 0x10 => closeAllWindows false d
  | 0x13 => closeAllWindows false { d with seq := { d.seq with txEnd := false } }
  | 0x31 => hfCloseWin false { d with hf := { d.hf with txEnd := false } }
  | _ => d

/-- Thread `n` issues its step: at an abort point with a request it issues nothing (R159); else the flags of the wait are
set and the action meets its gates. -/
def seqIssue (n ext : Nat) (e : WaitEnd) (d : Dev) : Dev :=
  if abortHere n d then abortTake n d
  else actGate n ext (actIssued (thr d n).word (updThr n (fun t => { t with timeout := e.timeout, late := e.late }) d))

/-- Issues thread `n`'s step when its wait is over and a test on its word holds; otherwise nothing happens. -/
def issueIf (n ext : Nat) (p : DWord → Bool) (d : Dev) : Dev :=
  match waitOver d n with
  | none => d
  | some e => if n < 4 && stageOk d (n + 1) && p (thr d n).word then seqIssue n ext e (stageMark (n + 1) d) else d

/-- A HELD action is tried at its gates again (R151); an HFFIELD with its external-field check passes by its own command,
which brings the level measured. -/
def regate (n : Nat) (d : Dev) : Dev :=
  if n < 4 ∧ stageOk d (n + 1) ∧ (thr d n).st = .held ∧ (stepAct (thr d n).word = 0x30 → bit (cfg d Reg.HF_CFG) 4 = false) then
    if abortHere n d then abortTake n d else actGate n 0 d
  else d

/-! Turns (R162-R165) -/

/-- A timebase step may be applied now (R46): no window is open, U and H stand where R46 lists, A and B are not HELD. -/
def stepAllowed (d : Dev) : Bool :=
  d.chA.win.isNone && d.chB.win.isNone && d.hf.win.isNone
    && [0, 3].all (fun n =>
      let t := thr d n
      match t.st, t.gate with
      | .waiting, _ => !t.toFetch && stepWk t.word == 4
      | .held, some .slot => true
      | .held, some .cut => true
      | .held, _ => false
      | _, _ => true)
    && [1, 2].all (fun n => decide ((thr d n).st ≠ .held))

/-- `SEQ_STATUS` (R170). -/
def seqStatusWord (d : Dev) : Word :=
  putB 11 (d.seq.turn.any fun t => t.armed)
    ||| put 7 4 (natOfBits ((List.range 4).map fun i => turnReady d (3 - i)))
    ||| put 3 0 (natOfBits ((List.range 4).map fun i => thrRuns (thr d (3 - i))))

/-- The code of a thread state (R143). -/
def ThrState.code : ThrState → Nat
  | .halted => 0 | .waiting => 1 | .held => 2 | .suspended => 3 | .fault => 4

/-- `SEQ_THR_n_STAT`, `_LC_L` and `_LC_H` (R171). -/
def thrStatWord (t : Thread) : Word :=
  put 31 24 t.code ||| put 23 21 t.st.code ||| put 20 18 t.stack.length ||| put 11 0 t.step
def thrLcWord (t : Thread) (h : Bool) : Word :=
  put 24 16 (nth 0 t.lc (if h then 3 else 1)) ||| put 8 0 (nth 0 t.lc (if h then 2 else 0))

end Sys2Proof.Machine
end

