-- ==== Sys2Proof/Machine/CoreOps.lean ====
section
/-! DEFINITION. The applet's start and waits, firmware's hold of the core, and the start of a core (R396-R400, R403, R404). -/
namespace Sys2Proof.Machine

/-- Starts the committed applet (R396): its entry is called in user mode with g7 and c0 set. -/
def appletStart (auto : Bool) (d : Dev) : Dev :=
  let c := coreIn d
  let c := { c.enterWindow c.pc with pc := d.cpu.apl.entry, sup := false, nest := false, inton := true }
  let c := (c.put 7 0x1003F000).put 8 (if auto then 1 else 0)
  let d := setCore c d
  { d with cpu := { d.cpu with apl := { d.cpu.apl with run := true, waiting := none, filter := none, xchg := none, fq := [] } } }

/-- Events a WAIT_EVENT waits for that have come: APPLET_CMD pending, timer, doorbell (R397). -/
def appletEvents (d : Dev) : Nat :=
  match d.cpu.apl.waiting with
  | none => 0
  | some (mask, tmr) =>
    (if bit mask 0 && !d.cpu.apl.cmds.isEmpty then 1 else 0)
      + (if bit mask 1 && (match tmr with | none => false | some e => decide (e ≤ d.now)) then 2 else 0)
      + (if bit mask 2 && !d.cpu.apl.bells.isEmpty then 4 else 0)

/-- WAIT_EVENT ends when an event has come: p0 the events, p1 the doorbell code; without a doorbell p1 is open. -/
def appletWake (d : Dev) : Dev :=
  let ev := appletEvents d
  if ev = 0 ∨ mainService d 1 = false then d
  else
    let bell := decide (4 ≤ ev)
    let (w, d) := if bell then (nw (d.cpu.apl.bells.headD 0), d) else drawFree d
    let a := d.cpu.apl
    let d := { d with cpu := { d.cpu with apl := { a with waiting := none, bells := if bell then a.bells.tail else a.bells } } }
    serviceReturn (some (nw ev)) (some w) d

/-- Starts a committed applet automatically (R396). -/
def appletAuto (d : Dev) : Dev :=
  if bit (reg d Reg.CORE_APL_CFG) 1 ∧ d.cpu.apl.ok then appletStart true d else d

/-- UNREP of a home cell is set (R234). -/
def markUnrep (c : Nat) (d : Dev) : Dev :=
  let w := memW d.comb.cells (8 * c + 7)
  if bit w 7 && !bit w 6 then
    { d with comb := { d.comb with cells := memSet d.comb.cells (8 * c + 7) (w ||| 1), fixes := CMap.del d.comb.fixes (c / 8) } }
  else d

/-- A Comb record goes to its ring after the filter (R232-R234, R400): one that is not written sets DROP, and one dropped
for want of room UNREP of its cell when it was a replay or REOFFER is 1. -/
def recordFinal (r : FiltRec) (d : Dev) : Dev :=
  let (d, ok) := offer r.ring r.type r.body d
  if ok then { d with comb := { d.comb with recs := d.comb.recs + 1 } }
  else
    let d := event Reg.COMB_EVENT 0 d
    let w := nth 0 r.body 0
    if (r.type = 0x0701 ∨ r.type = 0x0702) ∧ (ring d r.ring).en = true ∧ (bit w 31 = true ∨ bit (reg d Reg.COMB_EVT_CFG) 12 = true) then
      markUnrep (fld w 16 0) d
    else d

/-- Records that wait for a filter no longer there are written as they stand. -/
def filterFlush (d : Dev) : Dev :=
  let l := (match d.cpu.apl.filter with | none => [] | some f => [f.item]) ++ d.cpu.apl.fq
  l.foldl (fun d r => recordFinal r d) { d with cpu := { d.cpu with apl := { d.cpu.apl with filter := none, fq := [] } } }

/-- The filter takes Comb records (R400): `CORE_APL_CFG.FILTER`, a filter entry in the image, and an applet that runs. -/
def filterOn (d : Dev) : Bool := bit (reg d Reg.CORE_APL_CFG) 0 && decide (d.cpu.apl.fentry ≠ 0) && d.cpu.apl.run

/-- Firmware takes the core from a user-mode flow by an interrupt of its own; the interrupt's number and value are open
(R385, R396). -/
def takeCore (d : Dev) : Dev :=
  let c := coreIn d
  if c.sup then d
  else
    let (w, d) := drawFree d
    let (v, d) := drawFree d
    setCore (c.trapEnter (16 + w.toNat % 16) v c.pc) d

/-- A TAG_XCHG in progress stops with its applet: its threads halt, and its command is an APPLET_CMD again. -/
def xchgAbort (d : Dev) : Dev :=
  match d.cpu.apl.xchg with
  | none => d
  | some x =>
    let d := [0, 1].foldl (fun d n => if (thr d n).op = some x.tag then updThr n (fun t => { t with op := none }) (thrHalt n d) else d) d
    let d := { d with seq := { d.seq with sw := d.seq.sw &&& ~~~ 0x40 } }
    xchgRestore x.tag x.block d

/-- The applet stops, with a cause and its PC (R386, R396, R398): firmware takes the core, commands the applet has not
answered end APPLET_ABSENT, and records that wait for its filter are written. -/
def appletHalt (cause : Nat) (pc : Word) (d : Dev) : Dev :=
  let d := filterFlush (xchgAbort (takeCore d))
  let tags := d.cpu.apl.cmds ++ d.cpu.apl.taken
  let d := setReg Reg.CORE_APL_STAT (put 31 24 cause ||| put 17 0 pc.toNat) (event Reg.CORE_EVENT 1 d)
  let d := { d with cpu := { d.cpu with apl := { d.cpu.apl with
    run := false, waiting := none, cmds := [], taken := [], filter := none, xchg := none } } }
  tags.foldl (fun d tag => endOp tag 0x2C .failed [] d) d

/-- The core in service starts from its memory's own image (R403, R462), or in the boot ROM when it holds none; with the
boot strap the ROM takes SPI_B as master to read the flash (R326, R404). -/
def coreBoot (d : Dev) : Dev :=
  let c := coreIn d
  let ok := c.entry ≠ 0 ∨ c.ver ≠ 0
  let c := { Core.reset with isram := c.isram, cs := c.cs, dec := c.dec, entry := c.entry, ver := c.ver, cycBase := nw (d.now * 5 / 2)
                             pc := if ok then c.entry else 0x0FFFC000 }
  let d := setCore c d
  let d := { d with cpu := { d.cpu with bootRom := !decide ok }
                    sys := { d.sys with ready := decide ok && d.sys.ready, fwVer := if ok then c.ver else d.sys.fwVer } }
  if !decide ok && d.sys.boot then
    { d with sys := { d.sys with flash := true }, mst := { d.mst with on := true, fw := true, leaving := false } }
  else d

end Sys2Proof.Machine
end

