-- ==== Sys2Proof/Machine/ResetOps.lean ====
section
/-! DEFINITION. What a power domain loses when it goes OFF and holds when it comes ON (R225, R362, R366, R412, R429, R477):
register words, memories, queues and both configuration sets of its banks. -/
namespace Sys2Proof.Machine

/-- Clears the set-paired registers of a range in a set. -/
def CfgSet.clearRegs (c : CfgSet) (lo hi : Nat) : CfgSet := { c with regs := CMap.clearRange c.regs lo hi }

/-- A change to both sets. -/
def bothSets (f : CfgSet → CfgSet) (d : Dev) : Dev := { d with set0 := f d.set0, set1 := f d.set1 }

/-- Clears a bank: its words, its shadow pointers, and its part of both sets. -/
def clearBank (lo hi : Nat) (d : Dev) : Dev :=
  bothSets (fun c => c.clearRegs lo hi) (clearRegs (lo + 0x8000) (hi + 0x8000) (clearRegs lo hi d))

/-- A new link epoch for a port, other than the one it replaces; its expected sequence number restarts (R305). -/
def newEpoch (b : Bool) (d : Dev) : Dev :=
  let e := Config.epoch d.free b
  let e := if e = (port d b).epoch then e ^^^ 2 else e
  let d := setPort b { port d b with epoch := e, seq := 0 } { d with free := d.free + 1 }
  event (Reg.LINK_A_EVENT + portOffset b) 9 d

/-- Data SRAM is lost with MEM_RING: ledger entries that only it held are gone (R451). -/
def sramLost (d : Dev) : Dev :=
  match d.svc.kept with
  | none => d
  | some k => { d with svc := { d.svc with ledger := k.ledger } }

/-- Domain `n` loses its content (OFF, or a reset). -/
def domLose (n : Nat) (d : Dev) : Dev :=
  match n with
  | 1 => clearRegs 0x180 0x183 (clearRegs 0x185 0x186 (setPort false { Port.reset d.portA.epoch with mode3 := d.sys.strapA } d))
  | 2 => clearRegs 0x190 0x193 (clearRegs 0x195 0x196 (clearRegs 0x1B0 0x1B4
      { setPort true { Port.reset d.portB.epoch with mode3 := d.sys.strapB } d with mst := Master.reset }))
  | 3 =>
    let d := { d with cpu := { d.cpu with m := { Core.reset with st := .stopped } } }
    if d.cpu.onS then { d with cpu := { d.cpu with spareOk := false } }
    else { clearRegs 0x780 0x7AF d with cpu := { d.cpu with dsram := [], apl := Applet.reset, img := ImgPort.reset, bootRom := true }
                                        sys := { d.sys with ready := false } }
  | 4 =>
    let d := { d with cpu := { d.cpu with s := { Core.reset with st := .stopped } } }
    if d.cpu.onS then { clearRegs 0x780 0x7AF d with cpu := { d.cpu with dsram := [], apl := Applet.reset, img := ImgPort.reset, bootRom := true }
                                                     sys := { d.sys with ready := false } }
    else { d with cpu := { d.cpu with spareOk := false } }
  | 5 => clearRegs 0x580 0x5BF { d with comb := Comb.reset }
  | 6 => sramLost (clearRegs 0x200 0x2FF { d with rings := (List.range 32).map Ring.reset })
  | 7 => bothSets (fun c => { c with tab := [], fb := [] }) (clearBank 0x480 0x57F { d with seq := Seq.reset, gen2 := Gen2.reset, acc := Access.reset })
  | 8 => bothSets (fun c => { c with chan := [] }) (clearBank 0x300 0x3BF { d with uhf := { Uhf.reset with
      blank0 := d.uhf.blank0, blank1 := d.uhf.blank1, gntPin := d.uhf.gntPin, seeds := d.uhf.seeds, coexH := d.uhf.coexH } })
  | 9 => seedsDrop (fun c _ _ => !c) (clearBank 0x3C0 0x41F { d with chA := { Chain.reset false with active := d.chA.active, nextActive := d.chA.nextActive }, pair := Pair.reset })
  | 10 => seedsDrop (fun c _ _ => c) (clearBank 0x420 0x47F { d with chB := { Chain.reset false with active := d.chB.active, nextActive := d.chB.nextActive } })
  | 11 => bothSets (fun c => { c with hffb := [] }) (clearBank 0x5C0 0x63F { d with hf := Hf.reset })
  | 12 => clearRegs 0x680 0x687 (clearRegs 0x699 0x69A (calStop d))
  | _ => d

/-- With AUTO at 1 firmware loads its default banks and runs the chain (R115). -/
def chainReload (ch : Bool) (d : Dev) : Dev :=
  if bit (reg d (chReg ch 3)) 1 then
    chainRun ch (setReg (chReg ch 3) (reg d (chReg ch 3) ||| 1) (setChain ch { chain d ch with stock := true } d))
  else d

/-- UHF_TX comes ON, from OFF or from RET: the radio enters STANDBY, and there is no current entry (R60, R74). -/
def radioWake (d : Dev) : Dev := { d with uhf := { d.uhf with st := .standby, move := none, lock := false, entry := none } }

/-- Radio, chains, sequencer and core as they stand when domain `n` has come ON from OFF (R74, R113, R169, R305, R404). -/
def domGain (n : Nat) (d : Dev) : Dev :=
  match n with
  | 1 => newEpoch false (setPort false { d.portA with readyAt := d.now } d)
  | 2 => newEpoch true (setPort true { d.portB with readyAt := d.now } d)
  | 3 => if d.cpu.onS then d else { coreBoot d with cpu := { (coreBoot d).cpu with bootRom := true, mboxScan := true } }
  | 4 => if d.cpu.onS then { coreBoot d with cpu := { (coreBoot d).cpu with bootRom := true, mboxScan := true } } else d
  | 7 => { d with seq := { d.seq with onAt := d.now } }
  | 8 => radioWake d
  | 9 => chainReload false { d with chA := { d.chA with st := .stopped } }
  | 10 => chainReload true { d with chB := { d.chB with st := .stopped } }
  | 12 => { calReadSets d with cal := { (calReadSets d).cal with replanUp := true } }
  | _ => d

end Sys2Proof.Machine
end

