-- ==== Sys2Proof/Machine/Faults.lean ====
section
/-! DEFINITION. Faults as the service logic handles them: ledger, nesting, queue, fences, the safe state, core restart
(R451-R465). -/
namespace Sys2Proof.Machine

/-! Blocks (R451) -/

def blkLinkA : Nat := 0x01
def blkComb : Nat := 0x05
def blkRing : Nat := 0x06
def blkSeq : Nat := 0x07
def blkSynth : Nat := 0x08
def blkPa : Nat := 0x09
def blkPort (b : Bool) : Nat := if b then 0x0B else 0x0A
def blkRx (b : Bool) : Nat := if b then 0x0D else 0x0C
def blkSep : Nat := 0x0E
def blkHf : Nat := 0x0F
def blkLpcd : Nat := 0x10
def blkTagm : Nat := 0x11
def blkCal : Nat := 0x12
def blkKeep : Nat := 0x13
def blkCheck : Nat := 0x14
def blkDamask : Nat := 0x15
def blkPmu : Nat := 0x16
def blkTime : Nat := 0x17
def blkCore (d : Dev) : Nat := if d.cpu.onS then 0x04 else 0x03

/-- Blocks that touch RF emission (R451). -/
def blockRf (b : Nat) : Bool := decide ((8 ≤ b ∧ b ≤ 0x0B) ∨ b = 0x0F ∨ b = 0x16)

/-- Blocks that can be fenced (R451). -/
def blockFences (b : Nat) : Bool :=
  decide ((1 ≤ b ∧ b ≤ 5) ∨ (0x0A ≤ b ∧ b ≤ 0x13) ∨ b = 0x15)

/-- Recovery window of a block's class in fine ticks (R451, R452); DEVICE has none. -/
def blockWindow (b : Nat) : Nat :=
  if b = 1 ∨ b = 2 ∨ b = 7 ∨ b = 0x14 ∨ (0x0C ≤ b ∧ b ≤ 0x0E) ∨ b = 0x10 then 160000000
  else if b = 3 ∨ b = 4 ∨ b = 0x17 then 9600000000
  else if b = 5 ∨ b = 6 ∨ b = 0x11 ∨ b = 0x13 then 1600000000
  else if blockRf b then 32000000
  else if b = 0x12 ∨ b = 0x15 then 576000000000
  else 0

/-- Faults that are recorded only (R453). -/
def recordOnly (code : Nat) : Bool :=
  [0x01, 0x09, 0x22, 0x23, 0x34, 0x38, 0x45, 0x50, 0x51, 0x62].contains code

/-! Ledger and records (R463-R465) -/

/-- Words of a ledger entry. -/
def ledgerWords (d : Dev) (h : Handling) (outcome : Nat) (queued : Bool) (tail : Word) : List Word :=
  [put 31 16 h.num.toNat ||| put 15 8 h.code ||| put 7 0 h.block, stampL d,
   stampH d ||| put 23 16 outcome ||| put 15 14 h.level ||| putB 13 (blockRf h.block) ||| putB 12 queued,
   put 31 16 h.parent.toNat ||| put 15 0 h.detail, tail]

/-- Number of a ledger entry. -/
def entryNum (ws : List Word) : Nat := fld (nth 0 ws 0) 31 16

/-- The ledger after a new entry (R451, R463): the oldest of 512 is overwritten first; while KEEP is fenced the new entries, at most
64, stand in data SRAM behind those of the store. -/
def ledgerPush (d : Dev) (ws : List Word) : List (List Word) :=
  let l := d.svc.ledger ++ [sealEntry ws]
  match d.svc.kept with
  | none => lastN 512 l
  | some k => k.ledger ++ lastN 64 (l.drop k.ledger.length)

/-- Adds an entry and its FAULT record. -/
def ledgerAdd (ws : List Word) (d : Dev) : Dev :=
  writeRecord 5 0x0803 ws (keepWrite (entryNum ws % 512) { d with svc := { d.svc with ledger := ledgerPush d ws } })

/-- Closes an entry with an outcome and writes its record again (R463, R465). -/
def ledgerClose (num : BitVec 16) (outcome : Nat) (d : Dev) : Dev :=
  let fix := fun (ws : List Word) =>
    if entryNum ws = num.toNat then sealEntry (upd 0 (ws.take 5) 2 (setFld (nth 0 ws 2) 23 16 outcome)) else ws
  let d := keepWrite (num.toNat % 512) { d with svc := { d.svc with ledger := d.svc.ledger.map fix } }
  match (heldEntries d).find? fun ws => entryNum ws = num.toNat with
  | none => d
  | some ws => writeRecord 5 0x0803 ws (if outcome = 1 then event Reg.SVC_EVENT 1 d else d)

/-- Detection of a fault: event, count and number (R454). -/
def faultNumber (d : Dev) : BitVec 16 × Dev :=
  (d.svc.next, count Reg.SVC_CNT 31 24 1 (event Reg.SVC_EVENT 0 { d with svc := { d.svc with next := d.svc.next + 1 } }))

/-- A recorded-only fault is written and closed at once (R454). -/
def recordAs (outcome code block detail : Nat) (tail : Word) (d : Dev) : Dev :=
  let (n, d) := faultNumber d
  ledgerAdd (ledgerWords d ⟨n, block, code, 1, d.now, n, detail⟩ outcome false tail) d

/-- A recorded-only fault, with outcome NONE (R454, R465). -/
def recordFault (code block detail : Nat) (tail : Word) (d : Dev) : Dev := recordAs 4 code block detail tail d

/-! The safe state (R458) -/

/-- Operations the safe state ends: those on threads, CAL_RUN, and ONLINE_TEST of an RF block. -/
def safeEnds (o : Op) : Bool :=
  !(opThreads o).isEmpty || decide (o.opcode = 0x800)
    || (decide (o.opcode = 0x801) && [0x08, 0x09, 0x0A, 0x0B, 0x0F].contains (fld (nth 0 o.block 0) 7 0))

/-- Emission and threads stop, calibrations stop, operations end (R458). -/
def safeStop (d : Dev) : Dev :=
  let d := fieldLossCause 4 d
  let d := { d with acc := { d.acc with unconf := d.acc.unconf || (d.acc.op.isSome && d.acc.afterTx) } }
  let d := closeAllWindows true (hfCloseWin true d)
  let d := carrierOff (thrHalt 3 (thrHalt 2 (thrHalt 1 (thrHalt 0 d))))
  let d := { d with uhf := { d.uhf with
    st := if domOn d 8 then .standby else d.uhf.st, move := none, lock := false, heldAt := none, hopAt := none
    hopEntry := none, hopListen := false, coexU := ⟨false, false, 0⟩ } }
  let d := hfFieldOff (chainsFollow d)
  let d := calStop { d with hf := { d.hf with field := 0, confirm := none } }
  (d.ops.filter fun o => opLive o && safeEnds o).foldl (fun d o => endOp o.tag 0x60 .failed [] d) d

/-- Entry to the safe state, named by a fault; a further entry changes nothing (R458, R459). -/
def safeEnter (num : BitVec 16) (code block : Nat) (d : Dev) : Dev :=
  if d.svc.safe then d
  else
    let d := safeStop d
    let d := keepWrite 514 (count Reg.SVC_CNT 15 8 1 (event Reg.SVC_EVENT 3 (event Reg.SYS_EVENT 1 d)))
    { d with svc := { d.svc with safe := true, safeCause := put 31 16 num.toNat ||| put 15 8 code ||| put 7 0 block } }

/-! Core restart (R462) -/

/-- The core in service is reset and firmware starts again: threads halt, operations end FW_FAULT, a committed applet
starts again under AUTO. -/
def coreRestart (wdog : Bool) (d : Dev) : Dev :=
  let d := if wdog then event Reg.SYS_RST_CAUSE 4 d else d
  let apc := (coreIn d).pc
  let d := if d.cpu.apl.run then appletHalt 0 apc d else d
  let d := thrHalt 3 (thrHalt 2 (thrHalt 1 (thrHalt 0 d)))
  let d := (d.ops.filter opLive).foldl (fun d o => endOp o.tag 0x65 .failed [] d) d
  appletAuto (coreBoot d)

/-! Fences (R460, R323, R462) -/

/-- LINK OFF for a port would leave no port in slave service (R323). -/
def linkOffIgnored (d : Dev) (b : Bool) : Bool :=
  let o := port d (!b)
  o.off || (!b && d.mst.on)

/-- A port goes out of service (R323). -/
def portOff (b : Bool) (d : Dev) : Dev := setPort b { port d b with off := true } d

/-- The other core can take service over (R462): not fenced, and with a committed image. -/
def otherCoreReady (d : Dev) : Bool := !fenced d (if d.cpu.onS then 3 else 4) && d.cpu.spareOk

/-- Operations that cannot run without a block (R460): those of its threads or of its engine. -/
def opNeeds (d : Dev) (o : Op) (b : Nat) : Bool :=
  match b with
  | 0x05 => decide (o.opcode = 0x700 ∨ o.opcode = 0x300)
  | 0x0A => isAccess o.opcode && decide (fld (nth 0 o.block 1) 11 8 < 8) || (decide (o.opcode = 0x300) && decide (fld (nth 0 o.block 0) 15 8 = 0))
  | 0x0B => isAccess o.opcode && decide (8 ≤ fld (nth 0 o.block 1) 11 8) || (decide (o.opcode = 0x300) && decide (fld (nth 0 o.block 0) 7 0 = 0))
  | 0x0C => (isAccess o.opcode || decide (o.opcode = 0x300)) && !chainUsable d.chB || (decide (o.opcode = 0x200) && !bit (nth 0 o.block 0) 4)
  | 0x0D => (isAccess o.opcode || decide (o.opcode = 0x300)) && !chainUsable d.chA || (decide (o.opcode = 0x200) && bit (nth 0 o.block 0) 4)
  | 0x0F => decide (o.opcode = 0x500 ∨ o.opcode = 0x501)
  | 0x12 => decide (o.opcode = 0x800)
  | _ => false

/-- Running operations that cannot go on without the block end at their next abort point (R460). -/
def opsLose (b : Nat) (d : Dev) : Dev :=
  (d.ops.filter fun o => opLive o && decide (o.st = .running) && opNeeds d o b).foldl (fun d o => opFailAt o 0x62 d) d

/-- The meaning of a fence on its block (R451). -/
def fenceEffect (b : Nat) (d : Dev) : Dev :=
  match b with
  | 0x01 => portOff false d
  | 0x02 => portOff true d
  | 0x0C => chainStop false (clearBit (chReg false 3) 0 d)
  | 0x0D => chainStop true (clearBit (chReg true 3) 0 d)
  | 0x0A => if d.uhf.carrier ∧ !d.uhf.port then carrierCut d else d
  | 0x0B => if d.uhf.carrier ∧ d.uhf.port then carrierCut d else d
  | 0x0F => hfFieldOff (hfCloseWin true { d with hf := { d.hf with confirm := none } })
  | 0x12 => calStop d
  | _ => d

/-- What the keeping store holds of the service logic. -/
def keptOf (d : Dev) : Kept := ⟨d.svc.ledger, d.svc.next, d.svc.fences, d.svc.retired, d.svc.safeCause, d.cal.hours⟩

/-- Marks a block fenced; the fence of KEEP is the last write of the keeping store (R451, R460). -/
def fenceMark (b : Nat) (d : Dev) : Dev :=
  let d := keepWrite 512 d
  let d := { d with svc := { d.svc with fences := d.svc.fences ||| BitVec.ofNat 24 (2 ^ b) } }
  let d := if b == blkKeep && d.svc.kept.isNone then { d with svc := { d.svc with kept := some (keptOf d) } } else d
  count Reg.SVC_CNT 23 16 1 (event Reg.SVC_EVENT 2 d)

/-- Fence of a core (R462): service passes to the other core, which starts cold from its image. -/
def fenceCore (b : Nat) (d : Dev) : Dev :=
  if b = blkCore d then
    let d := fenceMark b d
    let d := setCore { coreIn d with st := .stopped } d
    let was := coreDom d
    let d := { d with cpu := { d.cpu with onS := !d.cpu.onS, spareOk := false } }
    let d := { d with pmu := { d.pmu with doms := upd Dom.full (upd Dom.full d.pmu.doms was { dom d was with pos := .off, mode := 2 })
                                                     (coreDom d) { dom d (coreDom d) with pos := .on, mode := 0 } } }
    coreRestart false d
  else { fenceMark b d with cpu := { (fenceMark b d).cpu with spareOk := false } }

/-- Fences a block, in the tick it is decided; `false` when no fence is applied (R323, R460, R462). -/
def fenceBlock (b : Nat) (d : Dev) : Dev × Bool :=
  if b = 3 ∨ b = 4 then
    if b = blkCore d ∧ !otherCoreReady d then (d, false) else (fenceCore b d, true)
  else if (b = 1 ∧ linkOffIgnored d false) ∨ (b = 2 ∧ linkOffIgnored d true) then (d, false)
  else if blockFences b then (opsLose b (fenceMark b (fenceEffect b d)), true)
  else (d, false)

/-! Recovery actions at the start of a handling (R453) -/

/-- The chain's carrier-side block is made safe, the core restarts, a ring is flushed, and so on. -/
def recoverStart (code block detail : Nat) (d : Dev) : Dev :=
  match code with
  | 0x10 => calPend 2 0 d
  | 0x11 => carrierCut d
  | 0x12 => carrierCut d
  | 0x18 => redrive (carrierCut d)
  | 0x19 => redrive (carrierCut d)
  | 0x24 => chainStopped false (closeWindow false true d)
  | 0x25 => chainStopped true (closeWindow true true d)
  | 0x26 => { d with pair := { d.pair with sepDone := false, sepMulti := false, sepRec := false, nEst := 0 } }
  | 0x28 => hfFieldOff d
  | 0x29 => calApply 2 27 28 (setCal 2 { calOf d 2 with next := calForm d 2 } d)
  | 0x30 => coreRestart true d
  | 0x31 => coreRestart false d
  | 0x32 => coreRestart false d
  | 0x33 => coreRestart false d
  | 0x42 =>
    let r := ring d detail
    let n := r.recs.length
    recPlace detail 0xFFFE [putB 31 true ||| put 30 0 n] false (event (ringReg detail 6) 4
      (setRing detail { r with recs := [], held := 0, rpos := r.wpos, pendGap := 0, gapFresh := false } d))
  | _ => let _ := block; d

/-- A chain has its default banks again and runs (R453). -/
def chainAgain (ch : Bool) (d : Dev) : Dev :=
  if fenced d (blkRx ch) then d else chainRun ch (setChain ch { chain d ch with stock := true, coef := [] } d)

/-- Recovery actions at the end of a handling (R453): a chain runs again. -/
def recoverEnd (code : Nat) (d : Dev) : Dev :=
  match code with
  | 0x24 => chainAgain false d
  | 0x25 => chainAgain true d
  | _ => d

/-! Raising a fault (R454-R457) -/

/-- Every open handling closes with outcome SAFE (R455). -/
def closeAllSafe (d : Dev) : Dev :=
  let hs := d.svc.opens
  hs.foldl (fun d h => ledgerClose h.num 3 d) { d with svc := { d.svc with opens := [] } }

/-- A new handling opens at the front; its recovery starts. -/
def openHandling (h : Handling) (queued : Bool) (tail : Word) (fresh : Bool) (d : Dev) : Dev :=
  let d := if fresh then ledgerAdd (ledgerWords d h 0 queued tail) d else d
  recoverStart h.code h.block h.detail { d with svc := { d.svc with opens := { h with start := d.now } :: d.svc.opens
                                                                    recent := { h with start := d.now } :: d.svc.recent } }

/-- Independent faults of the block whose window still runs (R456). -/
def recentOf (d : Dev) (block : Nat) : Bool :=
  d.svc.recent.any fun h => h.block = block && decide (d.now < h.start + blockWindow block)

/-- A dependent fault (R455): one level deeper; at level 3 the safe state. -/
def raiseDependent (code block detail : Nat) (d : Dev) : Dev :=
  match d.svc.opens with
  | [] => d
  | p :: _ =>
    let (n, d) := faultNumber d
    let d := count Reg.SVC_CNT 7 0 1 d
    let h : Handling := ⟨n, block, code, p.level + 1, d.now, p.num, detail⟩
    let d := ledgerAdd (ledgerWords d h 0 false 0) d
    if 2 ≤ p.level then closeAllSafe (ledgerClose n 3 (safeEnter n code block d))
    else
      { d with svc := { d.svc with opens := h :: d.svc.opens } }

/-- A fault that puts the device in the safe state at once closes with outcome SAFE (R456, R458, R465). -/
def faultSafe (h : Handling) (tail : Word) (d : Dev) : Dev :=
  ledgerClose h.num 3 (safeEnter h.num h.code h.block (ledgerAdd (ledgerWords d h 0 false tail) d))

/-- An independent fault (R454, R456). -/
def raiseWith (code block detail : Nat) (tail : Word) (d : Dev) : Dev :=
  if recordOnly code then recordFault code block detail tail d
  else
    let (n, d) := faultNumber d
    let h : Handling := ⟨n, block, code, 1, d.now, n, detail⟩
    let rf := blockRf block
    if code = 0x08 then faultSafe h tail d
    else if recentOf d block then
      if rf then faultSafe h tail d
      else
        let (d', ok) := fenceBlock block (ledgerAdd (ledgerWords d h 0 false tail) d)
        if ok then
          let d' := ledgerClose n 2 (if code = 0x30 then event Reg.SYS_RST_CAUSE 4 d' else d')
          let mine := d'.svc.opens.filter fun o => o.block = block
          let d' := { d' with svc := { d'.svc with opens := d'.svc.opens.filter fun o => o.block ≠ block } }
          mine.foldl (fun d o => ledgerClose o.num 2 d) d'
        else
          let d := faultSafe h tail d
          if block = 3 ∨ block = 4 then coreRestart (decide (code = 0x30)) d else d
    else match d.svc.opens with
    | [] => openHandling h false tail true d
    | o :: _ =>
      if rf ∨ blockRf o.block then faultSafe h tail d
      else if 8 ≤ d.svc.queue.length then
        let d := ledgerAdd (ledgerWords d h 0 false tail) d
        let (m, d) := faultNumber d
        ledgerClose n 3 (faultSafe ⟨m, 0, 0x61, 1, d.now, m, 0⟩ 0 d)
      else
        let d := ledgerAdd (ledgerWords d h 0 true tail) d
        { d with svc := { d.svc with queue := d.svc.queue ++ [h] } }

/-- A fault with no operation of its own (R463). -/
def raiseFault (code block detail : Nat) (d : Dev) : Dev := raiseWith code block detail 0 d

/-- A sequencer fault of thread `n` (R167, R453): the thread's operation ends SEQ_FAULT; word 4 names status, tag and
sub-reason. An action that would emit with VPA_OK at 0 is VPA_LOSS instead (R411). -/
def seqFaultRaise (n : Nat) (d : Dev) : Dev :=
  let t := thr d n
  if t.sub = supplyMark then raiseFault 0x08 blkPmu 0 (thrHalt n (updThr n (fun t => { t with sub := 0 }) d)) else
  let tag := t.op
  let d := match tag with
    | none => d
    | some g => endOp g 0x61 .failed [] d
  raiseWith t.code blkSeq (4096 * n + t.step)
    ((match tag with | none => 0 | some g => put 31 24 0x61 ||| put 22 16 g) ||| put 7 0 t.sub) d

/-- Runs a step's effect on thread `n`; a fault it raises is recorded (R167). -/
def withSeqFault (n : Nat) (f : Dev → Dev) (d : Dev) : Dev :=
  let d' := f d
  if (thr d' n).st = .fault ∧ (thr d n).st ≠ .fault then seqFaultRaise n d' else d'

/-- Three successive saturated windows raise CHAIN_x (R453). -/
def chainFaults (d : Dev) : Dev :=
  let go := fun (b : Bool) (d : Dev) =>
    if 3 ≤ (chain d b).satRuns then
      raiseFault (if b then 0x25 else 0x24) (blkRx b) 0 (setChain b { chain d b with satRuns := 0 } d)
    else d
  go true (go false d)

/-- The applet stops on a trap cause: recorded, and its commands end (R386). -/
def appletTrapStop (cause : Nat) (pc : Word) (d : Dev) : Dev :=
  raiseFault 0x34 (blkCore d) 0 (appletHalt cause pc (event Reg.CORE_EVENT 0 d))

end Sys2Proof.Machine
end

