-- ==== Sys2Proof/Machine/Gen2Ops.lean ====
section
/-! DEFINITION. The Gen2 link as firmware computes with it: link validity, frame and reply times, the check codes of R8,
the firmware frame buffers, and the reserves of campaigns and accesses (R36, R172-R186, R215). -/
namespace Sys2Proof.Machine

/-! Link (R172, R198) -/

/-- Tari and data-1 in 1/16 us. -/
def tari16 (w : Word) : Nat := match fld w 31 30 with | 0 => 100 | 1 => 200 | _ => 400
def data1of (w : Word) : Nat := tari16 w * (match fld w 29 28 with | 0 => 6 | 1 => 7 | _ => 8) / 4
/-- RTcal in 1/16 us. -/
def rtcal16 (w : Word) : Nat := tari16 w + data1of w
/-- Nominal BLF in kHz, and the Miller factor M. -/
def blfKhz (w : Word) : Nat := fld w 21 12
def millerM (w : Word) : Nat := 2 ^ fld w 27 26

/-- Times of a link are counted in units of 1/(374,400 BLF) us, in which each of them is a whole number. -/
def unitsPerUs (w : Word) : Nat := 374400 * blfKhz w
/-- A time of n/16 us in those units. -/
def u16 (w : Word) (n : Nat) : Nat := n * 23400 * blfKhz w
/-- TRcal = DR / BLF. -/
def trcalU (w : Word) : Nat := if bit w 24 then 64000 * 124800 else 8000 * 374400

/-- The link is valid (R172). -/
def linkValid (w : Word) : Bool :=
  decide (40 ≤ blfKhz w ∧ blfKhz w ≤ 640) && decide (11 * u16 w (rtcal16 w) ≤ 10 * trcalU w)
    && decide (trcalU w ≤ 3 * u16 w (rtcal16 w))

/-- `GEN2_DERIVED` of a link: RTcal and TRcal in 1/16 us, whole units; with BLF 0 or a TRcal past its field, open. -/
def derivedWord (w : Word) : Word :=
  let t := if blfKhz w = 0 then 4096 else trcalU w * 16 / unitsPerUs w
  put 11 0 (rtcal16 w) ||| put 27 16 (if 4096 ≤ t then (Config.trcalField w).toNat else t)

/-- MAX(RTcal, 10 Tpri), and T1 max (R180). -/
def t1Base (w : Word) : Nat := max (u16 w (rtcal16 w)) (10000 * 374400)
def t1Max (w : Word) : Nat := t1Base w * 61 / 50 + 2 * unitsPerUs w
/-- T2 floor of R180 in tenths of a us, rounded up, and in units. -/
def t2Tenths (w : Word) : Nat := (3000000 + 78 * blfKhz w - 1) / (78 * blfKhz w)
def t2Floor (w : Word) : Nat := t2Tenths w * 37440 * blfKhz w
/-- T4, 2 RTcal. -/
def t4 (w : Word) : Nat := 2 * u16 w (rtcal16 w)

/-- Time of a reader frame: delimiter 12.5 us, data-0, RTcal, TRcal with the preamble, and its bits (R174). -/
def readerTime (w : Word) (pre : Bool) (ones zeros : Nat) : Nat :=
  u16 w 200 + u16 w (tari16 w) + u16 w (rtcal16 w) + (if pre then trcalU w else 0)
    + u16 w (zeros * tari16 w + ones * data1of w)
def readerTimeOf (w : Word) (pre : Bool) (bs : List Bool) : Nat :=
  readerTime w pre (bs.filter id).length (bs.filter (! ·)).length

/-- Time of a tag reply of `n` bits with its preamble and dummy symbol, at BLF -22 %. -/
def replyTime (w : Word) (n : Nat) : Nat :=
  (n + 1 + (if millerM w = 1 then 6 else 10) + (if bit w 25 then 12 else 0)) * millerM w * 480000000

/-! Chain latency (R103, R110, R118, R119, R126, R134) -/

/-- `RXD_x_RSMP.RANGE` with its limits. -/
def rsmpRange (w : Word) : Nat := min 25 (max 1 (fld w 23 16))

/-- HB_N of R119: the largest n with 180/2^n MS/s at least 16 BLF (1 + RANGE/100). -/
def hbCount (blf range : Nat) : Nat :=
  ((List.range 8).filter fun n => decide (16 * blf * (100 + range) * 2 ^ n ≤ 180000 * 100)).foldl max 0

/-- Default bank for a link (R118): 0 or 2 by BLF / Fc, its minimum-phase partner for short turnaround. -/
def bankFor (blf hb : Nat) (short : Bool) : Nat :=
  (if blf * 2 ^ hb * 10000 ≤ 362 * 180000 then 0 else 2) + (if short then 1 else 0)

/-- Latency of stages 1 to 11 with `hb` half-bands, in 1/374,400 us (R103). -/
def stagesLatency (hb : Nat) : Nat :=
  22464 + 3900 + ((([6240, 20800, 74880, 183040, 366080, 732160, 1464320] : List Nat).take hb).sum)

/-- Latency to the correlators, at most, with a bank's group delay. -/
def chainLatency (hb : Nat) (delay : Int) : Int := stagesLatency hb + (delay + 4) * (2 ^ hb * 2080 : Nat)

/-- Separation latency: 2.5 us after the last sample (R134). -/
def sepLatency (hb : Nat) (delay : Int) : Int := chainLatency hb delay + 936000

/-! Frame buffers of firmware (R174, R178) -/

/-- Header of a frame buffer. -/
def fbHeader (pre : Bool) (crc rdesc ipos len : Nat) : Word :=
  putB 31 true ||| putB 30 pre ||| put 29 28 crc ||| put 27 24 rdesc ||| put 20 12 ipos ||| put 8 0 len

/-- Writes words from an address of a frame-buffer memory. -/
def fbWrite (a : Nat) : List Word → CMap Word → CMap Word
  | [], m => m
  | w :: ws, m => fbWrite (a + 1) ws (memSet m a w)

/-- Firmware holds its shadow writes back: a turn is armed or a copy runs (R367, R368). -/
def fwHolds (d : Dev) : Bool := d.seq.turn.any Armed.armed || d.sys.copyEnd.isSome

/-- A change to firmware's own content, in both sets or, while shadow writes are held back, in the active one alone (R178, R367). -/
def fwSets (f : CfgSet → CfgSet) (d : Dev) : Dev :=
  let d' := setActive (f (activeSet d)) d
  if fwHolds d then d' else setShadow (f (shadowSet d)) d'

/-- Firmware writes a whole buffer in both sets (R178, R207). -/
def fwBuffer (b : Nat) (h : Word) (bits : List Bool) (d : Dev) : Dev :=
  let ws := (h :: packBits 15 bits ++ List.replicate 15 0).take 16
  fwSets (fun c => { c with fb := fbWrite (16 * b) ws c.fb }) d

/-- Firmware writes HF buffer `b` and the words of a longer frame after it in both sets (R251). -/
def fwHfBuffer (b : Nat) (h : Word) (bits : List Bool) (d : Dev) : Dev :=
  fwSets (fun c => { c with hffb := fbWrite (32 * b) (h :: packBits 66 bits) c.hffb }) d

/-- A set-paired register of a set replaced. -/
def setCfgOf (c : CfgSet) (a : Nat) (v : Word) : CfgSet := { c with regs := CMap.set regReset c.regs a v }

/-- Firmware writes a set-paired register in both sets, or in the active one. -/
def fwBoth (a : Nat) (v : Word) (d : Dev) : Dev := fwSets (fun c => setCfgOf c a v) d
def fwActive (a : Nat) (v : Word) (d : Dev) : Dev := setActive (setCfgOf (activeSet d) a v) d

/-- What firmware keeps alike in both sets: buffers 0 to 31 and HF buffers 0 to 15, descriptors 0 to 3 of each, and its range of the
table (R178, R251, R253, R508). -/
def fwContent (a c : CfgSet) : CfgSet :=
  { c with
    regs := ([Reg.GEN2_RDESC_0, Reg.HF_RDESC_0].flatMap fun r => (List.range 4).map (r + ·)).foldl
      (fun m i => CMap.set regReset m i (cfgOf a i)) c.regs
    hffb := a.hffb.filter (fun e => e.1 < 512) ++ c.hffb.filter (fun e => 512 ≤ e.1)
    fb := a.fb.filter (fun e => e.1 < 512) ++ c.fb.filter (fun e => 512 ≤ e.1)
    tab := a.tab.filter (fun e => e.1 < 0x800) ++ c.tab.filter (fun e => 0x800 ≤ e.1) }

/-- Shadow writes held back are applied: the shadow set holds what the active one holds of firmware's content (R367). -/
def fwAlike (d : Dev) : Dev := setShadow (fwContent (activeSet d) (shadowSet d)) d

/-- Descriptors firmware loads at start-up (R178, R200): the RN16, the PC-sized reply to ACK, a delayed and an immediate reply. -/
def fwDescriptors (d : Dev) : Dev :=
  let r := Reg.GEN2_RDESC_0
  fwBoth r (put 9 0 16) (fwBoth (r + 1) (put 31 30 1 ||| putB 27 true ||| put 9 0 544)
    (fwBoth (r + 2) (put 31 30 2 ||| putB 27 true) (fwBoth (r + 3) (putB 27 true ||| put 9 0 32) d)))

/-- Bits of the Query without its CRC-5 (R179): Q, target and the fields of `GEN2_LINK` and `GEN2_QUERY`. -/
def queryBits (link query : Word) (q : Nat) (target : Bool) : List Bool :=
  [true, false, false, false, bit link 24] ++ bitsOf 2 (fld link 27 26) ++ [bit link 25] ++ bitsOf 2 (fld query 9 8)
    ++ bitsOf 2 (fld query 5 4) ++ [target] ++ bitsOf 4 q
def queryFrame (link query : Word) (q : Nat) (target : Bool) : List Bool :=
  queryBits link query q target ++ bitsOf 5 (crc5 (queryBits link query q target))

/-- Bits of EPC-96 that a tag sends after a Select frame with Truncate; none for a frame without it (R178, R195). -/
def truncRest (d : Dev) (i : Nat) : Option Nat :=
  let h := fbWord d (16 * (8 + i))
  let n := fld h 8 0
  let f := unpackBits n ((List.range 15).map fun k => fbWord d (16 * (8 + i) + 1 + k))
  if bit h 31 && f.getLast?.getD false then
    -- command 4, target 3, action 3, bank 2, then the pointer in groups of eight bits
    let rec ptr : Nat → Nat → List Bool → Nat × List Bool
      | 0, a, bs => (a, bs)
      | k + 1, a, bs =>
        let a := 128 * a + natOfBits ((bs.drop 1).take 7)
        if bs.headD false then ptr k a (bs.drop 8) else (a, bs.drop 8)
    let (p, bs) := ptr 5 0 (f.drop 12)
    some (0x20 + 96 - (p + natOfBits (bs.take 8)))
  else none

/-- Length of the truncated reply of a campaign: five zeros, the rest of the EPC, CRC-16; none without Truncate. -/
def truncLen (d : Dev) : Option Nat :=
  (((List.range 8).filter fun i => bit (cfg d Reg.GEN2_SEL_CFG) i).filterMap (truncRest d)).head?.map (21 + ·)

/-- Descriptor 2 of a campaign with a truncated reply (R178). -/
def fwTruncated (d : Dev) : Dev :=
  match truncLen d with
  | none => d
  | some n => fwBoth (Reg.GEN2_RDESC_0 + 2) (putB 27 true ||| put 9 0 n) d

/-- Buffers 1 to 6 of an inventory (R178): ACK, QueryRep, the QueryAdjusts and NAK. -/
def fwInventoryBuffers (d : Dev) : Dev :=
  let ack := if (truncLen d).isSome then 2 else 1
  let s := bitsOf 2 (fld (cfg d Reg.GEN2_QUERY) 5 4)
  let adj := [true, false, false, true] ++ s
  fwBuffer 6 (fbHeader false 0 15 0 8) [true, true, false, false, false, false, false, false]
    (fwBuffer 5 (fbHeader false 0 0 0 9) (adj ++ [false, false, false])
      (fwBuffer 4 (fbHeader false 0 0 0 9) (adj ++ [false, true, true])
        (fwBuffer 3 (fbHeader false 0 0 0 9) (adj ++ [true, true, false])
          (fwBuffer 2 (fbHeader false 0 0 0 4) ([false, false] ++ s)
            (fwBuffer 1 (fbHeader false 0 ack 2 18) ([false, true] ++ List.replicate 16 false) d)))))

/-- Q limits (R199) and the starting Q of a campaign. -/
def qMax (d : Dev) : Nat := fld (cfg d Reg.GEN2_QUERY) 27 24
def qMin (d : Dev) : Nat := min (fld (cfg d Reg.GEN2_QUERY) 23 20) (qMax d)
def qStart (d : Dev) : Nat := min (qMax d) (max (qMin d) (fld (cfg d Reg.GEN2_QUERY) 19 16))

/-! Reserves (R36, R38, R186, R215) -/

/-- A time in units as phase units at `TIME_PERIOD`, rounded up, with an RF tail in fine ticks added. -/
def toPu (d : Dev) (w : Word) (t tail : Nat) : Nat :=
  let n := t * 160 + tail * unitsPerUs w          -- in 1/160 of a unit, that is ticks times units per us
  let den := unitsPerUs w * max 1 d.tb.period
  (n * 256 * puCycle + den - 1) / den

/-- `TIME_CUT_n` from an exchange time (R36), each half saturating. -/
def cutWord (d : Dev) (w : Word) (t : Nat) : Word :=
  let g := guardPu d
  put 15 0 (min 0xFFFF (toPu d w t 0 + g)) ||| put 31 16 (min 0xFFFF (toPu d w t (fld (cfg d Reg.TIME_TAIL) 15 0) + g))

/-- HB_N and bank of a campaign on the link in force. -/
def campaignHb (d : Dev) : Nat := hbCount (blfKhz (cfg d Reg.GEN2_LINK)) (rsmpRange (cfg d (chReg false 0x0A)))
def campaignBank (d : Dev) (short : Bool) : Nat := bankFor (blfKhz (cfg d Reg.GEN2_LINK)) (campaignHb d) short

/-- The separation latency of a campaign's bank, and the T2 ceiling check of R180. -/
def campaignSep (d : Dev) (short : Bool) : Nat :=
  (sepLatency (campaignHb d) (bankDelay d.chA (campaignBank d short))).toNat
def t2CeilingOk (d : Dev) (short : Bool) : Bool :=
  let w := cfg d Reg.GEN2_LINK
  decide ((campaignSep d short + 3 * 374400) * blfKhz w * 122 ≤ 20000 * 374400 * 100)

/-- The longest Select frame enabled, at its longest bit pattern (R186). -/
def longestSelect (d : Dev) : Nat :=
  let w := cfg d Reg.GEN2_LINK
  (((List.range 8).filter fun i => bit (cfg d Reg.GEN2_SEL_CFG) i).map fun i =>
    let h := fbWord d (16 * (8 + i))
    readerTime w (bit h 30) (fld h 8 0 + (if fld h 29 28 = 2 then 16 else if fld h 29 28 = 1 then 5 else 0)) 0).foldl max 0

/-- d of an inventory campaign in units (R186): its slot command is the Query at Q0, with target A unless TMODE always takes B. -/
def inventoryTime (d : Dev) (short : Bool) : Nat :=
  let w := cfg d Reg.GEN2_LINK
  let ack := max (t2Floor w) ((campaignSep d short + 3 * 374400) * blfKhz w)
  let sum := readerTimeOf w true (queryFrame w (cfg d Reg.GEN2_QUERY) (qStart d) (decide (fld (cfg d Reg.GEN2_QUERY) 1 0 = 1))) + t1Max w + replyTime w 16 + ack
    + readerTime w false 17 1 + t1Max w + replyTime w ((truncLen d).getD (fld (cfg d (Reg.GEN2_RDESC_0 + 1)) 9 0))
  max sum (longestSelect d)

end Sys2Proof.Machine
end

