-- ==== Sys2Proof/Machine/AccOps.lean ====
section
/-! DEFINITION. Tag access as firmware works: parameters, frames, reserves, units and their order (R201-R223). The
frame layouts and command codes are those of ISO/IEC 18000-63 (R201). -/
namespace Sys2Proof.Machine

/-! Parameters (R202, R341): a value outside its range acts as the nearer limit -/

def accAsess (o : Op) : Nat := fld (nth 0 o.block 0) 29 28
def accAcq (o : Op) : Nat := max 1 (fld (nth 0 o.block 0) 27 24)
def accRetry (o : Op) : Nat := fld (nth 0 o.block 0) 23 21
def accVerify (o : Op) : Bool := bit (nth 0 o.block 0) 20
def accXmax (o : Op) : Nat := fld (nth 0 o.block 0) 19 16
def accTwait (o : Op) : Nat := min 20000 (max 1000 (fld (nth 0 o.block 0) 15 0))
def accPassword (o : Op) : Word := nth 0 o.block 2
def accCmd (o : Op) (k : Nat) : Word := nth 0 o.block (accC o.block + k)
/-- Words of memory a Read, Write, BlockWrite or BlockErase covers, and its bank and first word. -/
def accWords (o : Op) : Nat := min 480 (max 1 (fld (accCmd o 1) 8 0))
def accBank (o : Op) : Nat := fld (accCmd o 0) 31 30
def accPtr (o : Op) : Nat := fld (accCmd o 0) 23 0
/-- Words of a block: 1 for Write, BW for BlockWrite and BlockErase, at most 61 for a Read (R210, R220). -/
def accBw (o : Op) : Nat :=
  match o.opcode with
  | 0x400 => 61
  | 0x402 => min 16 (max 1 (fld (nth 0 o.block 1) 4 0))
  | 0x403 => min 16 (max 1 (fld (nth 0 o.block 1) 4 0))
  | _ => 1

/-- The operation writes tag memory in blocks that are verified and repeated (R201). -/
def accRepeats (o : Op) : Bool := decide (0x401 ≤ o.opcode ∧ o.opcode ≤ 0x403)
/-- Its block is cover-coded by the device: Write and Kill (R201). -/
def accCovers (o : Op) : Bool := decide (o.opcode = 0x401 ∨ o.opcode = 0x405)
/-- Its command changes nothing: Read, and BlockPermalock with Read/Lock 0 (R201). -/
def accReads (o : Op) : Bool := decide (o.opcode = 0x400 ∨ (o.opcode = 0x406 ∧ bit (accCmd o 0) 29 = false))
/-- Blocks of the operation, and the words of block `i`. -/
def accBlocks (o : Op) : Nat :=
  if o.opcode ≤ 0x403 then (accWords o + accBw o - 1) / accBw o else if o.opcode = 0x405 then 2 else 1
def accBlockLen (o : Op) (i : Nat) : Nat := if o.opcode ≤ 0x403 then min (accBw o) (accWords o - i * accBw o) else 1

/-- Data word `k` of a write kind, two in a word, first in [31:16] (R341); 0 for BlockErase (R217). -/
def accDatum (o : Op) (k : Nat) : Nat :=
  if o.opcode = 0x403 then 0
  else let w := accCmd o (2 + k / 2); if k % 2 = 0 then fld w 31 16 else fld w 15 0
/-- Bits of the words of block `i`. -/
def accDataBits (o : Op) (i : Nat) : List Bool :=
  (List.range (accBlockLen o i)).flatMap fun k => bitsOf 16 (accDatum o (i * accBw o + k))

/-! Frames, without their CRC-16 (ISO/IEC 18000-63) -/

/-- A pointer as an extensible bit vector: groups of seven bits, most significant first, each led by its extension bit. -/
def ebv (p : Nat) : List Bool :=
  let groups := if p < 128 then 1 else if p < 16384 then 2 else if p < 2097152 then 3 else if p < 268435456 then 4 else 5
  (List.range groups).flatMap fun i => decide (i + 1 < groups) :: bitsOf 7 (p / 128 ^ (groups - 1 - i) % 128)

/-- Select of a target with action 0 over the EPC from bit 0x20 of its bank; its length field holds 255 at most. -/
def selectBits (target : Nat) (epc : List Bool) : List Bool :=
  [true, false, true, false] ++ bitsOf 3 target ++ [false, false, false] ++ [false, true] ++ ebv 32
    ++ bitsOf 8 (min 255 epc.length) ++ epc.take 255 ++ [false]

/-- Message bits of a TAG_AUTH (R201, R341). -/
def accMessage (o : Op) : Nat := min 432 (max 1 (fld (accCmd o 0) 11 0))

/-- Buffer and reply descriptor of a TAG_XCHG (R398). -/
def xchgBuf (o : Op) : Nat := fld (accCmd o 0) 5 0
def xchgDesc (o : Op) : Nat := fld (accCmd o 0) 11 8

/-- Buffer of an operation's command. -/
def accBuf (o : Op) : Nat := if o.opcode = 0x409 then xchgBuf o else 18

/-- Reply descriptor of an operation's command (R207). -/
def accDesc (d : Dev) (o : Op) : Word :=
  cfg d (Reg.GEN2_RDESC_0 + (if o.opcode = 0x409 then xchgDesc o else 2))

/-- Command of block `i` with its handle field as given; `half` selects a Kill half, `cover` the cover code. -/
def accFrame (o : Op) (i : Nat) (handle cover : Nat) : List Bool :=
  let c0 := accCmd o 0
  let h := bitsOf 16 handle
  let ptr := ebv (accPtr o + i * accBw o)
  match o.opcode with
  | 0x400 => bitsOf 8 0xC2 ++ bitsOf 2 (accBank o) ++ ptr ++ bitsOf 8 (accBlockLen o i) ++ h
  | 0x401 => bitsOf 8 0xC3 ++ bitsOf 2 (accBank o) ++ ptr ++ bitsOf 16 (accDatum o i ^^^ cover) ++ h
  | 0x402 => bitsOf 8 0xC7 ++ bitsOf 2 (accBank o) ++ ptr ++ bitsOf 8 (accBlockLen o i) ++ accDataBits o i ++ h
  | 0x403 => bitsOf 8 0xC8 ++ bitsOf 2 (accBank o) ++ ptr ++ bitsOf 8 (accBlockLen o i) ++ h
  | 0x404 => bitsOf 8 0xC5 ++ bitsOf 20 (fld c0 19 0) ++ h
  | 0x405 => bitsOf 8 0xC4 ++ bitsOf 16 ((if i = 0 then fld c0 31 16 else fld c0 15 0) ^^^ cover)
      ++ bitsOf 3 (if i = 0 then 0 else fld (accCmd o 1) 2 0) ++ h
  | 0x406 => bitsOf 8 0xC9 ++ bitsOf 8 0 ++ [bit c0 29] ++ bitsOf 2 (fld c0 31 30) ++ ebv (fld c0 23 0)
      ++ bitsOf 8 (fld (accCmd o 1) 7 0)
      ++ (if bit c0 29 then unpackBits (16 * fld (accCmd o 1) 7 0) (o.block.drop (accC o.block + 2)) else []) ++ h
  | 0x407 => bitsOf 16 0xE200 ++ [false, false, bit c0 31, bit c0 30] ++ bitsOf 5 (fld c0 29 25) ++ bitsOf 2 (fld c0 24 23)
      ++ [bit c0 22] ++ bitsOf 2 (fld c0 21 20) ++ h
  | _ => bitsOf 8 0xD5 ++ [false, false, bit c0 31, bit c0 30] ++ bitsOf 8 (fld c0 23 16) ++ bitsOf 12 (accMessage o)
      ++ unpackBits (accMessage o) (o.block.drop (accC o.block + 1)) ++ h

/-- Verifying Read of block `i`, and Req_RN, and an Access half. -/
def accReadFrame (o : Op) (i handle : Nat) : List Bool :=
  bitsOf 8 0xC2 ++ bitsOf 2 (accBank o) ++ ebv (accPtr o + i * accBw o) ++ bitsOf 8 (accBlockLen o i) ++ bitsOf 16 handle
def accReqRn (handle : Nat) : List Bool := bitsOf 8 0xC1 ++ bitsOf 16 handle
def accAccessFrame (half cover handle : Nat) : List Bool := bitsOf 8 0xC6 ++ bitsOf 16 (half ^^^ cover) ++ bitsOf 16 handle

/-- The command of block `i` has an immediate reply (R201). -/
def accImmediate (o : Op) (i : Nat) : Bool := accReads o || (decide (o.opcode = 0x405) && decide (i = 0))

/-- Bits of the reply to the command of a block, and of the delayed or immediate success reply (R210, R211); the reply to the first
half of a Kill is the handle and its CRC-16 (R201). -/
def accReplyBits (o : Op) (i : Nat) : Nat :=
  if o.opcode = 0x400 then 33 + 16 * accBlockLen o i
  else if accReads o then 33 + 16 * fld (accCmd o 1) 7 0
  else if o.opcode = 0x405 ∧ i = 0 then 32
  else if 0x408 ≤ o.opcode then 1023
  else 33

/-! The reserve (R215), in units of the link -/

/-- Decode latency of the chain to DEC_VALID. -/
def accLatency (d : Dev) (w : Word) : Nat :=
  (chainLatency (campaignHb d) (bankDelay d.chA (campaignBank d false)) + 187200).toNat * blfKhz w

/-- A reader frame of `n` bits at its longest, and an exchange with an immediate reply of `r` bits. -/
def accLongest (w : Word) (n : Nat) : Nat := readerTime w false n 0
def accExchange (w : Word) (n r : Nat) : Nat := accLongest w n + t1Max w + replyTime w r

/-- Req_RN and its reply up to the next frame, at a cover code (R206). -/
def accCoverTime (d : Dev) (w : Word) : Nat := accExchange w 40 32 + accLatency d w + 13 * unitsPerUs w

/-- Longest acquisition unit. -/
def accAcquireTime (d : Dev) (w : Word) (o : Op) : Nat :=
  let sel := accLongest w ((selectBits 4 (List.replicate (accMaskLen o.block) true)).length + 16)
  let gap := max (t2Floor w) (accLatency d w) + 3 * unitsPerUs w
  let one := sel + t4 w + sel + t4 w + readerTime w true 22 0 + t1Max w + replyTime w 16 + gap
    + accLongest w 18 + t1Max w + replyTime w (fld (cfg d (Reg.GEN2_RDESC_0 + 1)) 9 0) + gap + accExchange w 40 32
  if accPassword o = 0 then one else one + 2 * (accCoverTime d w + accExchange w 56 32 + gap)

/-- Longest block unit `i`. -/
def accBlockTime (d : Dev) (w : Word) (o : Op) (i : Nat) : Nat :=
  let cmd := if o.opcode = 0x409 then
      let h := fbWord d (16 * xchgBuf o)
      readerTime w (bit h 30) (fld h 8 0 + 16) 0
    else accLongest w ((accFrame o i 0 0).length + 16)
  let pre := if accCovers o then accCoverTime d w else 0
  let wait := if accImmediate o i then t1Max w
    else accTwait o * (accXmax o + 1) * unitsPerUs w + accXmax o * replyTime w 1023
  let verify := if accRepeats o && accVerify o then
      t2Floor w + 3 * unitsPerUs w + accExchange w ((accReadFrame o i 0).length + 16) (33 + 16 * accBlockLen o i)
    else 0
  pre + cmd + wait + replyTime w (accReplyBits o i) + verify

/-- d of an access operation: its longest unit; the two halves of a Kill are one unit (R201, R215). -/
def accessTime (d : Dev) (o : Op) : Nat :=
  let w := cfg d Reg.GEN2_LINK
  let blocks := if o.opcode = 0x405 then accBlockTime d w o 0 + accBlockTime d w o 1
    else ((List.range (accBlocks o)).map (accBlockTime d w o)).foldl max 0
  max (accAcquireTime d w o) blocks

/-! Buffers of an access (R207): 16 and 17 Selects, 18 command, 19 Query, 20 ACK, 21 Req_RN, 22 Read, 23 and 24 Access,
25 NAK -/

/-- Descriptor 3 for an immediate reply, with a header bit and with the handle at its end or not; 2 for a delayed or in-process one
(R207, R211). -/
def fwImmediate (hdr hnd : Bool) (len : Nat) (d : Dev) : Dev :=
  fwBoth (Reg.GEN2_RDESC_0 + 3) (putB 29 hdr ||| putB 28 hnd ||| putB 27 true ||| put 9 0 len) d
def fwDelayed (len : Nat) (d : Dev) : Dev := fwBoth (Reg.GEN2_RDESC_0 + 2) (put 31 30 2 ||| putB 27 true ||| put 9 0 len) d

/-- Selects and Query that find the tag under the EPC looked for now (R203, R223). -/
def fwAcquireBuffers (o : Op) (d : Dev) : Dev :=
  let w := cfg d Reg.GEN2_LINK
  let epc := if d.acc.oldEpc then d.acc.prevEpc else d.acc.epc
  let s1 := selectBits 4 epc
  let s2 := selectBits (accAsess o) epc
  let q := queryBits w (put 9 8 3 ||| put 5 4 (accAsess o)) 0 false
  let d := fwImmediate false false 32 d
  fwBuffer 25 (fbHeader false 0 15 0 8) (bitsOf 8 0xC0)
    (fwBuffer 21 (fbHeader false 2 3 8 24) (accReqRn 0)
      (fwBuffer 20 (fbHeader false 0 1 2 18) ([false, true] ++ List.replicate 16 false)
        (fwBuffer 19 (fbHeader true 1 0 0 q.length) q
          (fwBuffer 17 (fbHeader false 2 15 0 s2.length) s2 (fwBuffer 16 (fbHeader false 2 15 0 s1.length) s1 d)))))

/-- The command of the present block in buffer 18 with its descriptor (R207); a TAG_XCHG sends the applet's own buffer (R398). -/
def fwCommand (o : Op) (cover : Nat) (d : Dev) : Dev :=
  let i := d.acc.block
  let f := accFrame o i 0 cover
  let imm := accImmediate o i
  if o.opcode = 0x409 then d
  else
    let d := fwBuffer 18 (fbHeader false 2 (if imm then 3 else 2) (f.length - 16) f.length) f d
    if o.opcode = 0x405 ∧ i = 0 then fwImmediate false true 32 d
    else if imm then fwImmediate true true (accReplyBits o i) d
    else fwDelayed (if o.opcode = 0x408 then 1023 else 0) d

/-- The verifying Read of the present block in buffer 22 with its descriptor (R217). -/
def fwReadback (o : Op) (d : Dev) : Dev :=
  let i := d.acc.block
  let r := accReadFrame o i 0
  fwImmediate true true (33 + 16 * accBlockLen o i) (fwBuffer 22 (fbHeader false 2 3 (r.length - 16) r.length) r d)

/-- The operation reads back what its command wrote, in the same unit (R204, R217). -/
def accVerifies (o : Op) : Bool := accRepeats o && accVerify o

/-- A block's command and, where it is verified, its Read. -/
def fwBlockBuffers (o : Op) (cover : Nat) (d : Dev) : Dev :=
  let d := fwCommand o cover d
  if accVerifies o then fwReadback o d else d

end Sys2Proof.Machine
end

