-- ==== Sys2Proof/Machine/FwTables.lean ====
section
/-! DEFINITION. The twill tables firmware builds in its own range (R183, R203-R214, R508): the format of R146, and the tables of an
inventory, of thread A and of a LISTEN. Their layout is the model's own (log entry 83). -/
namespace Sys2Proof.Machine

/-! Steps (R146-R148) -/

/-- A step by its fields. -/
structure StepF where
  act : Nat := 0
  arg : Nat := 0
  ap : Bool := false
  tsafe : Bool := false
  wk : Nat := 0
  tsc : Nat := 0
  time : Nat := 0
  wcond : Nat := 0
  wneg : Bool := false
  br : Nat := 0
  bcond : Nat := 0
  bneg : Bool := false
  alt : Nat := 0
  deriving DecidableEq, Repr

/-- Its word. -/
def StepF.word (s : StepF) : DWord :=
  let b := fun (x : Bool) (i : Nat) => if x then 2 ^ i else 0
  BitVec.ofNat 64 (s.act * 2 ^ 58 + b s.ap 57 + b s.tsafe 56 + s.wk * 2 ^ 53 + s.tsc * 2 ^ 51 + s.wcond * 2 ^ 45 + b s.wneg 44
    + s.bcond * 2 ^ 38 + b s.bneg 37 + s.br * 2 ^ 35 + s.alt * 2 ^ 23 + s.time * 2 ^ 11 + s.arg)

/-- The finest scale that holds a time in fine ticks, and the time in it, rounded up (R148). -/
def timeCode (t : Nat) : Nat × Nat :=
  let up := fun (k : Nat) => (t + 16 ^ k - 1) / 16 ^ k
  if t ≤ 4095 then (0, t) else if up 1 ≤ 4095 then (1, up 1) else if up 2 ≤ 4095 then (2, up 2) else (3, min 4095 (up 3))

/-- Waits of a step: a flag, with an end counted from the fetch or from the anchor, or an instant after the anchor. -/
def StepF.flag (c : Nat) (s : StepF) : StepF := { s with wk := 3, wcond := c }
def StepF.within (t : Nat) (s : StepF) : StepF := { s with tsc := (timeCode t).1, time := (timeCode t).2 }
def StepF.flagA (c t : Nat) (s : StepF) : StepF := ({ s with wk := 5, wcond := c } : StepF).within t
def StepF.after (t : Nat) (s : StepF) : StepF := ({ s with wk := 2 } : StepF).within t
/-- Branches: always, when a condition holds, when it does not. -/
def StepF.to (i : Nat) (s : StepF) : StepF := { s with br := 1, alt := i }
def StepF.on (c i : Nat) (s : StepF) : StepF := { s with br := 2, bcond := c, alt := i }
def StepF.unless (c i : Nat) (s : StepF) : StepF := { s.on c i with bneg := true }
/-- Turn-safe abort point, and abort point alone (R159, R162). -/
def StepF.safe (s : StepF) : StepF := { s with ap := true, tsafe := true }
def StepF.point (s : StepF) : StepF := { s with ap := true }

/-- Actions (R150). -/
def nop : StepF := {}
def signalClear (k : Nat) : StepF := { act := 0x07, arg := 8 + k }
def signalSet (k : Nat) : StepF := { act := 0x07, arg := k }
def anchorAt (src : Nat) : StepF := { act := 0x06, arg := src }
def postLog (code : Nat) : StepF := { act := 0x08, arg := code }
def postBell (code : Nat) : StepF := { act := 0x08, arg := 512 + code }
def radioTo (st : Nat) : StepF := { act := 0x10, arg := st }
def hopNext : StepF := { act := 0x11 }
def hopNamed (e : Nat) : StepF := { act := 0x11, arg := 64 + e }
def txf (b : Nat) (exs : Bool) (ins : Nat) : StepF := { act := 0x13, arg := 32 * b + (if exs then 16 else 0) + 2 * ins }
def rxopen (div sep pair : Bool) : StepF :=
  { act := 0x20, arg := 15 + (if div then 16 else 0) + (if sep then 32 else 0) + (if pair then 64 else 0) }
/-- The SLOT wait of a step. -/
def StepF.slot (s : StepF) : StepF := { s with wk := 4 }
/-- A step waits for TX_END and sets the anchor to it; a frame cut short never ends, and the wait ends after 50 ms. -/
def txEndStep : StepF := ((anchorAt 1).flag 0x11).within (us 50000)

/-! Writing a table (R166, R367, R508) -/

/-- Steps at successive indices. -/
def stepsFrom (i : Nat) (ss : List StepF) : List (Nat × DWord) := ss.zipIdx.map fun p => (i + p.2, p.1.word)

/-- The steps of the indices `lo` to `hi - 1` of a table are these, in rising order; the rest of them is unused. -/
def tabWrite (lo hi : Nat) (ss : List (Nat × DWord)) (m : CMap DWord) : CMap DWord :=
  m.filter (fun e => e.1 < lo) ++ ss.filter (fun e => decide (lo ≤ e.1 ∧ e.1 < hi) && e.2 != tabDefault e.1) ++ m.filter (fun e => hi ≤ e.1)

/-- Firmware writes a part of its table, in both sets or, while its shadow writes are held back, in the active one. -/
def fwTable (lo hi : Nat) (ss : List (Nat × DWord)) (d : Dev) : Dev :=
  fwSets (fun c => { c with tab := tabWrite lo hi ss c.tab }) d

/-! Times of the tables -/

/-- A time of a link in fine ticks, rounded up. -/
def ticksUp (w : Word) (u : Nat) : Nat := (u * 160 + unitsPerUs w - 1) / unitsPerUs w

/-- Energy timeout in us: `GEN2_RND.ETMO`, or T1 max, the latency to the channel filter and two TE blocks, rounded up (R181). -/
def energyUs (d : Dev) (short : Bool) : Nat :=
  let w := cfg d Reg.GEN2_LINK
  let e := fld (cfg d Reg.GEN2_RND) 15 8
  if e ≠ 0 then e
  else
    let hb := campaignHb d
    let step : Nat := 2 ^ hb * 2080
    let lat := (stagesLatency hb : Int) + bankDelay d.chA (campaignBank d short) * step
    let t : Nat := t1Max w + (lat.toNat + 2 * 2 ^ fld (cfg d (chReg false 0x0D)) 27 24 * step) * blfKhz w
    (t + unitsPerUs w - 1) / unitsPerUs w

/-- Wait for the reply to an ACK (R183): 310 us, and longer on a link whose reply of PC, EPC-96 and CRC-16 lasts longer. -/
def replyUs (d : Dev) (short : Bool) : Nat :=
  let w := cfg d Reg.GEN2_LINK
  let lat := ((chainLatency (campaignHb d) (bankDelay d.chA (campaignBank d short)) + 187200).toNat) * blfKhz w
  max 310 (10 * ((t1Max w + replyTime w 128 + lat + 10 * unitsPerUs w - 1) / (10 * unitsPerUs w)))

/-! The inventory table (R182, R183, R192) -/

/-- First window 0x100, further windows 0x120, Query head 0x140, reply 0x160, ACK 0x168, NAK 0x170, end of a round 0x178, and the slot
heads of endings 1 to 4 from 0x180. -/
def fwFirst : Nat := 0x100
def fwNext : Nat := 0x120
def fwQuery : Nat := 0x140
def fwReply : Nat := 0x160
def fwAck : Nat := 0x168
def fwNak : Nat := 0x170
def fwRoundEnd : Nat := 0x178
def fwHead (ending : Nat) : Nat := 0x160 + 0x20 * ending

/-- The Select frames of a campaign in ascending order, T4 apart (R179); a refusal leads to a step. -/
def selectSteps (d : Dev) (refused : Nat) : List StepF :=
  let t4 := ticksUp (cfg d Reg.GEN2_LINK) (t4 (cfg d Reg.GEN2_LINK))
  ((List.range 8).filter fun i => bit (cfg d Reg.GEN2_SEL_CFG) i).flatMap fun i =>
    [((txf (8 + i) true 0).after t4).on 0x03 refused, txEndStep]

/-- `GEN2_SEL_CFG.WHEN`; 3 acts as 2 (R200). -/
def selectWhen (d : Dev) : Nat := min 2 (fld (cfg d Reg.GEN2_SEL_CFG) 9 8)

/-- A window starts (R183): the hop of a campaign that hops per window, the carrier, the canceller, the Selects. -/
def windowSteps (d : Dev) (base : Nat) (hop : Bool) (sel : Bool) : List StepF :=
  (if hop then [(hopNext.safe.slot).on 0x03 fwNext, (radioTo 3).on 0x03 fwNext] else [((radioTo 3).safe.slot).on 0x03 fwNext])
    ++ [(nop.flag 0x12).within (us 60)] ++ (if sel then selectSteps d base else []) ++ [nop.to fwQuery]

/-- The Query head (R179, R183, R194). -/
def querySteps (d : Dev) : List StepF :=
  let w := cfg d Reg.GEN2_LINK
  let sel := if selectWhen d = 2 then selectSteps d fwNext else []
  sel ++ [((nop.flag 0x0C).safe).on 0x05 fwNext, signalClear 4,
    ((txf 0 true 0).after (max (ticksUp w (t4 w)) (16 * t2Tenths w))).on 0x03 (fwQuery + sel.length + 4), nop.to fwReply,
    (postLog 5).to (fwRoundEnd + 7)]

/-- The slot head after an ending (R183, R185, R189): the tests, the slot command, the previous ending's entry; an adjustment clears
its flag. CUT is tested two fine ticks ahead of the frame. -/
def headSteps (d : Dev) (ending : Nat) : List StepF :=
  let w := cfg d Reg.GEN2_LINK
  let h := fwHead ending
  let cut : StepF := (if ending ≤ 2 then nop.after (16 * t2Tenths w) else if ending = 4 then nop.after (ticksUp w (t4 w)) else nop).safe.on 0x05 (h + 20)
  let send := fun (b : Nat) => [(txf b true 0).on 0x03 (h + 22), (postLog ending).to fwReply]
  [((if ending ≤ 2 then anchorAt 2 else nop).safe).on 0x19 (h + 20), nop.safe.on 0x0B (h + 20), nop.safe.on 0x08 (h + 8),
    nop.safe.on 0x09 (h + 12), nop.safe.on 0x0A (h + 16), cut] ++ send 2
    ++ [signalClear 0, cut] ++ send 3 ++ [signalClear 1, cut] ++ send 4 ++ [signalClear 2, cut] ++ send 5
    ++ [radioTo 3, (postLog ending).to fwRoundEnd, radioTo 3, postLog ending, (postLog 5).to (fwRoundEnd + 7)]

/-- The inventory table of a campaign: it hops at each window start or not, with a minimum-phase bank or not (R183, R340). -/
def inventorySteps (d : Dev) (hop short : Bool) : List (Nat × DWord) :=
  let w := cfg d Reg.GEN2_LINK
  let t2 := 16 * t2Tenths w
  let done := if bit (cfg d Reg.RXD_SEP_CFG) 0 then 0x27 else 0x2C
  stepsFrom fwFirst (windowSteps d fwFirst hop (selectWhen d ≤ 1))
    ++ stepsFrom fwNext (windowSteps d fwNext hop (selectWhen d = 1))
    ++ stepsFrom fwQuery (querySteps d)
    ++ stepsFrom fwReply [txEndStep, (nop.flagA 0x22 (us (energyUs d short))).unless 0x01 (fwReply + 3), nop.unless 0x23 (fwHead 3),
        (nop.flagA done (us (fld (cfg d Reg.GEN2_RND) 23 16))).on 0x01 (fwHead 3), nop.on 0x2C fwAck, nop.to (fwHead 2)]
    ++ stepsFrom fwAck [anchorAt 2, ((txf 1 false 1).after t2).on 0x03 (fwHead 4 + 20), txEndStep,
        (nop.flagA 0x2A (us (replyUs d short))).unless 0x2B fwNak, nop.to (fwHead 1)]
    ++ stepsFrom fwNak [anchorAt 2, ((txf 6 false 0).after t2).on 0x03 (fwHead 4 + 20), txEndStep, nop.to (fwHead 4)]
    ++ stepsFrom fwRoundEnd [(postLog 0x10).on 0x05 fwNext, nop.on 0x19 (fwRoundEnd + 3), nop.to fwQuery, hopNext.on 0x03 fwNext,
        (nop.flag 0x12).within (us 60), nop.to fwQuery]
    ++ stepsFrom (fwRoundEnd + 7) [(postLog 0x10).to fwNext]
    ++ [1, 2, 3, 4].flatMap fun e => stepsFrom (fwHead e) (headSteps d e)

/-! Thread A (R183) -/

/-- Thread A waits for the next frame. -/
def notTxEnd : StepF := { (nop.flag 0x11).safe with wneg := true }

/-- The loop of thread A: a window after every TX_END. -/
def fwLoop : Nat := 0x200
def loopSteps (pair : Bool) : List (Nat × DWord) :=
  stepsFrom fwLoop [notTxEnd, ((rxopen pair true pair).flag 0x11).to fwLoop]

/-- The loop of an access whose reply may ask for more time or names a descriptor of its own: while SW7 is set the window is that of
the command, and a fall of SW7 opens it once more (R213, R398). -/
def fwReopen : Nat := 0x210
def reopenSteps (desc : Nat) : List (Nat × DWord) :=
  let own : StepF := { rxopen true true true with arg := desc + 112 }
  stepsFrom fwReopen [notTxEnd, (nop.flag 0x11).on 0x0F (fwReopen + 3), (rxopen true true true).to fwReopen, own,
    nop.safe.unless 0x0F (fwReopen + 7), nop.safe.on 0x11 (fwReopen + 4), nop.to fwReopen, signalSet 7, own.to (fwReopen + 4)]

/-! LISTEN (R340) -/

/-- A LISTEN takes its entries in ascending order: it listens, tunes from there, waits for lock, dwells and posts. Its abort points
stand between entries (R339). -/
def fwListen : Nat := 0x400
def listenSteps (entries : List Nat) (dwell : Nat) : List (Nat × DWord) :=
  let wait : StepF := (nop.flag 0x10).within (us 2000)
  let delay := fun (t : Nat) => ({ nop with wk := 1 } : StepF).within (us t)
  stepsFrom fwListen ([nop.safe.slot] ++ (entries.flatMap fun e =>
    [(radioTo 6).point, wait, delay 5, hopNamed e, wait, delay dwell, postLog 0]) ++ [{ act := 0x01 }])

end Sys2Proof.Machine
end

