-- ==== Sys2Proof/Machine/AccTable.lean ====
section
/-! DEFINITION. The twill table of a tag access, which firmware builds again for each unit, and the unit it prepares (R203-R223). The
layout of the table is the model's own (log entry 83). -/
namespace Sys2Proof.Machine

/-! The access table (R204, R205, R208, R212-R214) -/

/-- Window start 0x300 with the acquisition from 0x302, Access pair 0x360, block head 0x340 and its body 0x346, the second half of a
Kill 0x344, expiry 0x3C0, a handle given up at a head 0x3D8, a refusal 0x3E0, the end of an acquisition 0x3F0 and of a block 0x3F4. -/
def fwAccess : Nat := 0x300
def fwAcquire : Nat := 0x302
def fwBlock : Nat := 0x340
def fwHalf : Nat := 0x344
def fwBody : Nat := 0x346
def fwPair : Nat := 0x360
def fwExpiry : Nat := 0x3C0
def fwGiveUp : Nat := 0x3D8
def fwRefused : Nat := 0x3E0
def fwAcquired : Nat := 0x3F0
def fwBlockDone : Nat := 0x3F4

/-- A frame of an access goes out; a refusal gives the unit up. -/
def accSend (b : Nat) (exs : Bool) (ins : Nat) : StepF := (txf b exs ins).on 0x03 fwRefused

/-- Wait from TX_END for an immediate reply of `n` bits, with its decode latency and 1 us. -/
def accWait (d : Dev) (n : Nat) : Nat :=
  let w := cfg d Reg.GEN2_LINK
  ticksUp w (t1Max w + replyTime w n + accLatency d w + unitsPerUs w)

/-- Wait from TX_END for a delayed or in-process reply (R212): TWAIT and the longest reply of its descriptor. -/
def accLongWait (d : Dev) (o : Op) : Nat :=
  let w := cfg d Reg.GEN2_LINK
  let n := fld (accDesc d o) 9 0
  us (accTwait o) + ticksUp w (replyTime w (if n = 0 then 41 else n))

/-- The acquisition (R203): two Selects, Query, ACK, NAK to another tag, Req_RN. -/
def acquireSteps (d : Dev) (o : Op) : List StepF :=
  let w := cfg d Reg.GEN2_LINK
  let t2 := 16 * t2Tenths w
  let t4 := ticksUp w (t4 w)
  let done := if bit (cfg d Reg.RXD_SEP_CFG) 0 then 0x27 else 0x2C
  [signalClear 6, nop.safe.slot, (nop.flag 0x0D).safe, signalClear 5, (radioTo 3).on 0x03 fwRefused, (nop.flag 0x12).within (us 60),
    accSend 16 true 0, signalClear 7, txEndStep, (accSend 17 false 0).after t4, txEndStep, (accSend 19 false 0).after t4, txEndStep,
    (nop.flagA done (us (fld (cfg d Reg.GEN2_RND) 23 16))).unless 0x2C fwAcquired, anchorAt 2, (accSend 20 false 1).after t2, txEndStep,
    (nop.flagA 0x2A (accWait d (accMaskLen o.block + 48))).unless 0x2B fwAcquired, anchorAt 2, (nop.after t2).unless 0x0D 0x318,
    signalClear 5, accSend 21 false 0, txEndStep, (nop.flagA 0x2A (accWait d 32)).to fwAcquired,
    accSend 25 false 0, txEndStep, (nop.after t4).to fwAcquired]

/-- One half of the Access pair: Req_RN, its cover code, Access (R203). -/
def pairSteps (d : Dev) (half done : Nat) : List StepF :=
  let t2 := 16 * t2Tenths (cfg d Reg.GEN2_LINK)
  [anchorAt 2, (accSend 21 false 2).after t2, txEndStep, (nop.flagA 0x2A (accWait d 32)).unless 0x2B done, nop.flag 0x0D, signalClear 5,
    accSend (23 + half) false 2, txEndStep, (nop.flagA 0x2A (accWait d 32)).unless 0x2B done, nop.unless 0x2F done]

/-- The verifying Read (R217), from its frame on. -/
def readSteps (d : Dev) (o : Op) (i : Nat) (first : StepF) : List StepF :=
  [first, txEndStep, (nop.flagA 0x2A (accWait d (max 41 (33 + 16 * accBlockLen o i)))).to fwBlockDone]

/-- The command of a block and what follows it in its unit (R204, R211-R214, R217), at an index of the table. -/
def commandSteps (d : Dev) (o : Op) (i at_ : Nat) (exs : Bool) : List StepF :=
  let b := accBuf o
  let k := fld (accDesc d o) 31 30
  let n := fld (accDesc d o) 9 0
  if accImmediate o i ∨ (o.opcode = 0x409 ∧ k ≠ 2) then
    [signalSet 7, accSend b exs 2, txEndStep,
      (nop.flagA 0x2A (accWait d (if o.opcode = 0x409 then n else max 41 (accReplyBits o i)))).to fwBlockDone]
  else if n ≠ 0 then
    -- the wait is at `at_ + 4`; a working reply comes back to it
    [signalSet 7, { act := 0x05, arg := accXmax o + 1 }, accSend b exs 2, txEndStep,
      (nop.flagA 0x2A (accLongWait d o)).on 0x01 fwExpiry, nop.unless 0x2B fwExpiry, nop.unless 0x2F fwExpiry, nop.on 0x0D fwBlockDone,
      { act := 0x04, alt := at_ + 10 }, nop.to fwExpiry, anchorAt 2, signalClear 7,
      ({ nop.flag 0x2A with wneg := true } : StepF).to (at_ + 4)]
  else
    [accSend b exs 2, txEndStep, (nop.flagA 0x2A (accLongWait d o)).on 0x01 fwExpiry, nop.unless 0x2B fwExpiry, nop.unless 0x2F fwExpiry]
      ++ (if accVerifies o then
            (anchorAt 2).on 0x30 fwBlockDone :: readSteps d o i ((accSend 22 false 2).after (16 * t2Tenths (cfg d Reg.GEN2_LINK)))
          else [nop.to fwBlockDone])

/-- The body of the block unit that comes next (R204). Only its first frame carries EXS; the second half of a Kill begins none. -/
def blockSteps (d : Dev) (o : Op) : List StepF :=
  let i := d.acc.block
  let exs := !(decide (o.opcode = 0x405) && decide (i ≠ 0))
  match d.acc.phase with
  | .cover => [accSend 21 exs 2, txEndStep, (nop.flagA 0x2A (accWait d 32)).unless 0x2B fwBlockDone, nop.flag 0x0D, signalClear 5]
      ++ commandSteps d o i (fwBody + 5) false
  | .readback => readSteps d o i (accSend 22 exs 2)
  | .access => [nop.to (fwPair + 2)]
  | _ => commandSteps d o i fwBody exs

/-- The whole table. Acquisition heads are turn-safe abort points, the block head is an abort point (R208); between the halves of a
Kill there is none. -/
def accessSteps (d : Dev) (o : Op) : List (Nat × DWord) :=
  let done := fwPair + 22
  let next := if o.opcode = 0x405 ∧ d.acc.block = 0 then fwHalf else fwBlock
  stepsFrom fwAccess (acquireSteps d o)
    ++ stepsFrom fwBlock [((nop.flag 0x0D).point).unless 0x0E fwAcquire, (signalClear 5).on 0x05 fwGiveUp, nop.to fwBody]
    ++ stepsFrom fwHalf [(nop.flag 0x0D).unless 0x0E fwAcquire, signalClear 5]
    ++ stepsFrom fwBody (blockSteps d o)
    ++ stepsFrom fwPair ([(nop.flag 0x0D).unless 0x0E fwAcquire, signalClear 5] ++ pairSteps d 0 done ++ pairSteps d 1 done
        ++ [(postBell bellUnit).to fwBlock])
    ++ stepsFrom fwExpiry [radioTo 2, signalClear 6, (postBell bellUnit).to fwAccess]
    ++ stepsFrom fwGiveUp [radioTo 2, signalClear 6, (postBell bellDrop).to fwAccess]
    ++ stepsFrom fwRefused [signalClear 6, (postBell bellRefused).to fwAccess]
    ++ stepsFrom fwAcquired [(postBell bellUnit).to (if accPassword o = 0 then fwBlock else fwPair)]
    ++ stepsFrom fwBlockDone [(postBell bellUnit).to next]

/-! Units (R203-R223) -/

/-- What the operation does once its tag is open: cover code, read-back of an unconfirmed block, or command (R204, R218). -/
def blockPhase (o : Op) (a : Access) : AccPhase :=
  if a.unconf then .readback else if accCovers o then .cover else .command

/-- The buffers of the unit that comes next (R207). -/
def fwUnit (o : Op) (d : Dev) : Dev :=
  match d.acc.phase with
  | .acquire => fwAcquireBuffers o d
  | .access =>
    let pw := accPassword o
    fwImmediate false true 32
      (fwBuffer 24 (fbHeader false 2 3 24 40) (accAccessFrame (fld pw 15 0) 0 0)
        (fwBuffer 23 (fbHeader false 2 3 24 40) (accAccessFrame (fld pw 31 16) 0 0) d))
  | .cover => fwImmediate false false 32 d
  | .command => fwBlockBuffers o 0 d
  | .readback => fwReadback o d

/-- Firmware prepares the unit that comes next, its table and its buffers, and sets SW5; SW6 tells that a handle is held (R205, R207). -/
def accPrepare (o : Op) (d : Dev) : Dev :=
  let d := fwUnit o { d with acc := { d.acc with prepared := d.now } }
  let d := fwTable 0x300 0x400 (accessSteps d o) d
  setSw 6 d.acc.handle.isSome (setSw 5 true d)

/-- The tag is to be acquired (again): no handle, and the carrier has dropped (R205, R214). -/
def accReacquire (o : Op) (d : Dev) : Dev :=
  accPrepare o { d with acc := { d.acc with phase := .acquire, handle := none, working := 0 } }

/-- Access state of an operation that starts: its mask, or what it left at its suspension (R222). -/
def accStart (o : Op) : Access :=
  match o.saved with
  | some a => { a with op := some o.tag, phase := .acquire, handle := none, acqTries := 0, passTries := 0, working := 0 }
  | none => { Access.reset with op := some o.tag, epc := unpackBits (accMaskLen o.block) (o.block.drop 3) }

/-- EPC bits under a write of a word of the EPC bank at `ptr` (R223): word 2 holds the first 16 bits. -/
def epcWrite (ptr v : Nat) (epc : List Bool) : List Bool :=
  if ptr < 2 then epc
  else (epc.take (16 * (ptr - 2)) ++ bitsOf 16 v ++ epc.drop (16 * (ptr - 2) + 16)).take epc.length

/-- EPC after block `i` of the operation is in the tag. -/
def epcAfter (o : Op) (i : Nat) (epc : List Bool) : List Bool :=
  if accRepeats o ∧ accBank o = 1 then
    (List.range (accBlockLen o i)).foldl (fun e k => epcWrite (accPtr o + i * accBw o + k) (accDatum o (i * accBw o + k)) e) epc
  else epc

/-- The present block is left UNCONFIRMED (R218, R223). -/
def accUnconfirmed (o : Op) (cause : Nat) (d : Dev) : Dev :=
  let a := d.acc
  let a := if a.unconf then a else { a with prevEpc := a.epc, epc := epcAfter o a.block a.epc, oldEpc := false }
  { d with acc := { a with unconf := true, cause := cause } }


end Sys2Proof.Machine
end

