-- ==== Sys2Proof/Machine/HfTable.lean ====
section
/-! DEFINITION. The HF frames firmware sends, and the twill table of thread H that sends one and takes the reply (R257-R267). The frames
are those of ISO/IEC 14443, ISO/IEC 15693 and JIS X 6319-4, which the rules name (log entry 44); the layout of the table is the
model's own (log entry 108). -/
namespace Sys2Proof.Machine

/-! Bytes in the order of a protocol: least significant bit first, in JIS X 6319-4 most significant bit first -/

def hfByte (p v : Nat) : List Bool := if p = 5 then bitsOf 8 v else (bitsOf 8 v).reverse
def hfBytes (p : Nat) (bs : List Nat) : List Bool := bs.flatMap (hfByte p)

/-- The whole bytes of a frame's bits; `fuel` bounds them. -/
def hfRead (p : Nat) : Nat → List Bool → List Nat
  | 0, _ => []
  | fuel + 1, bs =>
    if bs.length < 8 then []
    else natOfBits (if p = 5 then bs.take 8 else (bs.take 8).reverse) :: hfRead p fuel (bs.drop 8)

/-! Parameters (R340, R274) -/

/-- The operation asks for the block protocol; it wakes halted cards; its protocols, as codes of R263, in order. -/
def hfIso4 (o : Op) : Bool := decide (o.opcode = 0x500) && bit (nth 0 o.block 0) 5
def hfWake (o : Op) : Bool := bit (nth 0 o.block 0) 6
def hfProtos (o : Op) : List Nat := [(0, 0), (1, 2), (2, 3), (3, 5)].filterMap fun p => if bit (nth 0 o.block 0) p.1 then some p.2 else none

/-- Slots of a new loop (R260, R274): 16 for ISO/IEC 15693. -/
def acSlots (d : Dev) (proto : Nat) : Nat :=
  let c := cfg d Reg.HF_AC_CFG
  match proto with
  | 2 => 2 ^ min 4 (fld c 6 4)
  | 3 => 16
  | 5 => 2 ^ min 4 (fld c 3 1)
  | _ => 0

/-- An inventory of ISO/IEC 15693 has 16 slots while its mask leaves four bits of a UID, and one slot then. -/
def tagSlots (known : List Bool) : Nat := if known.length ≤ 60 then 16 else 1

/-- The CID a card gets: 1 when `CID_EN` is 1, none else (R264; log entry 44). -/
def hfCid (d : Dev) : Nat := if bit (cfg d Reg.HF_ISO4_CFG) 3 then 1 else 0
def isoStat (d : Dev) : Word := reg d Reg.HF_ISO4_STAT

/-- Bytes of a card's frames by its FSCI; codes above 8 act as 8. -/
def fscBytes (c : Nat) : Nat := nth 256 [16, 24, 32, 40, 48, 64, 96, 128] c

/-- Bytes of a command, and the next part of it that a block carries (R266). -/
def apduBytes (o : Op) : List Nat :=
  ((o.block.drop 1).flatMap fun w => [fld w 31 24, fld w 23 16, fld w 15 8, fld w 7 0]).take (fld (nth 0 o.block 0) 12 0)
def apduPart (d : Dev) (o : Op) (sent : Nat) : List Nat :=
  ((apduBytes o).drop sent).take (fscBytes (fld (isoStat d) 27 24) - 3 - (if fld (isoStat d) 19 16 = 0 then 0 else 1))
def apduMore (d : Dev) (o : Op) (sent : Nat) : Bool := decide (sent + (apduPart d o sent).length < (apduBytes o).length)

/-- A block: its PCB, the CID in use, and what it carries. -/
def isoBlock (d : Dev) (pcb : Nat) (inf : List Nat) : List Nat :=
  let cid := fld (isoStat d) 19 16
  if cid = 0 then pcb :: inf else (pcb + 8) :: cid :: inf
def blkNum (d : Dev) : Nat := fld (isoStat d) 1 1

/-- SEL of a cascade level (R260). -/
def selByte (level : Nat) : Nat := 0x91 + 2 * level

/-! Exchanges -/

/-- An exchange of the table: the bits of its frame ahead of the check code, none when it only listens; its protocol; whether a
CRC-16 and parity go with it and its reply; the longest reply in bits, 0 for none; and the wait for it in fine ticks. -/
structure HfX where
  bits : List Bool
  proto : Nat
  crc : Bool
  par : Bool
  reply : Nat
  wait : Nat
  deriving DecidableEq, Repr

/-- Longest reply of a block exchange, of the frame size offered in RATS and ATTRIB. -/
def blockReply (d : Dev) : Nat := 8 * fscBytes (fld (cfg d Reg.HF_ISO4_CFG) 11 8)

/-- Time through the last of `n` slots of a Polling (R257), rounded up to a microsecond. -/
def pollWait (n : Nat) : Nat := us (2417 + (12083 * n + 9) / 10)

/-- Wait of a block (R265): FWT, or what the last S(WTX) granted, and 400 us. -/
def blockWait (d : Dev) : Nat := d.hf.wtx.getD (fwtTicks d) + us 400

/-- The exchange of a step (R257, R260-R266). -/
def hfX (d : Dev) (o : Op) (a : AcState) : HfX :=
  let iso := cfg d Reg.HF_ISO4_CFG
  let typeA := fun (bs : List Bool) (crc : Bool) (reply : Nat) => (⟨bs, 0, crc, true, reply, us 200⟩ : HfX)
  let typeB := fun (bs : List Nat) (reply : Nat) => (⟨hfBytes 2 bs, 2, true, false, reply, us 1000⟩ : HfX)
  let tag := fun (bs : List Bool) (crc : Bool) (reply : Nat) => (⟨bs, 3, crc, false, reply, us 400⟩ : HfX)
  let block := fun (bs : List Nat) => (⟨hfBytes a.proto bs, a.proto, true, decide (a.proto = 0), blockReply d, blockWait d⟩ : HfX)
  let k := a.known.length
  let w := nth 0 o.block 1
  match a.step with
  | .reqa => ⟨(bitsOf 7 (if hfWake o then 0x52 else 0x26)).reverse, 0, false, false, 16, us 200⟩
  | .anticoll => typeA (hfBytes 0 [selByte a.level, 16 * (2 + k / 8) + k % 8] ++ a.known) false 40
  | .select => typeA (hfBytes 0 [selByte a.level, 0x70] ++ a.known) true 24
  | .hlta => typeA (hfBytes 0 [0x50, 0]) true 0
  | .rats => ⟨hfBytes 0 [0xE0, 16 * fld iso 11 8 + hfCid d], 0, true, true, 176, fwiTicks 4 + us 400⟩
  | .reqb =>
    typeB (if a.slot = 0 then [0x05, if bit w 8 then fld w 7 0 else 0, Nat.log2 a.slots + (if hfWake o then 8 else 0)]
      else [16 * a.slot + 5]) 120
  | .attrib => typeB (0x1D :: a.uid ++ [0, fld iso 11 8, 1, hfCid d]) 24
  | .hltb => typeB (0x50 :: a.uid) 24
  | .inventory =>
    if a.slot = 0 then
      tag (hfBytes 3 ([6 + (if tagSlots a.known = 1 then 0x20 else 0) + (if bit w 8 then 0x10 else 0), 1]
        ++ (if bit w 8 then [fld w 7 0] else []) ++ [k]) ++ a.known ++ List.replicate ((8 - k % 8) % 8) false) true 96
    else tag [false] false 96
  | .quiet => tag (hfBytes 3 ([0x22, 2] ++ a.uid)) true 0
  | .polling => ⟨hfBytes 5 [6, 0, fld w 31 24, fld w 23 16, 1, a.slots - 1], 5, true, false, 176, pollWait a.slots⟩
  | .listen => ⟨[], 5, true, false, 176, pollWait (a.slots - a.slot)⟩
  | .iblock => block (isoBlock d (2 + blkNum d + (if apduMore d o a.sent then 0x10 else 0)) (apduPart d o a.sent))
  | .rack => block (isoBlock d (0xA2 + blkNum d) [])
  | .rnak => block (isoBlock d (0xB2 + blkNum d) [])
  | .wtx => block (isoBlock d 0xF2 [fld (isoStat d) 15 8])
  | .deselect _ => block (isoBlock d 0xC2 [])
  | _ => ⟨[], 0, false, false, 0, 0⟩

/-! Times, in periods of the carrier (the frames of the standards; log entry 44) -/

/-- Duration of a reader's frame and of a card's, of `n` bits with their check code. -/
def hfReaderTime (d : Dev) (p n : Nat) : Nat :=
  match p with
  | 0 => 128 * (n + n / 8 + 2)
  | 2 => 128 * (25 + 10 * (n / 8))
  | 3 => if n = 1 then 512 else 1536 + (if bit (cfg d Reg.HF_MOD_CFG) 0 then 8192 else 512) * n
  | _ => 64 * (64 + n)
def hfCardTime (p n : Nat) : Nat :=
  match p with
  | 0 => 128 * (n + n / 8 + 2)
  | 2 => 128 * (25 + 12 * (n / 8))
  | 3 => 4096 + 512 * n
  | _ => 64 * (64 + n)

/-- Periods of 13.56 MHz in fine ticks, rounded up. -/
def fcTicks (n : Nat) : Nat := (16000 * n + 1355) / 1356

/-- d of an exchange (R258): its frame, the wait, which is WPLAN at most in the block protocol, and the longest reply. -/
def hfXTime (d : Dev) (a : AcState) (x : HfX) : Nat :=
  let plan := us (10 * fld (cfg d Reg.HF_ISO4_CFG) 23 12)
  let block := match a.step with | .rats => true | .iblock => true | .rack => true | .rnak => true | .wtx => true | .deselect _ => true | _ => false
  let wait := if block then min (x.wait - us 400) plan else x.wait
  fcTicks (hfReaderTime d x.proto (x.bits.length + (if x.crc then 16 else 0))) + (if x.reply = 0 then 0 else wait + fcTicks (hfCardTime x.proto x.reply))

/-- The longest exchange an operation may need (R38, R258). -/
def hfLongest (d : Dev) (o : Op) : Nat :=
  let at_ := fun (p : Nat) (s : HfStep) =>
    let a := { AcState.reset with step := s, proto := p, level := 1, known := List.replicate 40 false, slots := 16, uid := List.replicate 4 0 }
    hfXTime d a (hfX d o a)
  let l := if o.opcode = 0x501 then [at_ d.hf.ac.proto .iblock]
    else (hfProtos o).flatMap fun p =>
      match p with
      | 0 => at_ 0 .select :: (if hfIso4 o then [at_ 0 .rats] else [])
      | 2 => [at_ 2 .reqb, at_ 2 .attrib]
      | 3 => [at_ 3 .inventory]
      | _ => [hfXTime d { AcState.reset with slots := acSlots d 5 } (hfX d o { AcState.reset with step := .polling, slots := acSlots d 5 })]
  l.foldl max 0

/-- Reserve of thread H for an exchange of `t` fine ticks (R36, R258). -/
def hfCut (t : Nat) (d : Dev) : Dev :=
  let pu := fun (x : Nat) => (x * 256 * puCycle + max 1 d.tb.period - 1) / max 1 d.tb.period
  let g := guardPu d
  let d := { d with tb := { d.tb with cutPeriod := d.tb.period } }
  fwBoth Reg.TIME_CUT_H (put 15 0 (min 0xFFFF (pu t + g)) ||| put 31 16 (min 0xFFFF (pu (t + fld (cfg d Reg.TIME_TAIL) 15 0) + g))) d

/-! The table -/

/-- The two halves of the table, which take turns; the steps in which thread H waits for the next exchange, by half; the HF buffer
of a half, and its reply descriptor. -/
def fwHf : Nat := 0x600
def hfBase (area : Bool) : Nat := fwHf + (if area then 0x40 else 0)
def hfPoll (area : Bool) : Nat := hfBase area + 0x38
def hfBuf (area : Bool) : Nat := if area then 4 else 0
def hfDesc (area : Bool) : Nat := if area then 1 else 0

def delayStep (t : Nat) : StepF := ({ nop with wk := 1 } : StepF).within t
def hftx (b : Nat) (exs : Bool) : StepF := { act := 0x31, arg := 32 * b + (if exs then 16 else 0) }
def hfrx (i : Nat) : StepF := { act := 0x32, arg := i }
def hfClose : StepF := { act := 0x33 }

/-- The exchange begins a loop of a campaign, or the chain of a command (R262, R267). -/
def hfHead (a : AcState) : Bool :=
  match a.step with
  | .reqa => true
  | .reqb => decide (a.slot = 0 ∧ a.repeats = 0)
  | .inventory => decide (a.slot = 0 ∧ a.known = [])
  | .polling => decide (a.repeats = 0)
  | .iblock => decide (a.sent = 0 ∧ a.tries = 0)
  | .hold => true
  | _ => false

/-- Frames that continue an exchange carry no EXS: what the block protocol sends after its first block (R259). -/
def hfExs (a : AcState) : Bool := match a.step with | .rack => false | .rnak => false | .wtx => false | .deselect _ => false | _ => true

/-- Wait from the end of the last card frame to the next reader frame (R257, R264): GUARD, at least 87 us; t2 of ISO/IEC 15693; SFGT after
an ATS. -/
def hfGuard (d : Dev) (a : AcState) : Nat :=
  let g := us (max 87 (fld (cfg d Reg.HF_RX_CFG) 15 8))
  let sfgi := fld (isoStat d) 23 20
  if a.proto = 3 then max g (fcTicks 4192)
  else if bit (isoStat d) 0 ∧ sfgi ≠ 15 then max g (fwiTicks sfgi) else g

/-- Wait for a decoded frame from the anchor, in parts of at most 100 ms. -/
def hfWaitSteps (base t : Nat) : List StepF :=
  let n := (t + us 100000 - 1) / us 100000
  if n ≤ 1 then [nop.flagA 0x32 t]
  else [{ act := 0x05, arg := min 511 n }, ((nop.flag 0x32).within (us 100000)).unless 0x01 (base + 3), { act := 0x04, alt := base + 1 }]

/-- The steps of an exchange (R248, R257, R260, R262, R267). A loop that finds the field off takes its window and the field first. -/
def hfSteps (d : Dev) (o : Op) : List StepF :=
  let a := d.hf.ac
  let x := hfX d o a
  let base := hfBase a.area
  let on := decide (d.hf.field = 1)
  let head : List StepF :=
    if !hfHead a then []
    else if o.opcode = 0x501 then [nop.point]
    else if on then [nop.safe]
    else [(({ act := 0x30, arg := 1 } : StepF).safe.slot).on 0x03 base, delayStep (us (fld (cfg d Reg.HF_CFG) 31 16))]
  let ends : List StepF := [hfClose, anchorAt 2, (postBell bellHf).to (hfPoll a.area)]
  match a.step with
  | .idle => [nop.to (hfPoll a.area)]
  | .hold => [(delayStep (us 1000)).safe, (postBell bellHf).to base]
  | .over => [nop.point, postBell bellHf, { act := 0x01 }]
  | _ =>
    let send : List StepF := if x.bits = [] then [anchorAt 0]
      else [(hftx (hfBuf a.area) (hfExs a)).after (if hfHead a && !on then 0 else hfGuard d a), ((anchorAt 0).flag 0x31).within (us 100000)]
    let pre := head ++ send ++ (if x.reply = 0 then [] else [hfrx (hfDesc a.area)])
    let t := x.wait + fcTicks (hfCardTime x.proto x.reply) + us 10
    pre ++ (if x.reply = 0 then [] else hfWaitSteps (base + pre.length) t) ++ ends

/-- The whole table: the present exchange, the wait after it, and the wait after the one before, which leads to it. -/
def hfTable (d : Dev) (o : Op) : List (Nat × DWord) :=
  let a := d.hf.ac.area
  let steps := stepsFrom (hfBase a) (hfSteps d o)
  let wait := stepsFrom (hfPoll a) [(delayStep (us 10)).to (hfPoll a)]
  let lead := stepsFrom (hfPoll !a) [nop.to (hfBase a)]
  if a then lead ++ steps ++ wait else steps ++ wait ++ lead

/-- Descriptor of a reply (R253, R257, R265): a wait above 20.47 ms in units of 10 ms, rounded up. -/
def hfDescWord (x : HfX) : Word :=
  let n := (x.wait + us 10 - 1) / us 10
  let m := (x.wait + us 10000 - 1) / us 10000
  put 31 28 x.proto ||| put 27 26 (if x.proto = 5 then 1 else 0) ||| putB 25 x.crc ||| putB 24 (x.par && decide (x.proto = 0))
    ||| putB 23 (decide (2047 < n)) ||| put 22 12 (if 2047 < n then m else n) ||| put 11 0 x.reply

/-- Header of a frame (R275). -/
def hfFrameHeader (area : Bool) (x : HfX) : Word :=
  putB 31 true ||| put 30 27 x.proto ||| put 26 25 (if x.proto = 5 then 1 else 0) ||| putB 24 x.crc ||| putB 23 x.par
    ||| put 22 19 (if x.reply = 0 then 15 else hfDesc area) ||| put 11 0 x.bits.length

/-- Firmware writes the table of thread H for the exchange it works at. -/
def hfTables (o : Op) (d : Dev) : Dev := fwTable 0x600 0x800 (hfTable d o) d

/-- The reserve of the present exchange (R36, R258). -/
def hfReserve (o : Op) (d : Dev) : Dev := hfCut (hfXTime d d.hf.ac (hfX d o d.hf.ac)) d

/-- Firmware prepares the exchange: frame, descriptor, reserve and table (R257, R258, R260). -/
def hfPrepare (o : Op) (d : Dev) : Dev :=
  let a := d.hf.ac
  let x := hfX d o a
  let d := if x.bits = [] then d else fwHfBuffer (hfBuf a.area) (hfFrameHeader a.area x) x.bits d
  let d := if x.reply = 0 then d else fwBoth (Reg.HF_RDESC_0 + hfDesc a.area) (hfDescWord x) d
  hfTables o (hfReserve o d)

/-- A new exchange, in the other half of the table. -/
def hfNext (o : Op) (a : AcState) (d : Dev) : Dev :=
  hfPrepare o { d with hf := { d.hf with ac := { a with area := !d.hf.ac.area, unitEnd := false } } }

/-- A loop of a protocol begins (R260). -/
def hfLoop (p : Nat) (d : Dev) (a : AcState) : AcState :=
  { AcState.reset with
    area := a.area, proto := p, level := 1, slots := acSlots d p
    step := match p with | 0 => .reqa | 2 => .reqb | 3 => .inventory | _ => .polling }

/-- The protocol of a campaign's next loop: its protocols take turns. -/
def hfTurn (o : Op) (p : Nat) : Nat := ((hfProtos o).find? (p < ·)).getD ((hfProtos o).headD 0)

/-- HF work of an operation that starts (R260, R264, R266): a campaign's first loop, or the head of a command. Thread H begins in the
first half of the table, or where it was suspended. -/
def hfStart (o : Op) (d : Dev) : Dev :=
  let a := d.hf.ac
  let area := decide ((thr d 3).op = some o.tag ∧ (thr d 3).st = .suspended ∧ hfBase true ≤ (thr d 3).step)
  let a' := if o.opcode = 0x501 then { AcState.reset with step := .iblock, proto := a.proto, area := area }
    else hfLoop ((hfProtos o).headD 0) d { a with area := area }
  hfPrepare o { d with hf := { d.hf with ac := a', wtx := none } }

end Sys2Proof.Machine
end

