-- ==== Sys2Proof/Machine/PmuOps.lean ====
section
/-! DEFINITION. The PMU as every command uses it: requests, entry, wake and the states of the fourteen domains
(R408-R427). -/
namespace Sys2Proof.Machine

/-! Reading -/

/-- `PMU_STATE` of a domain (R413): TAGM is ON in a session or under MBPWR. -/
def domStateCode (d : Dev) (tagmOn : Bool) (n : Nat) : Nat :=
  if n = 13 then (if tagmOn then 0 else 2)
  else match (dom d n).pos with
  | .on => 0 | .ret => 1 | .off => 2 | _ => 3

/-- No domain other than AON and TAGM is ON or moving: the condition of deep state on the domains (R413). -/
def allDown (d : Dev) : Bool :=
  (List.range 12).all fun i => match (dom d (i + 1)).pos with | .ret => true | .off => true | _ => false

/-- Deep state (R413). -/
def deepState (d : Dev) : Bool := allDown d && !d.pmu.coreBuck && !d.pmu.xo

/-- The retention regulator runs: some domain is in RET (R408). -/
def retRuns (d : Dev) : Bool := d.pmu.doms.any fun x => match x.pos with | .ret => true | _ => false

/-- The analog buck runs: UHF_TX, RXA, RXB, HF or CAL is ON (R408). -/
def anaRuns (d : Dev) : Bool := [8, 9, 10, 11, 12].any (domOn d)

/-- `PMU_STATUS`, `PMU_STATE`, `PMU_MODE` and `PMU_PEND` (R429, R430). -/
def pmuStatusWord (d : Dev) : Word :=
  putB 15 d.pmu.vpa ||| putB 14 d.pmu.vioB ||| putB 13 d.pmu.vioA ||| putB 11 d.pmu.xo ||| putB 10 (anaRuns d)
    ||| putB 9 d.pmu.coreBuck ||| putB 8 (retRuns d) ||| putB 7 (deepState d)
def pmuStateWord (d : Dev) (tagmOn : Bool) : Word :=
  (List.range 14).foldl (fun w n => w ||| put (2 * n + 1) (2 * n) (domStateCode d tagmOn n)) 0
def pmuModeWord (d : Dev) : Word :=
  (List.range 12).foldl (fun w i => w ||| put (2 * (i + 1) + 1) (2 * (i + 1)) (dom d (i + 1)).mode) 0
def pmuPendWord (d : Dev) : Word :=
  (List.range 12).foldl (fun w i => w ||| putB (i + 1) (dom d (i + 1)).pend.isSome) 0

/-! Requests and wakes -/

def setDom (n : Nat) (x : Dom) (d : Dev) : Dev := { d with pmu := { d.pmu with doms := upd Dom.full d.pmu.doms n x } }

/-- WAIT of the core in service retires (R394, R395). -/
def retireWait (d : Dev) : Dev :=
  if (coreIn d).st = .wait then setCore { coreIn d with st := .run } d else d

/-- Requests ON for a domain (R414, R419, R420): an entry before the end of its isolate stage is abandoned; later stages and
wakes in progress keep the request; RET and OFF wake at once. -/
def wakeDom (n : Nat) (d : Dev) : Dev :=
  let x := dom d n
  match x.pos with
  | .on =>
    let d := setDom n { x with pend := none } d
    if n = coreDom d then retireWait d else d
  | .ret => setDom n { x with pos := .waking false 1 d.now, pend := none } d
  | .off => setDom n { x with pos := .waking true 1 d.now, pend := none } d
  | .entering o k s =>
    if k < 4 then
      let d := event Reg.PMU_EVENT 2 (setDom n { x with pos := .on, pend := none } d)
      if n = coreDom d then retireWait d else d
    else setDom n { x with pos := .entering o k s, pend := some 0 } d
  | .waking f k s => setDom n { x with pos := .waking f k s, pend := some 0 } d

/-- Requests a state of a domain and notes it in `PMU_MODE` (R413, R414, R420): 3 changes nothing. -/
def requestMode (n mode : Nat) (d : Dev) : Dev :=
  let x := dom d n
  if n = 0 ∨ 13 ≤ n ∨ 3 ≤ mode then d
  else
    let d := setDom n { x with mode := mode } d
    let x := dom d n
    if mode = 0 then wakeDom n d
    else
      let same : Bool := match x.pos with | .ret => mode == 1 | .off => mode == 2 | _ => false
      setDom n { x with pend := if same then none else some mode } d

/-- A mask of R421 in domain numbers: bit 3 names the core in service, bit 4 the other core. -/
def wakeMask (d : Dev) (m : Word) : List Nat :=
  ((List.range 12).map (· + 1)).filter fun n =>
    if n = 3 then bit m (if d.cpu.onS then 4 else 3) else if n = 4 then bit m (if d.cpu.onS then 3 else 4) else bit m n

/-- A wake source fires for a list of domains (R421): ON is requested for each, `PMU_MODE` follows, and
`PMU_LAST_WAKE` holds the lowest source and the union of the domains of the tick. -/
def wakeSource (src : Nat) (doms : List Nat) (d : Dev) : Dev :=
  let m := doms.foldl (fun w n => w ||| putB n true) 0
  let same := decide (d.pmu.wakeAt = some d.now)
  let last := reg d Reg.PMU_LAST_WAKE
  let src' := if same then min src (fld last 31 28) else src
  let m' := if same then m ||| (last &&& 0x3FFF) else m
  let woke := doms.any fun n => !domOn d n
  let d := doms.foldl (fun d n => requestMode n 0 d) d
  let d := setReg Reg.PMU_LAST_WAKE (put 31 28 src' ||| m') { d with pmu := { d.pmu with wakeAt := some d.now } }
  if woke then event Reg.PMU_EVENT 0 d else d

/-- A wake source with its mask register. -/
def wakeByMask (src maskReg : Nat) (d : Dev) : Dev := wakeSource src (wakeMask d (reg d maskReg)) d

/-- The MAINS wake (R421). -/
def pmuWakeMains (d : Dev) : Dev := wakeByMask 7 Reg.PMU_WAKE_MAINS d

/-! Entry -/

/-- Domains an operation needs (R415). -/
def opDomains (d : Dev) (o : Op) : List Nat :=
  if o.opcode = 0x300 then [7, 8, 9, 5] ++ (if bit (nth 0 o.block 1) 2 then [10] else [])
  else if isAccess o.opcode then [7, 8, 9]
  else if o.opcode = 0x200 then [7, 8, if bit (nth 0 o.block 0) 4 then 10 else 9]
  else if o.opcode = 0x500 ∨ o.opcode = 0x501 then [7, 11]
  else if o.opcode = 0x700 then [5]
  else if o.opcode = 0x800 then [12]
  else if o.opcode = 0x903 then [coreDom d, if d.cpu.onS then 3 else 4]
  else []

/-- A RUNNING operation needs the domain (R415). -/
def domNeeded (d : Dev) (n : Nat) : Bool := d.ops.any fun o => decide (o.st = .running) && (opDomains d o).contains n

/-- The domain is idle (R417). -/
def domIdle (d : Dev) (n : Nat) : Bool :=
  match n with
  | 1 => d.portA.bulk.isNone
  | 2 => d.portB.bulk.isNone && d.mst.busy.isNone
  | 3 => decide (d.cpu.m.st = .wait) || (d.cpu.onS && !d.cpu.spareRun) || decide (d.cpu.m.st = .stopped)
  | 4 => decide (d.cpu.s.st = .wait) || (!d.cpu.onS && !d.cpu.spareRun) || decide (d.cpu.s.st = .stopped)
  | 5 => d.comb.sparing.isNone
  | 6 => match (dom d (coreDom d)).pos with
    | .on => false
    | .entering _ k _ => decide (4 ≤ k)
    | .waking _ _ _ => false
    | _ => true
  | 7 => d.seq.thr.all (fun t => !thrRuns t) && d.seq.turn.isNone && d.sys.copyEnd.isNone
  | 8 => d.uhf.move.isNone && decide (d.uhf.st = .sleep ∨ d.uhf.st = .standby)
  | 9 => !chainSampling d.chA
  | 10 => !chainSampling d.chB
  | 11 => decide (d.hf.field = 0) && decide (d.hf.pingEnd ≤ d.now)
  | 12 => d.cal.run.isNone
  | _ => true

/-- Domains whose entry waits for the others (R418). -/
def lateDom (d : Dev) (n : Nat) : Bool := decide (n = coreDom d ∨ n = 6)

/-- A request waits that a WAIT serves now (R414, R415): MEM_RING goes no lower than the core's domain does. -/
def entryDue (d : Dev) (n : Nat) : Bool :=
  let x := dom d n
  match x.pend, x.pos with
  | some m, p =>
    let still := match p with | .on => true | .ret => true | .off => true | _ => false
    let coreTo := match (dom d (coreDom d)).pend with | some c => c | none => 0
    still && m != 0 && !domNeeded d n && (n != 6 || decide (m ≤ coreTo))
  | none, _ => false

/-- Starts the entry of a domain (R416, R418): the core's domain and MEM_RING wait for the others. A domain in RET or OFF
changes its rail only. -/
def entryStart (n : Nat) (d : Dev) : Dev :=
  let x := dom d n
  match x.pend with
  | none => d
  | some m =>
    match x.pos with
    | .on => setDom n { x with pos := .entering (m = 2) (if lateDom d n then 0 else 1) d.now, pend := none } d
    | .ret => setDom n { x with pos := .entering (m = 2) 5 d.now, pend := none } d
    | .off => setDom n { x with pos := .entering (m = 2) 5 d.now, pend := none } d
    | _ => d

/-- Another domain than the late ones is before the end of its isolate stage (R418). -/
def othersEntering (d : Dev) : Bool :=
  (List.range 12).any fun i =>
    let n := i + 1
    !lateDom d n && (match (dom d n).pos with | .entering _ k _ => decide (k < 4) | _ => false)

/-- The late domains begin their quiesce when no other domain holds them back (R418). -/
def releaseLate (d : Dev) : Dev :=
  if othersEntering d then d
  else (List.range 12).foldl (fun d i =>
    let x := dom d (i + 1)
    match x.pos with
    | .entering o 0 _ => setDom (i + 1) { x with pos := .entering o 1 d.now } d
    | _ => d) d

/-- The entries a WAIT starts (R394, R414). -/
def serveEntries (d : Dev) : Dev :=
  releaseLate ((((List.range 12).map (· + 1)).filter (entryDue d)).foldl (fun d n => entryStart n d) d)

/-- When the last domain leaves ON the core buck stops, and the crystal unless XO_KEEP is 1 (R408, R416). -/
def deepCheck (d : Dev) : Dev :=
  if allDown d && d.pmu.coreBuck then
    let keep := bit (reg d Reg.PMU_CFG) 0
    let d := { d with pmu := { d.pmu with coreBuck := false, xo := keep } }
    if keep then d else event Reg.PMU_EVENT 1 d
  else d

/-- The pending request is served when a transition completes (R420). -/
def servePend (n : Nat) (d : Dev) : Dev :=
  let x := dom d n
  match x.pend, x.pos with
  | some 0, .on => setDom n { x with pend := none } d
  | some 0, _ => wakeDom n (setDom n { x with pend := none } d)
  | some 1, .ret => setDom n { x with pend := none } d
  | some 2, .off => setDom n { x with pend := none } d
  | _, _ => d

/-- The domain reaches RET or OFF: OFF loses its content (R366, R395, R412). -/
def entryDone (n : Nat) (off : Bool) (d : Dev) : Dev :=
  let d := if off then domLose n d else d
  deepCheck (servePend n (setDom n { dom d n with pos := if off then .off else .ret } d))

/-- A stage of entry is complete (R416, R417): the quiesce stage ends only when the domain is idle. -/
def entryStage (n : Nat) (d : Dev) : Dev :=
  let x := dom d n
  match x.pos with
  | .entering off k _ =>
    if k = 1 then
      if domIdle d n then setDom n { x with pos := .entering off (if off then 3 else 2) d.now } d else d
    else if k = 5 then entryDone n off d
    else if k = 0 then releaseLate d
    else releaseLate (setDom n { x with pos := .entering off (k + 1) d.now } d)
  | _ => d

/-- A domain that was not idle in time: its entry is refused and its request waits for the next WAIT (R417). -/
def entryRefuse (n : Nat) (d : Dev) : Dev :=
  let x := dom d n
  match x.pos with
  | .entering off 1 since =>
    if since + us (max 1 (fld (reg d Reg.PMU_CFG) 31 16)) ≤ d.now ∧ domIdle d n = false then
      releaseLate (event Reg.PMU_EVENT 3 (setDom n { x with pos := .on, pend := some ((x.pend).getD (if off then 2 else 1)) } d))
    else d
  | _ => d

/-- A port's link domain has come ON: the port is ready from now on, and WAKE is set (R303, R318). -/
def portWakes (b : Bool) (d : Dev) : Dev :=
  event (Reg.LINK_A_EVENT + portOffset b) 0 (setPort b { port d b with readyAt := d.now } d)

/-- A stage of a wake reaches its ready signal (R422); after the last the domain is ON. -/
def wakeStage (n : Nat) (d : Dev) : Dev :=
  let x := dom d n
  match x.pos with
  | .waking off k _ =>
    let d := if k = 1 then { d with pmu := { d.pmu with coreBuck := true } } else d
    let d := if k = 2 then { d with pmu := { d.pmu with xo := true } } else d
    if k < 4 then setDom n { x with pos := .waking off (k + 1) d.now } d
    else
      let d := setDom n { x with pos := .on } d
      let d := if off || (decide (n = 9) && decide (d.chA.st = .off)) || (decide (n = 10) && decide (d.chB.st = .off)) then domGain n d else d
      let d := if n = 8 then radioWake d else d
      let d := if n = coreDom d then retireWait d else d
      let d := if n = 1 then portWakes false d else if n = 2 then portWakes true d else d
      servePend n (chainsFollow d)
  | _ => d

end Sys2Proof.Machine
end

