-- ==== Sys2Proof/Machine/OpOps.lean ====
section
/-! DEFINITION. Operations as firmware runs them: acceptance checks, start, abort points, suspension, resumption and end
(R38, R42, R50, R161, R209, R330-R342, R415). -/
namespace Sys2Proof.Machine

/-! The inventory round (R179, R190, R194) -/

/-- Noise bin of a building slot (R40). -/
def noiseBin (d : Dev) (b : Nat) : BitVec 16 := CMap.get (fun _ => 0) d.tb.noise b

/-- Building slots of the window of thread U that holds the current slot. -/
def windowOf (d : Dev) : List Nat :=
  let l := phaseAt d d.now / 1024
  let full := maskFull d 0
  let rec back : Nat → Nat → Nat
    | 0, k => k
    | fuel + 1, k => if windowFirst d 0 ((l + 96 - k) % 96) then k else back fuel (k + 1)
  let b := back 95 0
  (List.range (min 96 (b + windowSlots d 0 full l 95 1))).map fun i => buildingSlot d ((l + 96 - b + i) % 96)

/-- QUIET holds the Query head in a noisy slot (R194); bins that are not VALID count as quiet. -/
def noisySlot (d : Dev) : Bool :=
  let w := cfg d Reg.GEN2_RND
  let cur := noiseBin d (buildingSlot d (phaseAt d d.now / 1024))
  let valid := ((windowOf d).map (noiseBin d)).filter fun b => b.getLsbD 15
  match valid with
  | [] => false
  | v :: vs =>
    let low := vs.foldl (fun m b => min m (fld b 9 0)) (fld v 9 0)
    bit w 31 && tbValid d && cur.getLsbD 15 && decide (low + 8 * fld w 27 24 < fld cur 9 0)

/-- Target of the next round (R179). -/
def nextTarget (d : Dev) : Bool :=
  match fld (cfg d Reg.GEN2_QUERY) 1 0 with
  | 0 => false
  | 1 => true
  | 2 => !d.gen2.target
  | _ => if d.gen2.singulated then d.gen2.target else !d.gen2.target

/-- Target of a campaign's first round: B under TMODE 1 (R179). -/
def firstTarget (d : Dev) : Bool := decide (fld (cfg d Reg.GEN2_QUERY) 1 0 = 1)

/-! What an operation needs -/

/-- Thread U has left its inventory to an access, or stands where it yields (R209): at the SLOT wait of its window start or halted, or
held at its Query head between windows. -/
def yields (d : Dev) (tag : Nat) : Bool :=
  let u := thr d 0
  decide (u.op ≠ some tag) ||
    (match u.st with
     | .waiting => !u.toFetch && (stepWk u.word == 4 || (d.gen2.hold && (stepWk u.word == 3 && stepWcond u.word == 0x0C)
         && (!inSlot d 0 || decide (maskFull d 0))))
     | .held => false
     | _ => true)

/-- Thread `n` is free of RUNNING operations for operation `o` (R337): an access may take thread U from an inventory that yields it
(R209). -/
def threadFree (d : Dev) (o : Op) (n : Nat) : Bool :=
  d.ops.all fun p =>
    p.tag == o.tag || p.ended || decide (p.st ≠ .running) || !(opThreads p).contains n ||
      (decide (p.opcode = 0x300) && isAccess o.opcode && yields d p.tag)

/-- One COMB_SWEEP, one CAL_RUN, one SWAP_CORE and one ONLINE_TEST run at a time (R337, R466). -/
def singleFree (d : Dev) (o : Op) : Bool :=
  !([0x700, 0x800, 0x903, 0x801].contains o.opcode) ||
    d.ops.all fun p => p.tag == o.tag || p.ended || decide (p.opcode ≠ o.opcode) || decide (p.st ≠ .running)

/-- Every operation accepted earlier from the same command ring has ended (R330). -/
def afterOk (d : Dev) (o : Op) : Bool :=
  !o.after || d.ops.all fun p => p.ended || !p.long || decide (p.cring ≠ o.cring) || decide (o.order ≤ p.order)

/-- An access operation is QUEUED and could run (R209). -/
def accessWaits (d : Dev) : Bool :=
  d.ops.any fun p => isAccess p.opcode && decide (p.st = .queued) && !p.ended && decide (p.need ≤ p.block.length) && afterOk d p

/-- SW4 is set when the Query head may open, else it stays withheld: in a noisy slot (R190, R194), or while the campaign is held for
an access operation that waits (R209). -/
def armQuery (d : Dev) : Dev :=
  let hold := accessWaits d
  let held := hold || noisySlot d
  let d := { d with gen2 := { d.gen2 with hold := hold, arm := held } }
  if held then d else setSw 4 true d

/-- Firmware patches the Query with Q, session and target, and sets SW4 (R179, R190). -/
def roundPatch (target : Bool) (d : Dev) : Dev :=
  let q := min (qMax d) (max (qMin d) ((d.gen2.qfp + 8) / 16).toNat)
  let f := queryBits (cfg d Reg.GEN2_LINK) (cfg d Reg.GEN2_QUERY) q target
  let d := fwBuffer 0 (fbHeader true 1 0 0 f.length) f d
  armQuery { d with gen2 := { d.gen2 with qnext := q, tgtNext := target, rstate := 1, singulated := false } }

/-- A triggered HF campaign waits in QUEUED for a rise of DET (R271). -/
def waitsTrigger (o : Op) : Bool := decide (o.opcode = 0x500) && bit (nth 0 o.block 0) 4

/-- It waits for a trigger that has not come. -/
def untriggered (o : Op) : Bool := waitsTrigger o && !o.trig

/-- The next start among the operations that wait for a thread of `o` falls to it (R337). -/
def startFirst (d : Dev) (o : Op) : Bool :=
  d.ops.all fun p =>
    p.tag == o.tag || p.ended || decide (p.st ≠ .queued) || decide (p.block.length < p.need) || !afterOk d p
      || untriggered p || !(opThreads p).any (opThreads o).contains || !(opThreads p).all (threadFree d p)
      || decide (o.cring < p.cring ∨ (o.cring = p.cring ∧ o.order < p.order))

/-- The response to the HF command before has been written (R266). -/
def hfWritten (d : Dev) : Bool := d.held.all fun h => h.words.head? != some 0x0503

/-- A QUEUED operation is next to start (R266, R337) but for its domains. -/
def mayStart (d : Dev) (o : Op) : Bool :=
  decide (o.st = .queued) && !o.ended && decide (o.need ≤ o.block.length) && (opThreads o).all (threadFree d o)
    && singleFree d o && (decide (o.opcode ≠ 0x501) || hfWritten d) && afterOk d o && startFirst d o

/-! Start (R337, R415) -/

/-- Step at which firmware starts a thread of an operation in its own tables (R144, R508); a LISTEN needs thread U alone. -/
def opEntry (o : Op) (n : Nat) : Option Nat :=
  if n = 0 then some (if o.opcode = 0x300 then (if o.startCyc.isSome then fwNext else fwFirst) else if o.opcode = 0x200 then fwListen else fwAccess)
  else if n = 3 then some fwHf
  else if o.opcode = 0x200 then none
  else some (if 0x408 ≤ o.opcode then fwReopen else fwLoop)

/-- Threads of an operation run: a SUSPENDED thread of it resumes at its step, any other starts at an explicit step; thread A starts
before U (R144, R160, R222). -/
def startThreads (o : Op) (d : Dev) : Dev :=
  ((opThreads o).reverse).foldl (fun d n =>
    if (thr d n).op = some o.tag ∧ (thr d n).st = .suspended then thrResume n d
    else match opEntry o n with
      | none => d
      | some e => thrStart n e (updThr n (fun t => { t with op := some o.tag }) d)) d

/-- Firmware builds the tables of an operation for the set in force (R508). -/
def fwTables (o : Op) (d : Dev) : Dev :=
  if o.opcode = 0x300 then
    fwTable 0x200 0x210 (loopSteps (bit (nth 0 o.block 1) 2))
      (fwTable 0x100 0x200 (inventorySteps d (bit (nth 0 o.block 1) 0) (bit (nth 0 o.block 1) 1)) d)
  else if isAccess o.opcode then
    fwTable 0x200 0x300 (loopSteps true ++ reopenSteps (if o.opcode = 0x409 then xchgDesc o else 15))
      (if d.acc.op = some o.tag then fwTable 0x300 0x400 (accessSteps d o) d else d)
  else if o.opcode = 0x200 then
    let mask : Nat := (nth 0 o.block 1).toNat + 2 ^ 32 * (nth 0 o.block 2).toNat
    fwTable 0x400 0x600 (listenSteps ((List.range 64).filter mask.testBit) (min 10000 (max 10 (fld (nth 0 o.block 3) 15 0)))) d
  else hfTables o d

/-- `RXD_x_PATH` HB_N and BANK for a campaign on chain A and B (R118, R119). -/
def fwPaths (short : Bool) (d : Dev) : Dev :=
  let f := fun (w : Word) => setFld (setFld w 9 8 (campaignBank d short)) 2 0 (campaignHb d)
  fwActive (chReg true 8) (f (cfg d (chReg true 8))) (fwActive (chReg false 8) (f (cfg d (chReg false 8))) d)

/-- Reserves of the threads (R36): kept alike for U, A and B by an UHF operation. -/
def fwReserve (t : Nat) (d : Dev) : Dev :=
  let w := cutWord d (cfg d Reg.GEN2_LINK) t
  let d := { d with tb := { d.tb with cutPeriod := d.tb.period } }
  fwBoth Reg.TIME_CUT_B w (fwBoth Reg.TIME_CUT_A w (fwBoth Reg.TIME_CUT_U w d))

/-- Instances of a calibration bit in run order (R431, R435), and those a CAL_RUN takes (R442). -/
def calInstances (b : Nat) : List Nat := match b with | 0 => [0] | 1 => [1, 5] | 2 => [2] | 3 => [3] | _ => [4, 6]
def calDue (d : Dev) (i : Nat) : Bool :=
  let c := calOf d i
  c.failed || !c.accepted || (match c.lastTemp with | none => true | some t => calMoved d t)
def calTodo (d : Dev) (o : Op) : List Nat :=
  ((List.range 5).filter fun b => bit (nth 0 o.block 0) b).flatMap fun b =>
    (calInstances b).filter fun i => bit (nth 0 o.block 0) 8 || calDue d i

/-! ONLINE_TEST (R451, R466) -/

/-- Run time of a block's test in fine ticks. -/
def testTime (b : Nat) : Nat :=
  if b = 1 ∨ b = 2 ∨ b = 0x0F then us 500
  else if b = 3 ∨ b = 4 then us 20000
  else if b = 5 then us 40000
  else if b = 6 then us 8000
  else if b = 7 ∨ b = 0x12 then us 2000
  else if b = 8 then us 1600
  else if b = 9 then us 400
  else if b = 0x0A ∨ b = 0x0B then us 300
  else if b = 0x0C ∨ b = 0x0D then us 3600
  else if b = 0x0E ∨ b = 0x11 then us 1000
  else if b = 0x13 then us 5000
  else if b = 0x14 then us 200
  else us 100

/-- Threads that use a block. -/
def testThreads (b : Nat) : List Nat :=
  if b = 7 then [0, 1, 2, 3]
  else if (8 ≤ b ∧ b ≤ 0x0B) ∨ b = 0x0E then [0]
  else if b = 0x0C then [0, 1]
  else if b = 0x0D then [0, 2]
  else if b = 0x0F ∨ b = 0x10 then [3]
  else []

/-- The condition under which the test of a block may run; `sess`: a field session of the commissioning tag holds. -/
def testCond (sess : Bool) (d : Dev) (b : Nat) : Bool :=
  if b = 7 then d.seq.turn.all fun t => !t.armed
  else if b = 0x0F then !inSlot d 3 && decide (d.hf.field = 0)
  else if b = 0x10 then decide (d.hf.pingEnd ≤ d.now)
  else if b = 0x11 then !sess
  else if b = 0x12 then d.cal.run.isNone
  else (testThreads b).all fun th => !inSlot d th

/-- ISOLATE may begin. -/
def testMay (sess : Bool) (d : Dev) (b : Nat) : Bool := testCond sess d b && fitsGap d (testThreads b) (testTime b)

/-- A test that waits at its first abort point begins its ISOLATE phase when it may. -/
def testBegin (sess : Bool) (d : Dev) : Dev :=
  match d.svc.test with
  | none => d
  | some x =>
    if x.now == 0 && testMay sess d x.block then
      setReg Reg.SVC_TEST (put 23 16 x.block ||| put 15 8 (x.phase + 1)) { d with svc := { d.svc with test := some { x with now := x.phase + 1 } } }
    else d

/-- For the dense-reader link, Miller-4 at BLF 320 kHz, CE is 2 (R188). -/
def denseWeight (d : Dev) : Dev :=
  let l := cfg d Reg.GEN2_LINK
  if fld l 27 26 = 2 ∧ blfKhz l = 320 then fwActive Reg.GEN2_QALG (setFld (cfg d Reg.GEN2_QALG) 3 0 2) d else d

/-- A campaign starts or goes on (R173, R178, R188, R190): reserves, banks, buffers and tables; for the dense-reader link CE becomes 2.
A campaign that goes on at a slot head closes its round there (R183); any other finds its Query patched. -/
def inventoryStart (o : Op) (d : Dev) : Dev :=
  let first := decide (o.res = [])
  let short := bit (nth 0 o.block 1) 1
  let mid := decide ((thr d 0).op = some o.tag ∧ (thr d 0).st = .suspended ∧ fwHead 1 ≤ (thr d 0).step ∧ (thr d 0).step < fwHead 5)
  let d := denseWeight (fwReserve (inventoryTime d short) (fwPaths short d))
  let g := d.gen2
  let d := { d with gen2 := { g with
    qfp := if first ∨ g.stale then 16 * (qStart d : Nat) else g.qfp
    slots := if first then [] else g.slots, sent := if first then [] else g.sent, stale := false, cutRace := false, hold := false } }
  let d := fwTables o (fwTruncated (fwInventoryBuffers (setSw 3 false (setSw 2 false (setSw 1 false (setSw 0 false d))))))
  let d := if mid then setSw 3 true { d with gen2 := { d.gen2 with rstate := 2 } }
    else roundPatch (if first then firstTarget d else nextTarget d) d
  if first then updOp o.tag (fun o => { o with res := [0, 0, 0, 0] }) d else d

/-- After a turn a running campaign works with the set now in force (R173, R190, R508): banks, weight, table; a Query that is patched and
not sent is patched again, from Q0 when the turn changed what its round uses. -/
def inventoryFollow (o : Op) (changed : Bool) (d : Dev) : Dev :=
  let d := fwTables o (denseWeight (fwPaths (bit (nth 0 o.block 1) 1) d))
  if d.gen2.rstate = 1 ∧ changed then
    let g := d.gen2
    let tgt := match fld (cfg d Reg.GEN2_QUERY) 1 0 with | 0 => false | 1 => true | _ => g.tgtNext
    let single := g.singulated
    let d := roundPatch tgt (fwTruncated (fwInventoryBuffers { d with gen2 := { g with qfp := 16 * (qStart d : Nat) } }))
    { d with gen2 := { d.gen2 with singulated := single } }
  else d

/-- A running operation follows a turn. -/
def opFollow (changed : Bool) (o : Op) (d : Dev) : Dev :=
  if o.opcode = 0x300 then inventoryFollow o changed d
  else if isAccess o.opcode then
    let d := fwPaths false d
    fwTables o (if d.acc.op = some o.tag then fwUnit o d else d)
  else if opThreads o = [] then d
  else fwTables o d

/-- What a start does besides its threads, by opcode. -/
def startWork (o : Op) (d : Dev) : Dev :=
  if o.opcode = 0x300 then inventoryStart o d
  else if isAccess o.opcode then
    let d := fwReserve (accessTime d o) (fwPaths false d)
    accPrepare o (fwTables o (setSw 6 false { d with acc := accStart o }))
  else if o.opcode = 0x200 then fwTables o (if d.uhf.carrier then d else driveAerial (fld (nth 0 o.block 0) 3 0) (max d.now d.uhf.rfEnd) d)
  else if o.opcode = 0x500 ∨ o.opcode = 0x501 then hfStart o d
  else if o.opcode = 0x700 then
    (if d.comb.sweep.isNone then
      { d with comb := { d.comb with sweep := some ⟨o.tag, o.progress.toNat⟩ } } else d)
  else if o.opcode = 0x800 then
    (if (d.cal.cmd.map CalCmd.tag) = some o.tag then d
     else { d with cal := { d.cal with cmd := some ⟨o.tag, calTodo d o, 0, 0⟩ } })
  else if o.opcode = 0x801 then
    testBegin true { d with svc := { d.svc with test := some ⟨o.tag, fld (nth 0 o.block 0) 7 0, o.progress.toNat, 0, 0, 0⟩ } }
  else if o.opcode = 0x903 then { d with cpu := { d.cpu with spareRun := true } }
  else d

/-- The operation starts (R337): its work is prepared and its threads run; a block-protocol command whose card session has
ended meanwhile ends CARD_RESET (R272), and a LISTEN of no entry or a CAL_RUN that leaves every calibration out is done. -/
def startOp (o : Op) (d : Dev) : Dev :=
  if o.opcode = 0x501 ∧ bit (reg d Reg.HF_ISO4_STAT) 0 = false then endOp o.tag 0x39 .failed [] d
  else if o.opcode = 0x200 ∧ nth 0 o.block 1 = 0 ∧ nth 0 o.block 2 = 0 then endOp o.tag 0x00 .done [] d
  else if o.opcode = 0x800 ∧ calTodo d o = [] then endOp o.tag 0x00 .done [0, 0] d
  else
  let d := updOp o.tag (fun o => { o with st := .running, pend := .none, timeSusp := false, saved := none }) d
  startThreads o (startWork o d)

/-- Starts a QUEUED operation whose turn it is; a domain it needs that is not ON is requested first (R415). -/
def tryStart (tag : Nat) (d : Dev) : Dev :=
  match findOp d tag with
  | none => d
  | some o =>
    if !mayStart d o || untriggered o then d
    else if (opDomains d o).all (domOn d) then startOp o d
    else ((opDomains d o).filter fun n => !domOn d n).foldl (fun d n => requestMode n 0 d) d

/-- An inventory that yielded thread U to an access goes on from its window start when the access has ended (R209). -/
def resumeYielded (tag : Nat) (d : Dev) : Dev :=
  match findOp d tag with
  | none => d
  | some o =>
    if o.st = .running ∧ o.opcode = 0x300 ∧ (thr d 0).op ≠ some tag ∧ (opThreads o).all (threadFree d o) then
      startThreads o (startWork o d)
    else d

/-! Suspension, cancellation and end (R161, R221, R336, R338) -/

/-- Mask words of a SELECT_SET. -/
def selectWords (b : List Word) : Nat := (fld (nth 0 b 0) 23 16 + 31) / 32

/-- Select frame of a SELECT_SET: target, action, bank, pointer, length, mask and truncation (ISO/IEC 18000-63). -/
def selectFrame (b : List Word) : List Bool :=
  let w := nth 0 b 0
  [true, false, true, false] ++ bitsOf 3 (fld w 6 4) ++ bitsOf 3 (fld w 9 7) ++ bitsOf 2 (fld w 11 10)
    ++ ebv (nth 0 b 1).toNat ++ bitsOf 8 (fld w 23 16) ++ unpackBits (fld w 23 16) (b.drop 2) ++ [bit w 12]

/-- A running campaign follows a new Select: its truncated reply and its reserve (R178, R186). -/
def selectsChanged (d : Dev) : Dev :=
  (d.ops.filter fun o => opLive o && decide (o.st = .running ∧ o.opcode = 0x300)).foldl (fun d o =>
    fwReserve (inventoryTime d (bit (nth 0 o.block 1) 1)) (fwTruncated (fwInventoryBuffers d))) d

/-- SELECT_SET writes buffer 8 + INDEX in both sets and ends (R178, R340). -/
def selectRun (o : Op) (d : Dev) : Dev :=
  let w := nth 0 o.block 0
  let f := selectFrame o.block
  endOp o.tag 0x00 .done [] (selectsChanged (fwBuffer (8 + fld w 2 0) (setFld (fbHeader false 2 15 0 f.length) 31 31 (fld w 3 3)) f d))

/-- SELECT_SET commands that wait are carried out between rounds. -/
def selectsDue (d : Dev) : Dev :=
  if d.gen2.rstate = 2 ∨ d.gen2.rstate = 3 then d
  else (d.ops.filter fun o => opLive o && decide (o.opcode = 0x301 ∧ o.need ≤ o.block.length)).foldl (fun d o => selectRun o d) d

/-- A CAL_RUN leaves its calibration, which begins again with its first run (R339, R442). -/
def calLeave (o : Op) (d : Dev) : Dev :=
  match d.cal.cmd with
  | some c =>
    if c.tag = o.tag then
      c.todo.foldl (fun d i => calFresh i d) (if d.cal.run.any (fun r => c.todo.contains r.id) then calStop d else d)
    else d
  | none => d

/-- The operation leaves its threads and engines: what an access holds is kept for its resumption. -/
def leaveWork (o : Op) (d : Dev) : Dev :=
  let d := if d.acc.op = some o.tag then
      setSw 6 false (updOp o.tag (fun p => { p with saved := some { d.acc with handle := none } }) { d with acc := Access.reset }) else d
  let d := if d.comb.sweep.any (fun s => s.tag = o.tag) then { d with comb := { d.comb with sweep := none } } else d
  let d := calLeave o d
  let alone : Bool := d.ops.all fun p => p.tag == o.tag || decide (p.opcode ≠ o.opcode ∨ p.st ≠ .running)
  let d := if o.opcode = 0x300 ∧ alone then selectsDue { d with gen2 := { d.gen2 with rstate := 0 } } else d
  if o.opcode = 0x903 ∧ alone then { d with cpu := { d.cpu with spareRun := false } } else d

/-- Entry to SUSPENDED with its REPLY, the ACCESS record ahead of it (R336, R353). -/
def enterSuspended (o : Op) (status : Nat) (d : Dev) : Dev :=
  let d := replyOp o status false .suspended [] (accessRecord o status d)
  let d := updOp o.tag (fun p => { p with st := .suspended, pend := .none, lastStatus := status }) d
  match findOp d o.tag with
  | none => d
  | some o => leaveWork o d

/-- Result words of an operation that ends CANCELLED: of a campaign, LISTEN or sweep, as they stand (R340). -/
def cancelRes (o : Op) : List Word := if [0x200, 0x300, 0x500, 0x700].contains o.opcode then o.res else []

/-- Steps of an operation's tables that no operation uses any more hold the unused word (R508). -/
def fwUnused (o : Op) (d : Dev) : Dev :=
  if o.opcode = 0x300 then fwTable 0x100 0x200 [] d
  else if isAccess o.opcode then fwTable 0x300 0x400 [] d
  else if o.opcode = 0x200 then fwTable 0x400 0x600 [] d
  else if o.opcode = 0x500 ∨ o.opcode = 0x501 then fwTable 0x600 0x800 [] d
  else d

/-- The operation's engines forget it, and its threads are its own no longer. -/
def dropWork (o : Op) (d : Dev) : Dev :=
  let d := fwUnused o (leaveWork o d)
  (List.range 4).foldl (fun d n => if (thr d n).op = some o.tag then updThr n (fun t => { t with op := none }) d else d) d

/-- Ends an operation for good. -/
def finishOp (o : Op) (status : Nat) (st : OpState) (res : List Word) (d : Dev) : Dev :=
  dropWork o (endOp o.tag status st res (calLeave o d))

/-- Ends CANCELLED; threads it left SUSPENDED halt (R161). -/
def cancelNow (o : Op) (d : Dev) : Dev :=
  let d := (List.range 4).foldl (fun d n => if (thr d n).op = some o.tag ∧ (thr d n).st = .suspended then thrHalt n d else d) d
  finishOp o 0x06 .cancelled (cancelRes o) d

/-- A pending request of an operation has taken hold on every thread of it (R161): SUSPENDED, CANCELLED, or FAILED with
the status set for it. -/
def opTake (o : Op) (d : Dev) : Dev :=
  match o.failAs with
  | some st => finishOp o st .failed [] d
  | none =>
    match o.pend with
    | .cancel => cancelNow o d
    | .suspend => enterSuspended o (if o.timeSusp then 0x41 else 0x04) d
    | .none => d

/-- Every thread of the operation is HALTED or SUSPENDED. -/
def threadsParked (d : Dev) (o : Op) : Bool :=
  (opThreads o).all fun n => decide ((thr d n).op ≠ some o.tag) || decide ((thr d n).st = .halted ∨ (thr d n).st = .suspended)

/-- The operation stands at an abort point: its threads rest; a CAL_RUN always does, its points lie at most 60 us apart, and
an ONLINE_TEST does while no phase runs (R339, R466). -/
def atAbortPoint (d : Dev) (o : Op) : Bool :=
  (!(opThreads o).isEmpty && threadsParked d o) || decide (o.opcode = 0x800)
    || (decide (o.opcode = 0x801) && d.svc.test.all fun t => t.now == 0)

/-- Operations whose request has taken hold leave RUNNING (R161). -/
def opsSettle (d : Dev) : Dev :=
  (d.ops.filter fun o => !o.ended && decide (o.st = .running) && decide (o.pend ≠ .none) && atAbortPoint d o).foldl (fun d o => match findOp d o.tag with | none => d | some o => opTake o d) d

/-- A request on a RUNNING operation (R338): it pends on its threads until their abort points. -/
def opAsk (o : Op) (req : PendReq) (d : Dev) : Dev :=
  opsSettle (askThreads o.tag req (updOp o.tag (fun o => { o with pend := req }) d))

/-- RESUME of a SUSPENDED operation (R338): RESUMED with QUEUED, then its start under R337. -/
def resumeOp (o : Op) (d : Dev) : Dev :=
  let d := updOp o.tag (fun p => { p with st := .queued, hostMarked := false, timeSusp := false, lastStatus := 0x05 }) d
  tryStart o.tag (replyOp o 0x05 false .queued [] d)

/-! Campaigns and the flywheel (R42) -/

/-- Campaigns with a slot mask. -/
def isCampaign (opcode : Nat) : Bool := decide (opcode = 0x300 ∨ opcode = 0x500)

/-- Entry to FREE with FREE_RUN at 0: running campaigns are to be suspended at their next abort points. -/
def suspendForTime (d : Dev) : Dev :=
  (d.ops.filter fun o => !o.ended && decide (o.st = .running) && isCampaign o.opcode && decide (o.pend = .none)).foldl
    (fun d o => opAsk o .suspend (updOp o.tag (fun o => { o with timeSusp := true }) d)) d

/-- Re-lock: campaigns suspended by the device run again, those still running drop the request (R42, R336). -/
def resumeTimeSuspended (d : Dev) : Dev :=
  (d.ops.filter fun o => !o.ended && o.timeSusp).foldl (fun d o =>
    if o.st = .running then
      (if o.pend = .suspend then askThreads o.tag .none (updOp o.tag (fun o => { o with pend := .none, timeSusp := false }) d) else d)
    else if o.st = .suspended ∧ o.hostMarked = false then
      let d := updOp o.tag (fun p => { p with st := .queued, timeSusp := false, lastStatus := 0x05 }) d
      let d := tryStart o.tag d
      match findOp d o.tag with
      | none => d
      | some o => replyOp o 0x05 false o.st [] d
    else d) d

/-! Abort points (R339, R340, R350) -/

/-- A PROGRESS record at an abort point: when the progress word has changed, once in a mains cycle (R350). -/
def progressRecord (o : Op) (d : Dev) : Dev :=
  if o.prog ∧ o.progress ≠ o.lastProg ∧ o.lastProgCyc ≠ d.tb.cyc then
    let d := writeRecord o.rring 0x0002 [put 22 16 o.tag ||| put 15 0 o.opcode, o.progress] d
    updOp o.tag (fun p => { p with lastProg := o.progress, lastProgCyc := d.tb.cyc }) d
  else d

/-- A campaign has run its DUR cycles or an inventory its LIMIT (R340). -/
def campaignDue (d : Dev) (o : Op) : Bool :=
  let w0 := nth 0 o.block 0
  isCampaign o.opcode &&
    ((decide (fld w0 31 16 ≠ 0) && (match o.startCyc with | none => false | some c => decide (fld w0 31 16 ≤ (d.tb.cyc - c).toNat)))
      || (decide (o.opcode = 0x300) && decide (fld (nth 0 o.block 1) 31 16 ≠ 0) && decide (fld (nth 0 o.block 1) 31 16 ≤ o.progress.toNat)))

/-- Ends an operation DONE and halts its threads. -/
def doneOp (o : Op) (res : List Word) (d : Dev) : Dev :=
  let d := (opThreads o).foldl (fun d n => if (thr d n).op = some o.tag then thrHalt n d else d) d
  finishOp o 0x00 .done res d

/-- Ends an operation FAILED with a status: its threads halt. -/
def failOp (o : Op) (status : Nat) (d : Dev) : Dev :=
  let d := (opThreads o).foldl (fun d n => if (thr d n).op = some o.tag then thrHalt n d else d) d
  finishOp o status .failed [] d

/-- Thread H ends its operation by its own HALT (R150, R256): the field stays on for a card that is ACTIVE, and goes off else. -/
def hfDone (o : Op) (res : List Word) (d : Dev) : Dev :=
  let d := if (thr d 3).op = some o.tag ∧ (thr d 3).st ≠ .halted then
      event Reg.SEQ_EVENT 3 (updThr 3 (fun x => { x with st := .halted, code := 0, toFetch := false, gate := none, abort := .none })
        (hfCloseWin true d))
    else d
  finishOp o 0x00 .done res (if d.hf.cardActive then d else hfFieldOff d)

/-- The operation that runs on thread H. -/
def hfOp (d : Dev) : Option Op := ((thr d 3).op.bind (findOp d)).filter fun o => opLive o && decide (o.st = .running)

/-- The field has been lost: a command that relied on the card session ends CARD_RESET (R272). -/
def hfSessionLost (d : Dev) : Dev :=
  match hfOp d with
  | none => d
  | some o => if o.opcode = 0x501 then failOp o 0x39 d else d

/-- The field is lost (R272). -/
def hfFieldLost (d : Dev) : Dev := hfSessionLost (hfFieldOff d)

/-- The grant has been taken away by its pin, its polarity or its rail (R92, R93, R410). -/
def grantFell (d : Dev) : Dev :=
  let on := decide (d.hf.field ≠ 0)
  let d := coexYield { d with uhf := { d.uhf with gntOff := some d.now } }
  if on ∧ d.hf.field = 0 then hfSessionLost d else d

/-- COEX_GNT is withdrawn (R92). -/
def coexWithdraw (d : Dev) : Dev := grantFell { d with uhf := { d.uhf with gntPin := bit (cfg d Reg.UHF_COEX_CFG) 5 } }

/-- A triggered search that reported no card (R272). -/
def untaken (o : Op) : Bool := waitsTrigger o && decide (o.progress = 0)

/-- Thread `n` has fetched an abort point of its operation. -/
def abortPoint (n : Nat) (d : Dev) : Dev :=
  match (thr d n).op with
  | none => d
  | some tag =>
    match findOp d tag with
    | none => d
    | some o =>
      if stepAp (thr d n).word && thrRuns (thr d n) && decide (o.st = .running) then
        let d := progressRecord o d
        if o.pend = .none ∧ campaignDue d o ∧ (n = 0 ∨ n = 3) then
          (if untaken o then failOp o 0x36 d else if n = 3 then hfDone o o.res d else doneOp o o.res d) else d
      else d

/-- Aerials of an operation that may transmit, in ascending order (R340, R353). -/
def opAerials (d : Dev) (o : Op) : List Nat :=
  let l : List Nat := if o.opcode = 0x300 then (List.range 16).filter fun i => bit (nth 0 o.block 0) i
    else if isAccess o.opcode then [fld (nth 0 o.block 1) 11 8] else []
  l.filter fun i => (aerialRefusal d i).isNone

/-- Firmware selects the aerial of a window that begins with the carrier off: an inventory takes those of its mask in
ascending order, one per window (R340). -/
def windowAerial (o : Op) (d : Dev) : Dev :=
  let l := opAerials d o
  let next := match o.startCyc with
    | none => l.head?
    | some _ => (l.find? fun i => decide (d.uhf.aerial < i)).or l.head?
  match next with
  | none => d
  | some a => if d.uhf.carrier ∨ a = d.uhf.aerial then d else driveAerial a (max d.now d.uhf.rfEnd) d

/-- A window of an operation begins: the SLOT wait of its thread U or H is over (R340). -/
def firstWindow (n : Nat) (d : Dev) : Dev :=
  match (thr d n).op with
  | none => d
  | some tag =>
    match findOp d tag with
    | none => d
    | some o =>
      if n = 0 ∨ n = 3 then
        updOp tag (fun o => { o with startCyc := o.startCyc.or (some d.tb.cyc) }) (if n = 0 then windowAerial o d else d)
      else d

/-- After a step of thread `n`: sequencer faults, abort points, and operations whose request has taken hold. -/
def threadStep (n : Nat) (f : Dev → Dev) (d : Dev) : Dev := opsSettle (chainFaults (withSeqFault n f d))

/-! Acceptance of the operations that need a thread (R38, R50, R60, R117, R172, R180, R186, R215, R458) -/

/-- The first condition of its own that an operation fails, with its status. -/
def ownRefusal (d : Dev) (o : Op) : Option Nat :=
  let op := o.opcode
  let uhf := op = 0x300 ∨ isAccess op ∨ op = 0x200
  let hf := op = 0x500 ∨ op = 0x501
  let link := cfg d Reg.GEN2_LINK
  let first := fun (l : List (Bool × Nat)) => (l.find? fun p => p.1).map Prod.snd
  let aerials : List Nat := if op = 0x300 then (List.range 16).filter fun i => bit (nth 0 o.block 0) i
    else if isAccess op then [fld (nth 0 o.block 1) 11 8] else []
  let refusals := aerials.map (aerialRefusal d)
  let chainsOff := if op = 0x200 then !chainUsable (chain d (bit (nth 0 o.block 0) 4))
    else !chainUsable d.chA && (!chainUsable d.chB || (decide (op = 0x300) && !bit (nth 0 o.block 1) 2))
  let time := if ¬(op = 0x300 ∨ isAccess op = true) then false else
    (let t := if op = 0x300 then inventoryTime d (bit (nth 0 o.block 1) 1) else accessTime d o
     let d' := fwReserve t d
     ((opThreads o).any (fun n => !windowLongEnough d' n) || (!planJoin d 0 && decide (1024 < fld (cfg d' Reg.TIME_CUT_U) 15 0))))
  let timeH := if hf then !windowLongEnough (hfCut (hfLongest d o) d) 3 else false
  first [
    (d.svc.safe && safeEnds o, 0x60),
    (decide (op = 0x300) && fenced d 0x05, 0x62),
    (decide hf && fenced d 0x0F, 0x62),
    (decide (op = 0x800) && fenced d 0x12, 0x62),
    (decide (op = 0x700) && fenced d 0x05, 0x62),
    (decide (op = 0x501) && !bit (reg d Reg.HF_ISO4_STAT) 0, 0x36),
    ((decide (op = 0x300) || isAccess op) && !linkValid link, 0x18),
    (decide (op = 0x300) && !t2CeilingOk d (bit (nth 0 o.block 1) 1), 0x18),
    (isAccess op && !t2CeilingOk d false, 0x18),
    ((isCampaign op || isAccess op || hf || decide (op = 0x200)) && !tbValid d, 0x40),
    ((isCampaign op || isAccess op || hf || decide (op = 0x200)) && decide (d.tb.st = .free) && !bit (reg d Reg.TIME_CTRL) 2, 0x41),
    ((opThreads o).any fun n => !maskAny d n, 0x42),
    (time || timeH, 0x43),
    (decide uhf && !anyChannel d, 0x24),
    (decide uhf && chainsOff, 0x25),
    (!refusals.isEmpty && refusals.all Option.isSome, ((refusals.filterMap id).head?).getD 0x23)]

end Sys2Proof.Machine
end

