-- ==== Sys2Proof/Machine/CombOps.lean ====
section
/-! DEFINITION. The Comb ledger and Damask as every command uses them: cells, search, placement, records, sweeps, dumps,
pseudonyms (R225-R241). -/
namespace Sys2Proof.Machine

/-! Cells (R225, R226) -/

def cellW (d : Dev) (c w : Nat) : Word := memW d.comb.cells (8 * c + w)
/-- A write of a cell's word; the corrected errors of its row count from its last write (R236). -/
def setCellW (c w : Nat) (v : Word) (d : Dev) : Dev :=
  { d with comb := { d.comb with cells := memSet d.comb.cells (8 * c + w) v, fixes := CMap.del d.comb.fixes (c / 8) } }
def cellFlags (d : Dev) (c : Nat) : Nat := fld (cellW d c 7) 7 0
def cellValid (d : Dev) (c : Nat) : Bool := bit (cellW d c 7) 7
def cellExtn (d : Dev) (c : Nat) : Bool := bit (cellW d c 7) 6
def cellExt (d : Dev) (c : Nat) : Bool := bit (cellW d c 7) 5
def cellPresent (d : Dev) (c : Nat) : Bool := bit (cellW d c 7) 4
def cellDwelt (d : Dev) (c : Nat) : Bool := bit (cellW d c 7) 3
def cellPend (d : Dev) (c : Nat) : Bool := bit (cellW d c 7) 2
def cellPinned (d : Dev) (c : Nat) : Bool := bit (cellW d c 7) 1
def cellUnrep (d : Dev) (c : Nat) : Bool := bit (cellW d c 7) 0
/-- A VALID home cell. -/
def cellHome (d : Dev) (c : Nat) : Bool := cellValid d c && !cellExtn d c

/-- Flags of a home cell by their bits in word 7. -/
def setCellFlag (c b : Nat) (v : Bool) (d : Dev) : Dev := setCellW c 7 (setFld (cellW d c 7) b b (if v then 1 else 0)) d

/-- A field of a cell's word replaced. -/
def setCellF (c w hi lo v : Nat) (d : Dev) : Dev := setCellW c w (setFld (cellW d c w) hi lo v) d

/-- First extension cell of a home cell, and the next of an extension cell. -/
def cellLink (d : Dev) (c : Nat) : Option Nat := if cellExt d c then some (fld (cellW d c 3) 16 0) else none
def cellNext (d : Dev) (c : Nat) : Option Nat :=
  let n := fld (cellW d c 7) 31 15
  if n = 0x1FFFF then none else some n

/-- Extension cells of a home cell, at most two (R226). -/
def cellChain (d : Dev) (c : Nat) : List Nat :=
  match cellLink d c with
  | none => []
  | some e => e :: (match cellNext d e with | none => [] | some f => [f])

/-- Length in bits of the EPC whose PC a cell holds. -/
def cellLen (d : Dev) (c : Nat) : Nat := 16 * fld (cellW d c 4) 31 27

/-- EPC of a home cell. -/
def cellEpc (d : Dev) (c : Nat) : List Bool :=
  let n := cellLen d c
  if cellExt d c then
    (unpackBits 96 ((List.range 3).map (cellW d c)) ++ (cellChain d c).flatMap fun e => unpackBits 224 ((List.range 7).map (cellW d e))).take n
  else unpackBits (min 128 n) ((List.range 4).map (cellW d c))

/-- Frees a cell with its extension cells. -/
def cellFree (c : Nat) (d : Dev) : Dev :=
  (c :: (if cellExtn d c then [] else cellChain d c)).foldl (fun d e =>
    { d with comb := { d.comb with cells := CMap.clearRange d.comb.cells (8 * e) (8 * e + 7), fixes := CMap.del d.comb.fixes (e / 8) } }) d

/-- Home cells in index order. -/
def homeCells (d : Dev) : List Nat :=
  (d.comb.cells.filter fun e => e.1 % 8 == 7 && bit e.2 7 && !bit e.2 6).map fun e => e.1 / 8

/-- `COMB_USED`, `COMB_PRESENT`, `COMB_UNREP`. -/
def combCount (d : Dev) (p : Word → Bool) : Nat := (d.comb.cells.filter fun e => e.1 % 8 == 7 && bit e.2 7 && p e.2).length
def combUsed (d : Dev) : Nat := combCount d fun _ => true
def combPresent (d : Dev) : Nat := combCount d fun w => !bit w 6 && bit w 4
def combUnrep (d : Dev) : Nat := combCount d fun w => !bit w 6 && bit w 0

/-! Damask (R237) -/

/-- Pseudonym of an EPC under an epoch. -/
def pseudonym (d : Dev) (e : Word) (epc : List Bool) : BitVec 64 :=
  match d.dmk.key with
  | none => 0
  | some k => sipHashK (epochKey k e) (bytesOfBits 63 epc)

/-- `COMB_DMK_CFG.EN` and LINK_EN. -/
def dmkEn (d : Dev) : Bool := bit (reg d Reg.COMB_DMK_CFG) 0
def dmkLinkEn (d : Dev) : Bool := bit (reg d Reg.COMB_DMK_CFG) 2

/-! Records (R232-R234) -/

/-- The event ring and the enable bits of `COMB_EVT_CFG`. -/
def combRing (d : Dev) : Nat := fld (reg d Reg.COMB_EVT_CFG) 4 0

/-- EPC or pseudonym words of a record and its IDK. -/
def combId (d : Dev) (epc : List Bool) : List Word :=
  if dmkEn d then
    let p := pseudonym d d.dmk.epoch epc
    [d.dmk.epoch, p.extractLsb' 32 32, p.extractLsb' 0 32]
  else packBits 16 epc

/-- Stamp of a record. -/
def cycOf (n : Nat) : Cyc := BitVec.ofNat 40 n

/-- LAST expanded to 40 bits as the latest count not above `MAINS_CYC` (R233). -/
def lastFull (d : Dev) (last : Word) : Cyc := d.tb.cyc - ((d.tb.cyc.extractLsb' 0 32) - last).zeroExtend 40

/-- Body of a record about a home cell (R233). -/
def combBody (d : Dev) (c : Nat) (replay : Bool) (slot aer prev : Nat) (stamp : Cyc) (rssi phase : Nat) : List Word :=
  let w6 := cellW d c 6
  let dur := (fld (cellW d c 5) 31 8 + 2 ^ 24 - fld w6 31 8) % 2 ^ 24
  [putB 31 replay ||| putB 30 (dmkEn d) ||| put 23 17 slot ||| put 16 0 c, cycLo stamp,
   cycHi stamp ||| put 23 20 aer ||| put 19 16 prev ||| put 15 8 rssi ||| put 7 0 phase, cellW d c 4,
   put 31 20 (fld (cellW d c 7) 31 20) ||| put 19 0 dur] ++ combId d (cellEpc d c)

/-- A Comb record offered to its ring: one written counts in `COMB_REC`, one dropped sets DROP (R244). -/
def combWrite (ring type : Nat) (body : List Word) (d : Dev) : Dev × Bool :=
  let (d, ok) := offer ring type body d
  if ok then ({ d with comb := { d.comb with recs := d.comb.recs + 1 } }, true) else (event Reg.COMB_EVENT 0 d, false)

/-- Offers a Comb record, by way of the applet's filter where it is on (R400); a drop sets DROP. While DAMASK is fenced and EN is 1 these records are dropped (R451). -/
def combOffer (ring type : Nat) (body : List Word) (d : Dev) : Dev × Bool :=
  if fenced d 0x15 ∧ dmkEn d then (event Reg.COMB_EVENT 0 d, false)
  else if filterOn d && decide (0x0701 ≤ type ∧ type ≤ 0x0705) then
    ({ d with cpu := { d.cpu with apl := { d.cpu.apl with fq := d.cpu.apl.fq ++ [⟨ring, type, body⟩] } } }, true)
  else combWrite ring type body d

/-- A record about a cell made by a sweep: slot 0x7F, aerial BAER. -/
def sweepBody (d : Dev) (c : Nat) (replay : Bool) (stamp : Cyc) : List Word :=
  let b := fld (cellW d c 7) 19 16
  combBody d c replay 0x7F b b stamp (fld (cellW d c 6) 7 0) (fld (cellW d c 7) 15 8)

/-- UNREP of a cell after its ARRIVE or DEPART record: one dropped because its ring is full sets it under REOFFER (R234). -/
def unrepAfter (c : Nat) (ok : Bool) (d : Dev) : Dev :=
  if !ok && (ring d (combRing d)).en && !(fenced d 0x15 && dmkEn d) && bit (reg d Reg.COMB_EVT_CFG) 12 then setCellFlag c 0 true d else d

/-- DEPART of a cell: its record, then PRESENT and DWELT clear (R230). -/
def departCell (c : Nat) (d : Dev) : Dev :=
  let d := if bit (reg d Reg.COMB_EVT_CFG) 8 then
      let (d, ok) := combOffer (combRing d) 0x0702 (sweepBody d c false d.tb.cyc) d
      unrepAfter c ok d
    else d
  setCellFlag c 3 false (setCellFlag c 4 false d)

/-- LOST record of a cell (R236). -/
def lostRecord (c : Nat) (d : Dev) : Dev :=
  event Reg.COMB_EVENT 2 (combWrite (combRing d) 0x0707 [put 16 0 c, stampL d, stampH d] d).1

/-- EPOCH record (R233, R238). -/
def epochRecord (restart : Bool) (d : Dev) : Dev :=
  (combWrite (combRing d) 0x0708 [d.dmk.epoch, stampL d, stampH d ||| putB 0 restart] d).1

/-! Search and placement (R227-R229) -/

/-- Home and alternate bucket of an EPC. -/
def combBuckets (epc : List Bool) : Nat × Nat :=
  let h := crc32c (bytesOfBits 63 epc)
  let b := h % 16384
  let a := h / 65536 % 16384
  (b, if a = b then b ^^^ 0x2000 else a)

/-- Cells of a bucket; none when it is retired. -/
def bucketCells (d : Dev) (b : Nat) : List Nat := if d.comb.retired.contains b then [] else (List.range 8).map (8 * b + ·)

/-- The home cell of an EPC, if any. -/
def combFind (d : Dev) (epc : List Bool) : Option Nat :=
  let (b, a) := combBuckets epc
  (bucketCells d b ++ bucketCells d a).find? fun c => cellHome d c && decide (cellEpc d c = epc)

/-- Cells an EPC needs (R226). -/
def cellsNeeded (n : Nat) : Nat := if n ≤ 128 then 1 else 1 + (n - 96 + 223) / 224

/-- Free cells of a bucket. -/
def bucketFree (d : Dev) (b : Nat) : List Nat := (bucketCells d b).filter fun c => !cellValid d c

/-- Age of a cell in cycles. -/
def cellAge (d : Dev) (c : Nat) : Nat := (d.tb.cyc.extractLsb' 0 32 - cellW d c 5).toNat

/-- Evicts the oldest cell of the two buckets that may go (R227). -/
def combEvict (b a : Nat) (d : Dev) : Dev :=
  let cand := ((bucketCells d b ++ bucketCells d a).mergeSort (· ≤ ·)).filter fun c =>
    cellHome d c && !cellPresent d c && !cellPend d c && !cellPinned d c && !cellUnrep d c
  match cand with
  | [] => d
  | c :: cs => cellFree (cs.foldl (fun m x => if cellAge d m < cellAge d x then x else m) c) d

/-- Free cells for a tag: its home cell from the bucket with more free cells, the home bucket on a tie; the extension cells
from the same bucket first. -/
def combRoom (d : Dev) (b a n : Nat) : Option (List Nat) :=
  let fb := bucketFree d b
  let fa := bucketFree d a
  let l := if fb.length < fa.length then fa ++ fb else fb ++ fa
  if n ≤ l.length then some (l.take n) else none

/-- A new home cell with its extension cells (R225, R226). -/
def cellWrite (cs : List Nat) (epc : List Bool) (pc : Word) (d : Dev) : Dev :=
  match cs with
  | [] => d
  | c :: es =>
    let clear := fun (d : Dev) (e : Nat) =>
      ({ d with comb := { d.comb with cells := CMap.clearRange d.comb.cells (8 * e) (8 * e + 7) } } : Dev)
    let d := cs.foldl clear d
    let put4 := fun (ws : List Word) (c : Nat) (d : Dev) => ((List.range ws.length).zip ws).foldl (fun d p => setCellW c p.1 p.2 d) d
    let d := if es.isEmpty then put4 (packBits 4 epc) c d
      else
        let d := setCellW c 3 (put 16 0 (nth 0 es 0)) (put4 (packBits 3 (epc.take 96)) c d)
        ((List.range es.length).zip es).foldl (fun d p =>
          let nx := if p.1 + 1 < es.length then nth 0 es (p.1 + 1) else 0x1FFFF
          setCellW p.2 7 (put 31 15 nx ||| 0xC0) (put4 (packBits 7 ((epc.drop (96 + 224 * p.1)).take 224)) p.2 d)) d
    setCellW c 4 (pc <<< 16) (setCellW c 7 (0x80 ||| putB 5 (!es.isEmpty)) d)

/-- What a placement raised: bits 0 ARRIVE, 1 MOVE, 2 DWELL. -/
structure Placed where
  cell : Nat
  arrive : Bool
  move : Bool
  dwell : Bool
  prev : Nat

/-- Presence update of a cell at a read (R229), before its records. -/
def presence (c : Nat) (pc : Word) (aer rssi phase : Nat) (d : Dev) : Dev × Placed :=
  let now := d.tb.cyc.extractLsb' 0 32
  let d := if !cellPresent d c && !cellPend d c then
      let d := setCellF c 7 31 20 0 (setCellF c 7 19 16 aer (setCellFlag c 3 false (setCellFlag c 2 true d)))
      setCellW c 6 (put 31 8 (fld now 31 8) ||| put 7 0 rssi) (setCellF c 4 15 0 0 d)
    else d
  let d := setCellF c 7 31 20 (min 4095 (fld (cellW d c 7) 31 20 + 1)) (setCellW c 5 now d)
  let d := setCellF c 7 15 8 phase (setCellW c 4 (pc <<< 16 ||| put 15 0 (fld (cellW d c 4) 15 0 ||| 2 ^ aer)) d)
  let arrN := max 1 (fld (reg d Reg.COMB_PRES) 3 0)
  let moveDb := fld (reg d Reg.COMB_MOVE) 7 0
  let baer := fld (cellW d c 7) 19 16
  let cr := fld (cellW d c 6) 7 0
  let (d, arrive, move) :=
    if cellPend d c then
      (if arrN ≤ fld (cellW d c 7) 31 20 then (setCellFlag c 4 true (setCellFlag c 2 false d), true, false) else (d, false, false))
    else if aer = baer then (setCellF c 6 7 0 (max cr rssi) d, false, false)
    else if moveDb ≠ 0 ∧ cr + moveDb ≤ rssi then
      (setCellF c 4 15 0 (2 ^ aer) (setCellF c 6 7 0 rssi (setCellF c 7 19 16 aer d)), false, true)
    else (d, false, false)
  let dwell := fld (reg d Reg.COMB_DWELL) 19 0
  let stay := (fld now 31 8 + 2 ^ 24 - fld (cellW d c 6) 31 8) % 2 ^ 24
  let isDwell := cellPresent d c && !cellDwelt d c && decide (dwell ≠ 0 ∧ dwell ≤ stay)
  let d := if isDwell then setCellFlag c 3 true d else d
  (d, ⟨c, arrive, move, isDwell, baer⟩)

/-- Finds or makes the cell of a tag (R227). -/
def combCell (epc : List Bool) (pc : Word) (d : Dev) : Dev × Option Nat :=
  match combFind d epc with
  | some c => (d, some c)
  | none =>
    let (b, a) := combBuckets epc
    let n := cellsNeeded epc.length
    match combRoom d b a n with
    | some cs => (cellWrite cs epc pc d, cs.head?)
    | none =>
      let d := combEvict b a d
      match combRoom d b a n with
      | some cs => (cellWrite cs epc pc d, cs.head?)
      | none => (d, none)

/-- Places a read and writes its records (R227, R229, R232): answers the cell index, 0x1FFFF for none, and the events. -/
def combPlace (epc : List Bool) (pc : Word) (aer rssi phase slot : Nat) (d : Dev) : Dev × Nat × Nat :=
  let evt := reg d Reg.COMB_EVT_CFG
  let count64 := fun (d : Dev) => ({ d with comb := { d.comb with places := d.comb.places + 1 } } : Dev)
  let unplaced := fun (d : Dev) =>
    if bit evt 11 then
      (combOffer (combRing d) 0x0705
        ([putB 30 (dmkEn d) ||| put 23 17 slot ||| put 16 0 0x1FFFF, stampL d,
          stampH d ||| put 23 20 aer ||| put 19 16 aer ||| put 15 8 rssi ||| put 7 0 phase, pc <<< 16 ||| put 15 0 (2 ^ aer),
          0] ++ combId d epc) d).1
    else d
  if fenced d 0x05 ∨ !domOn d 5 then (unplaced d, 0x1FFFF, 0)
  else match combCell epc pc d with
  | (d, none) => (unplaced (event Reg.COMB_EVENT 1 (count Reg.COMB_NOCELL 31 0 1 d)), 0x1FFFF, 0)
  | (d, some c) =>
    let (d, p) := presence c pc aer rssi phase (count64 d)
    let body := fun (d : Dev) (prev : Nat) => combBody d c false slot aer prev d.tb.cyc rssi phase
    let d := if p.arrive && bit evt 7 then
        let (d, ok) := combOffer (combRing d) 0x0701 (body d aer) d
        unrepAfter c ok d
      else d
    let d := if p.move && bit evt 9 then (combOffer (combRing d) 0x0703 (body d p.prev) d).1 else d
    let d := if p.dwell && bit evt 10 then (combOffer (combRing d) 0x0704 (body d aer) d).1 else d
    let d := if bit evt 11 then (combOffer (combRing d) 0x0705 (body d aer) d).1 else d
    (d, c, (if p.arrive then 1 else 0) + (if p.move then 2 else 0) + (if p.dwell then 4 else 0))

/-! The background sweep (R230, R234) -/

/-- The replay of an UNREP cell, when the ring keeps its reserve; with FREE_DEP at 1 a cell whose DEPART is replayed is freed then. -/
def replayCell (c : Nat) (d : Dev) : Dev :=
  let evt := reg d Reg.COMB_EVT_CFG
  let w6 := cellW d c 6
  let pres := cellPresent d c
  let stamp := if pres then cycOf (fld w6 31 8 * 256 + (d.tb.cyc.toNat / 2 ^ 32 * 2 ^ 32)) else lastFull d (cellW d c 5)
  let stamp := if pres ∧ d.tb.cyc < stamp then stamp - cycOf (2 ^ 32) else stamp
  let body := sweepBody d c true stamp
  let r := ring d (combRing d)
  if cellUnrep d c && r.en && r.pendGap == 0 && decide (body.length + 1 + max 2 (fld evt 23 16) ≤ r.room) then
    let (d, ok) := combOffer (combRing d) (if pres then 0x0701 else 0x0702) body d
    if ok ∧ !pres ∧ !cellPend d c ∧ !cellPinned d c ∧ bit (reg d Reg.COMB_CFG) 3 then cellFree c d
    else if ok then setCellFlag c 0 false d else d
  else d

/-- A visit of a cell (R230). -/
def combVisit (c : Nat) (d : Dev) : Dev :=
  if cellHome d c then
    let age := cellAge d c
    let dep := fld (reg d Reg.COMB_PRES) 31 16
    let go := cellPresent d c && decide (dep < age)
    let d := if go then departCell c d else d
    if go && bit (reg d Reg.COMB_CFG) 3 && !cellUnrep d c then cellFree c d
    else if cellPend d c && !cellUnrep d c && decide (dep < age) then cellFree c d
    else if !cellPresent d c && !cellPend d c && !cellPinned d c && !cellUnrep d c && decide (2 ^ 31 ≤ age) then cellFree c d
    else replayCell c (setCellF c 6 7 0 (fld (cellW d c 6) 7 0 - fld (reg d Reg.COMB_MOVE) 15 8) d)
  else d

/-- Visits the sweep may still make in the present mains cycle (R230). -/
def visitsLeft (d : Dev) : Nat :=
  256 * 2 ^ fld (reg d Reg.COMB_CFG) 1 0 - (if d.comb.visitCyc = d.tb.cyc then d.comb.visits else 0)

/-- The sweep has made a visit in the present cycle. -/
def visitCount (d : Dev) : Dev :=
  { d with comb := { d.comb with visitCyc := d.tb.cyc, visits := (if d.comb.visitCyc = d.tb.cyc then d.comb.visits else 0) + 1 } }

/-! Dumps (R235) -/

/-- Word `w` of a cell as a dump reads it: EPC words read as 0 while Damask is on. -/
def dumpWord (d : Dev) (ws : List Word) (w : Nat) : Word :=
  let f := nth 0 ws 7
  let hide := dmkEn d && (if bit f 6 then decide (w ≤ 6) else if bit f 5 then decide (w ≤ 2) else decide (w ≤ 3))
  if hide then 0 else nth 0 ws w

/-- All words of a cell. -/
def cellWords (d : Dev) (c : Nat) : List Word := (List.range 8).map (cellW d c)

/-- A read of `COMB_DUMP_DATA`: word 0 latches the cell; the pointer advances. -/
def combDump (d : Dev) : Dev × Word :=
  let p := fld (reg d Reg.COMB_DUMP_IDX) 19 0
  let c := p / 8
  let d := if p % 8 = 0 then { d with comb := { d.comb with latch := some (c, cellWords d c) } } else d
  let ws := match d.comb.latch with
    | some (k, l) => if k = c then l else cellWords d c
    | none => cellWords d c
  (setReg Reg.COMB_DUMP_IDX (put 19 0 (p + 1)) d, dumpWord d ws (p % 8))

/-! Command sweeps (R235, R241) -/

/-- A home cell matches the selection of a sweep's block. -/
def sweepMatch (d : Dev) (b : List Word) (c : Nat) : Bool :=
  let w0 := nth 0 b 0
  let kept := !cellPresent d c && !cellPend d c
  let sel := (bit w0 28 && cellPresent d c) || (bit w0 29 && cellPend d c) || (bit w0 30 && kept) || (bit w0 31 && cellUnrep d c)
  let n := min 128 (fld w0 7 0)
  let pre := unpackBits n ((b.drop 2).take 4)
  let epc := cellEpc d c
  let link := fld w0 26 24 ≠ 5 ∨ pseudonym d (nth 0 b 6) epc = nth 0 b 7 ++ nth 0 b 8
  cellHome d c && sel && decide ((nth 0 b 1).toNat ≤ cellAge d c) && decide (epc.take n = pre) && decide link

/-- The action of a sweep on a matching cell; answers the records written. -/
def sweepAct (b : List Word) (c : Nat) (d : Dev) : Dev × Nat :=
  let w0 := nth 0 b 0
  match fld w0 26 24 with
  | 0 => let (d, ok) := combOffer (fld w0 20 16) 0x0706 (sweepBody d c false d.tb.cyc) d; (d, if ok then 1 else 0)
  | 5 => let (d, ok) := combOffer (fld w0 20 16) 0x0706 (sweepBody d c false d.tb.cyc) d; (d, if ok then 1 else 0)
  | 1 => (cellFree c d, 0)
  | 2 => if cellPresent d c then
      let before := d.comb.recs
      let d := departCell c d
      (d, (d.comb.recs - before).toNat)
    else (d, 0)
  | 3 => (setCellFlag c 1 true d, 0)
  | 4 => (setCellFlag c 1 false d, 0)
  | _ => (d, 0)

/-- Words the records of a bucket's matching cells take. -/
def bucketWords (d : Dev) (b : List Word) (bucket : Nat) : Nat :=
  (((bucketCells d bucket).filter (sweepMatch d b)).map fun c => (sweepBody d c false d.tb.cyc).length + 1).sum

/-- A REPORT or LINK sweep lacks room for the next bucket's records. -/
def sweepWaits (d : Dev) (o : Op) (bucket : Nat) : Bool :=
  let w0 := nth 0 o.block 0
  let r := ring d (fld w0 20 16)
  let need := bucketWords d o.block bucket
  (fld w0 26 24 == 0 || fld w0 26 24 == 5) && decide (need ≠ 0) && (!r.en || r.pendGap != 0 || decide (r.room < need + 2))

/-- One bucket of the running sweep (R235): a pending request takes hold at its boundary; the last one ends the sweep. -/
def sweepBucket (o : Op) (bucket : Nat) (d : Dev) : Dev :=
  let cs := (bucketCells d bucket).filter (sweepMatch d o.block)
  let (d, n) := cs.foldl (fun (p : Dev × Nat) c => let (d, k) := sweepAct o.block c p.1; (d, p.2 + k)) (d, 0)
  let res := [nw (nth 0 o.res 0).toNat + nw cs.length, nw (nth 0 o.res 1).toNat + nw n]
  let d := updOp o.tag (fun o => { o with res := res, progress := nw (bucket + 1) }) d
  { d with comb := { d.comb with sweep := some ⟨o.tag, bucket + 1⟩ } }

/-- The next bucket from `b` that holds a cell; 16,384 for none. -/
def nextBucket (d : Dev) (b : Nat) : Nat :=
  match (d.comb.cells.filter fun e => decide (64 * b ≤ e.1)).head? with
  | some e => e.1 / 64
  | none => 16384

/-- The sweep goes on: empty buckets are passed, then one bucket is acted on, unless it waits for room. -/
def sweepStep (d : Dev) : Dev :=
  match d.comb.sweep with
  | none => d
  | some s =>
    match findOp d s.tag with
    | none => { d with comb := { d.comb with sweep := none } }
    | some o =>
      if o.pend ≠ .none ∨ o.failAs ≠ none then opTake o d
      else
        let b := min 16384 (nextBucket d s.bucket)
        let d := updOp o.tag (fun o => { o with progress := nw b }) { d with comb := { d.comb with sweep := some ⟨s.tag, b⟩ } }
        if 16384 ≤ b then doneOp o (if o.res = [] then [0, 0] else o.res) d
        else if sweepWaits d o b then d
        else sweepBucket o b (progressRecord { o with progress := nw b } d)

/-! Epochs (R238) -/

/-- Minutes of an epoch. -/
def epochLen (d : Dev) : Nat := max 1 (fld (reg d Reg.COMB_DMK_CFG) 31 16)

/-- `COMB_DMK_LEFT`. -/
def dmkLeft (d : Dev) : Nat := epochLen d - (d.now - d.dmk.since) / 9600000000

/-- Sets E and restarts its count. -/
def setEpoch (e : Word) (d : Dev) : Dev := epochRecord false <| keepWrite 517 { d with dmk := { d.dmk with epoch := e, since := d.now } }

/-- `COMB_DMK_KEY` (R244). -/
def dmkKeyWord (d : Dev) : Word :=
  put 31 16 d.dmk.gen.toNat ||| putB 2 d.dmk.origin ||| putB 1 d.dmk.nx ||| putB 0 d.dmk.key.isSome

/-- `COMB_STATUS`. -/
def combStatusWord (d : Dev) : Word := putB 31 d.comb.sweep.isSome ||| putB 30 (d.comb.sparing.any fun e => decide (d.now < e.2)) ||| put 9 0 d.comb.spares

end Sys2Proof.Machine
end

