-- ==== Sys2Proof/Machine/TagmOps.lean ====
section
/-! DEFINITION. The commissioning tag and its mailbox: blocks, records, the commit, protection, frames and replies
(R276-R295). -/
namespace Sys2Proof.Machine

/-! Blocks and records (R282, R284, R285) -/

/-- As shipped record 0 of a block is current with SEQ 0 and image 0. -/
def recDefault (_ : Nat) : RecPair := ⟨⟨0, false, false, true⟩, ⟨0, false, false, false⟩⟩

/-- As shipped block 0 begins with the Type 5 capability container; every other word is 0. -/
def framDefault (k : Nat) : Word := if k = 0 then 0xE2400001 else if k = 1 then 0x000001FF else 0

def framWord (g : Tagm) (k : Nat) : Word := CMap.get framDefault g.fram k
def blockRecs (g : Tagm) (b : Nat) : RecPair := CMap.get recDefault g.recs b

/-- `a` is newer than `b`. -/
def seqNewer (a b : BitVec 16) : Bool := decide (1 ≤ (a - b).toNat ∧ (a - b).toNat ≤ 32767)

/-- The current record of a block: which, and its content. -/
def curRec (g : Tagm) (b : Nat) : Option (Bool × CommitRec) :=
  let p := blockRecs g b
  match p.r0.valid, p.r1.valid with
  | true, true => if seqNewer p.r1.seq p.r0.seq then some (true, p.r1) else some (false, p.r0)
  | true, false => some (false, p.r0)
  | false, true => some (true, p.r1)
  | false, false => none

/-- Current image of a block: image 0 while neither record is valid. -/
def curImage (g : Tagm) (b : Nat) : Bool := match curRec g b with | none => false | some (_, r) => r.img

/-- Word of an image. -/
def imageKey (b : Nat) (img : Bool) (w : Nat) : Nat := 16 * b + (if img then 8 else 0) + w

/-- The committed words of a block. -/
def blockWord (g : Tagm) (b w : Nat) : Word := if (curRec g b).isNone then 0 else framWord g (imageKey b (curImage g b) w)
def blockWords (g : Tagm) (b : Nat) : List Word := (List.range 8).map (blockWord g b)

/-- `TAGM_MB_SEQ` (R298). -/
def mbSeqWord (g : Tagm) (b : Nat) : Word :=
  match curRec g b with
  | none => putB 2 true
  | some (_, r) => put 31 16 r.seq.toNat ||| putB 1 r.fld ||| putB 0 r.img

/-! The commit (R286) -/

/-- Step 3: the data go to the image that is not current. -/
def stageBlock (b : Nat) (ws : List Word) (g : Tagm) : Tagm :=
  let put1 := fun (m : CMap Word) (p : Nat × Word) => CMap.set framDefault m (imageKey b (!curImage g b) p.1) p.2
  { g with fram := ((List.range 8).zip (ws ++ List.replicate 8 0)).foldl put1 g.fram }

/-- Step 4: the record that is not current is written with the next SEQ and the other image. -/
def commitBlock (b : Nat) (field : Bool) (g : Tagm) : Tagm :=
  let p := blockRecs g b
  let p' : RecPair := match curRec g b with
    | none => { p with r0 := ⟨1, true, field, true⟩ }
    | some (true, r) => { p with r0 := ⟨r.seq + 1, !r.img, field, true⟩ }
    | some (false, r) => { p with r1 := ⟨r.seq + 1, !r.img, field, true⟩ }
  let area := 2 * b + (match curRec g b with | some (false, _) => 1 | _ => 0)
  { g with recs := CMap.set recDefault g.recs b p', writes := CMap.set (fun _ => 0) g.writes area (CMap.get (fun _ => 0) g.writes area + 1) }

/-- A host write of a block: steps 3 and 4 with FLD 0 (R290). -/
def hostBlock (b : Nat) (ws : List Word) (g : Tagm) : Tagm := commitBlock b false (stageBlock b ws g)

/-! Protection (R283) -/

def readDenied (g : Tagm) (b : Nat) : Bool := bit g.fprotS (16 + b / 16)
def writeDenied (g : Tagm) (b : Nat) : Bool := bit g.fprotS (b / 16) || decide (240 ≤ b)

/-- The host writes block `b` at tick `t` (R291). -/
def hostWriting (g : Tagm) (b t : Nat) : Bool :=
  match g.hostW with
  | none => false
  | some h => decide (h.first ≤ b ∧ b < h.first + h.total ∧ h.start + us (6 * (b - h.first)) ≤ t
      ∧ t < h.start + us (6 * (b - h.first + 1)))

/-- A field write of block `b` is refused: protection, the capability container in force, or a host write. -/
def writeRefused (g : Tagm) (b t : Nat) (ws : List Word) : Bool :=
  writeDenied g b || (decide (b = 0) && decide (ws.take 2 ≠ (blockWords g 0).take 2)) || hostWriting g b t

/-! Supply and sessions (R276-R278, R288) -/

/-- The always-on domain is on: the mailbox is supplied from VSYS. -/
def aonOn (d : Dev) : Bool := decide (3 ≤ d.sys.stage)

def vhOn : Nat := 1250
def vhReset : Nat := 1150
def vrd : Nat := 1400
def vwr : Nat := 1800

/-- Level for steps 3 and 4. -/
def writeSupply (d : Dev) (vh : Nat) : Bool := aonOn d || decide (vwr ≤ vh)

/-- `TAGM_STATUS` (R298). -/
def tagmStatusWord (d : Dev) (g : Tagm) : Word :=
  put 19 8 g.vh ||| putB 3 g.hostW.isSome ||| putB 2 (aonOn d) ||| putB 1 g.lock.isSome ||| putB 0 g.sess

/-- UID in force (R281): 0 outside a session. -/
def uidShown (g : Tagm) : DWord := if g.sess then g.uid else 0

/-- An event and counters of the TAGM bank, while the device is powered. -/
def tagmEvent (b : Nat) (d : Dev) : Dev := if aonOn d then event Reg.TAGM_EVENT b d else d
def tagmCount (hi lo : Nat) (d : Dev) : Dev := if aonOn d then count Reg.TAGM_CNT hi lo 1 d else d

/-- Ring of the TAGM records: that of the configuration in force, outside a session the stored one (R294, R295). -/
def tagmRing (g : Tagm) : Nat := fld (if g.sess then g.cfgS else g.cfg) 12 8

/-- Content of the identity block (R282). -/
def identityWords (d : Dev) : List Word :=
  [0x7416B100 ||| putB 0 Config.gradeE, Config.serial.extractLsb' 32 32, Config.serial.extractLsb' 0 32, d.sys.fwVer, 0, 0, 0, 0]

/-- Firmware writes the identity block when its content has changed (R282). -/
def identityWrite (s : State) : State :=
  if blockWords s.tagm 240 = identityWords s.dev then s
  else { s with tagm := hostBlock 240 (identityWords s.dev) s.tagm }

/-- MBOX records of the blocks the field has written and firmware has not reported (R293, R294). -/
def mboxReport (powerUp : Bool) (s : State) : State :=
  if aonOn s.dev && domOn s.dev (coreDom s.dev) then
    (List.range 256).foldl (fun s b =>
      match curRec s.tagm b with
      | some (_, r) =>
        if r.fld ∧ CMap.get (fun _ => 0x10000) s.tagm.reported b ≠ r.seq.toNat then
          { s with tagm := { s.tagm with reported := CMap.set (fun _ => 0x10000) s.tagm.reported b r.seq.toNat }
                   dev := writeRecord (tagmRing s.tagm) 0x0601
                     [put 31 24 b ||| put 23 8 r.seq.toNat ||| putB 0 powerUp, stampL s.dev, stampH s.dev] (keepWrite (600 + b) s.dev) }
        else s
      | none => s) s
  else s

/-- What a power-up of the core in service asks for, once its firmware runs: the identity block and the report (R282, R293). -/
def mboxScanDue (s : State) : State :=
  if s.dev.cpu.mboxScan ∧ s.dev.cpu.bootRom = false ∧ domOn s.dev (coreDom s.dev) = true then
    mboxReport true (identityWrite { s with dev := { s.dev with cpu := { s.dev.cpu with mboxScan := false } } })
  else s

/-- The lock is released; firmware reports while the device is powered (R288, R293). -/
def lockRelease (s : State) : State :=
  if s.tagm.lock.isSome then mboxReport false { s with tagm := { s.tagm with lock := none } } else s

/-! Host writes (R290-R292) -/

/-- Commits the blocks of a host write whose 6 us are over. -/
def hostCommits : Nat → Nat → HostWrite → Tagm → HostWrite × Tagm
  | 0, _, h, g => (h, g)
  | fuel + 1, now, h, g =>
    if h.done < h.total ∧ h.start + us (6 * (h.done + 1)) ≤ now then
      hostCommits fuel now { h with done := h.done + 1 } (hostBlock (h.first + h.done) ((h.words.drop (8 * h.done)).take 8) g)
    else (h, g)

/-- A host write goes on to the present tick and ends with its reply (R290): OK, or MBOX_BUSY when the field has stopped
it. -/
def hostRunAt (now : Nat) (s : State) : State :=
  match s.tagm.hostW with
  | none => s
  | some h =>
    let (h, g) := hostCommits 33 now h s.tagm
    let d := updOp h.tag (fun o => if o.opcode = 0x602 then { o with progress := nw h.done } else o) s.dev
    if h.total ≤ h.done then
      let busy := decide (8 * h.total < h.words.length)
      let d := if busy then endShort 0x602 h.tag 0x52 .failed (event Reg.TAGM_EVENT 5 d) else endShort 0x602 h.tag 0x00 .done d
      { s with dev := d, tagm := { g with hostW := none } }
    else { s with dev := d, tagm := { g with hostW := some h } }
def hostRun (s : State) : State := hostRunAt s.dev.now s

/-- The end of a host write in progress. -/
def hostFinish (s : State) : State :=
  match s.tagm.hostW with
  | none => s
  | some h => hostRunAt (h.start + us (6 * h.total)) s

/-- The field takes the lock at tick `t` (R290, R292): only blocks whose step 3 has begun before are still committed. -/
def hostStop (t : Nat) (h : HostWrite) : HostWrite := { h with total := min h.total (max h.done ((t - h.start + 959) / 960)) }

/-! Frames (R279-R288) -/

/-- The tag is the one a request speaks to. -/
def tagAddressed (g : Tagm) (m : TagMode) : Bool :=
  match m with
  | .nonAddressed => decide (g.tagSt ≠ .quiet)
  | .addressed u => decide (u = g.uid)
  | .selected => decide (g.tagSt = .selected)

/-- Addressed to this tag or sent in the selected mode. -/
def tagDirect (g : Tagm) (m : TagMode) : Bool :=
  match m with
  | .nonAddressed => false
  | _ => tagAddressed g m

/-- The field collapses in step `k`. -/
def collapses (f : TagFrame) (k : Nat) : Bool := match f.collapse with | none => false | some i => decide (i.val = k)

/-- Steps 1 and 2 pass: the rail, the CRC and the configuration (R286, R295). -/
def frameHeard (g : Tagm) (f : TagFrame) : Bool :=
  g.sess && bit g.cfgS 0 && decide (vrd ≤ f.vh1 ∧ vrd ≤ f.vh2) && !collapses f 1 && !collapses f 2 && f.crcOk

/-- Step 2 of a valid frame: the lock is taken or its time restarts; the frame is counted (R288, R294). -/
def frameTake (f : TagFrame) (s : State) : State :=
  { s with tagm := { s.tagm with hostW := s.tagm.hostW.map (hostStop f.t), lock := some f.t, nValid := min 0xFFFF (s.tagm.nValid + 1) } }

/-- A reply leaves whole when the rail holds VRD at step 5 and the field stays. -/
def replyTo (f : TagFrame) (bytes : List Byte) (s : State) : State :=
  { s with tagm := { s.tagm with reply := if vrd ≤ f.vh5 ∧ collapses f 5 = false then bytes else [] } }

/-- Error reply. -/
def tagError (f : TagFrame) (code : Byte) (s : State) : State := replyTo f [0x01, code] s

/-- A refused field access is counted (R283, R298). -/
def countRefuse (s : State) : State :=
  { s with dev := tagmCount 7 0 (tagmEvent 3 s.dev), tagm := { s.tagm with nRefuse := min 0xFF (s.tagm.nRefuse + 1) } }

/-- A request the tag acts on: at the frame's tick, with no reply unless its effect forms one. -/
def tagCommand (f : TagFrame) (acts : Tagm → Bool) (effect : State → State) (s : State) : State :=
  let s := hostRun { s with dev := tick f.t s.dev, tagm := { s.tagm with reply := [], vh := if s.tagm.sess then min 4095 f.vh5 else s.tagm.vh } }
  if frameHeard s.tagm f && !outOfService s.dev 0x11 && acts s.tagm then hostRun (effect (frameTake f s)) else s

/-- Bytes of a block, byte 0 first. -/
def blockBytes (g : Tagm) (b : Nat) : List Byte := (blockWords g b).flatMap bytesOf

/-- Security status byte of a block (R279). -/
def secByte (g : Tagm) (b : Nat) : Byte := if writeDenied g b then 1 else 0

/-- Bytes of the UID as sent: least significant first. -/
def uidBytes (u : DWord) : List Byte := (List.range 8).map fun i => BitVec.ofNat 8 (u.toNat / 256 ^ i)

/-- A field write of a block from its step 3 on (R286, R287). -/
def fieldWrite (f : TagFrame) (b : Nat) (ws : List Word) (s : State) : State :=
  let abandon := fun (s : State) => { s with dev := tagmCount 15 8 (tagmEvent 4 s.dev) }
  if writeRefused s.tagm b f.t ws then countRefuse (tagError f 0x12 s)
  else if !writeSupply s.dev f.vh3 then abandon (if vrd ≤ f.vh3 then tagError f 0x13 s else s)
  else if collapses f 3 then
    abandon s
  else
    let s := { s with tagm := stageBlock b ws s.tagm }
    if !writeSupply s.dev f.vh4 then abandon (if vrd ≤ f.vh4 then tagError f 0x13 s else s)
    else
      let s := { s with dev := tagmCount 23 16 (tagmEvent 2 s.dev)
                        tagm := { commitBlock b true s.tagm with nCommit := min 0xFF (s.tagm.nCommit + 1) } }
      if collapses f 4 then s else replyTo f [0x00] s

end Sys2Proof.Machine
end

