-- ==== Sys2Proof/Machine/SvcOps.lean ====
section
/-! DEFINITION. Fences, retired slices and the safe state as SERVICE, `SVC_FENCE_CTRL` and the recoveries use them, and
the status words of the SVC bank (R458-R461, R468-R470). -/
namespace Sys2Proof.Machine

/-! Fence and unfence (R460, R468) -/

/-- FENCE of a block that can be fenced is WRONG_STATE. -/
def fenceWrong (d : Dev) (b : Nat) : Bool :=
  fenced d b || (decide (b = 1) && linkOffIgnored d false) || (decide (b = 2) && linkOffIgnored d true)
    || (decide (b = 3) && (fenced d 4 || (decide (b = blkCore d) && !d.cpu.spareOk)))
    || (decide (b = 4) && (fenced d 3 || (decide (b = blkCore d) && !d.cpu.spareOk)))

/-- UNFENCE is WRONG_STATE: the block is not fenced, or one of its faults is open. -/
def unfenceWrong (d : Dev) (b : Nat) : Bool :=
  !fenced d b || d.svc.opens.any (fun h => h.block = b) || d.svc.queue.any (fun h => h.block = b)

/-- A port returns to slave service with a new epoch (R323). -/
def portOn (b : Bool) (d : Dev) : Dev := newEpoch b (setPort b { port d b with off := false, readyAt := d.now } d)

/-- UNFENCE (R460): the same-block rule of R456 starts afresh; a port and a chain stay as they are until they are written. -/
def unfenceBlock (b : Nat) (d : Dev) : Dev :=
  let d := keepWrite 512 { d with svc := { d.svc with
    fences := d.svc.fences &&& ~~~ BitVec.ofNat 24 (2 ^ b), recent := d.svc.recent.filter fun h => h.block ≠ b } }
  let d := if b = blkKeep then { d with svc := { d.svc with kept := none, ledger := lastN 512 d.svc.ledger } } else d
  if b = 1 ∧ d.portA.off then portOn false d else if b = 2 ∧ d.portB.off then portOn true d else d

/-- FENCE or UNFENCE of a block: the status (0x00, BAD_PARAM 0x17, WRONG_STATE 0x1C) and its effect. -/
def fenceRequest (b : Nat) (un : Bool) (d : Dev) : Dev × Nat :=
  if !blockFences b then (d, 0x17)
  else if un then (if unfenceWrong d b then (d, 0x1C) else (unfenceBlock b d, 0))
  else if fenceWrong d b then (d, 0x1C)
  else
    let (d', ok) := fenceBlock b d
    if ok then (d', 0) else (d, 0x1C)

/-- A write of `SVC_FENCE_CTRL` (R468, R470): without its key it is ignored; refused it sets REJ. -/
def writeFenceCtrl (v : Word) (d : Dev) : Dev :=
  if fld v 31 24 = 0x5A then
    let (d', st) := fenceRequest (fld v 7 0) (bit v 8) d
    if st = 0 then d' else event Reg.SVC_EVENT 7 d
  else d

/-! Retired slices (R461) -/

/-- Entries of `SVC_RETIRED` of a chain: its first and second retirement. -/
def retiredOf (d : Dev) (ch : Bool) : List Nat :=
  let w := d.svc.retired
  let f := fun (hi : Nat) => if bit w hi then [fld w (hi - 3) (hi - 7)] else []
  if ch then f 23 ++ f 31 else f 7 ++ f 15

/-- The set that is active or takes over at the next entry to SAMPLING. -/
def activeNext (d : Dev) (ch : Bool) : BitVec 18 := (chain d ch).nextActive.getD (chain d ch).active

/-- SNR code of a slice of a chain. -/
def sliceSnr (d : Dev) (ch : Bool) (s : Nat) : Nat := fld (memW d.cal.snr ((if ch then 18 else 0) + s)) 9 0

/-- The spare with the highest SNR among slices neither active nor retired, the lowest number among equals. -/
def bestSpare (d : Dev) (ch : Bool) : Option Nat :=
  ((List.range 18).filter fun s => !(activeNext d ch).getLsbD s && !(retiredOf d ch).contains s).foldl
    (fun b s => match b with
      | none => some s
      | some p => if sliceSnr d ch p < sliceSnr d ch s then some s else some p) none

/-- Bits of one slice in a set. -/
def sliceBit (s : Nat) : BitVec 18 := BitVec.ofNat 18 (2 ^ s)

/-- Retires an active slice when a spare is left (R461): the spare joins, the slice leaves, and the chain's slice
calibration is pending. -/
def retireSlice (ch : Bool) (s : Nat) (d : Dev) : Dev :=
  match bestSpare d ch with
  | none => d
  | some sp =>
    let set := (activeNext d ch ||| sliceBit sp) &&& ~~~ sliceBit s
    let d := setChain ch { chain d ch with nextActive := some set } d
    let second := !(retiredOf d ch).isEmpty
    let lo := (if ch then 16 else 0) + (if second then 8 else 0)
    let i := if ch then 6 else 4
    let d := calPend i 0 <| keepWrite 513 { d with svc := { d.svc with retired := setFld d.svc.retired (lo + 7) lo (0x80 + s) } }
    event Reg.SVC_EVENT 4 d

/-- RETIRE is WRONG_STATE: the slice is not active, no spare is left, or two slices of the chain are retired. -/
def retireWrong (d : Dev) (ch : Bool) (s : Nat) : Bool :=
  !(activeNext d ch).getLsbD s || (bestSpare d ch).isNone || decide (2 ≤ (retiredOf d ch).length)

/-! The safe state (R458, R459) -/

/-- LEAVE_SAFE may succeed. -/
def leaveSafeOk (d : Dev) : Bool := d.svc.safe && d.svc.opens.isEmpty && d.svc.queue.isEmpty && d.pmu.vpa && d.sys.ready

def leaveSafe (d : Dev) : Dev := event Reg.SVC_EVENT 6 { d with svc := { d.svc with safe := false } }

/-- ENTER_SAFE and `SYS_CTRL.SAFE`: HOST_SAFE is recorded, with outcome SAFE where it enters the safe state and NONE where
the safe state already holds (R453, R458, R465; DEDUCED). -/
def hostSafe (d : Dev) : Dev :=
  safeEnter d.svc.next 0x62 0 (recordAs (if d.svc.safe then 4 else 3) 0x62 0 0 0 d)

/-! Status words (R470) -/

def svcStatusWord (d : Dev) : Word :=
  put 15 12 d.svc.queue.length ||| put 9 8 ((d.svc.opens.map Handling.level).foldl max 0)
    ||| putB 1 (!d.svc.opens.isEmpty) ||| putB 0 d.svc.safe

/-- Word of the ledger at a pointer: entry number, word. -/
def ledgerWord (d : Dev) (num w : Nat) : Word :=
  match (heldEntries d).find? fun ws => entryNum ws = num with
  | none => 0
  | some ws => if w < 5 then nth 0 ws w else 0

/-- A read of `SVC_LEDGER_DATA`: the pointer moves on, from word 4 to word 0 of the next entry. -/
def ledgerRead (d : Dev) : Dev × Word :=
  let p := reg d Reg.SVC_LEDGER_IDX
  let w := fld p 18 16
  let e := fld p 15 0
  let p' := if 4 ≤ w then put 15 0 (e + 1) else put 18 16 (w + 1) ||| put 15 0 e
  (setReg Reg.SVC_LEDGER_IDX p' d, ledgerWord d e w)

/-- `SVC_TEST` (R470): block, phase and FAIL are held; RUN follows the operation. -/
def svcTestWord (d : Dev) : Word :=
  (reg d Reg.SVC_TEST &&& ~~~ 1) ||| putB 0 (d.svc.test.isSome)

end Sys2Proof.Machine
end

