-- ==== Sys2Proof/Machine/ImageOps.lean ====
section
/-! DEFINITION. The image port, the control store and the boot ROM (R393, R401-R404). -/
namespace Sys2Proof.Machine

/-! Control store (R393) -/

/-- Entry `i` lies in the span of an enabled decode entry. -/
def ucInSpan (c : Core) (i : Nat) : Bool :=
  c.dec.any fun e => bit e.2 31 && decide (fld e.2 15 8 ≤ i ∧ i ≤ fld e.2 15 8 + fld e.2 3 0)

/-- A decode word enables a span that passes entry 255. -/
def decPasses (v : Word) : Bool := bit v 31 && decide (255 < fld v 15 8 + fld v 3 0)

def csWord (c : Core) (i : Nat) : BitVec 48 := CMap.get (fun _ => 0) c.cs i
def decWord (c : Core) (n : Nat) : Word := memW c.dec n

/-- Bits [18:16] of a control word are Reserved (R12, R393). -/
def csMask : BitVec 48 := 0xFFFFFFF8FFFF

/-- Writes a control-store entry of the core in service, or discards the write with UC_REJ; says whether it was taken. -/
def ucWrite (i : Nat) (v : BitVec 48) (d : Dev) : Dev × Bool :=
  if ucInSpan (coreIn d) i then (event Reg.CORE_EVENT 4 d, false)
  else (setCore { coreIn d with cs := CMap.set (fun _ => 0) (coreIn d).cs i (v &&& csMask) } d, true)

/-- Writes a decode entry of the core in service, or discards the write with UC_REJ. -/
def decWrite (n : Nat) (v : Word) (d : Dev) : Dev × Bool :=
  if decPasses v then (event Reg.CORE_EVENT 4 d, false)
  else (setCore { coreIn d with dec := memSet (coreIn d).dec n (v &&& 0xC000FF0F) } d, true)

/-- A write of `CORE_UC_DATA_H`: the entry at the pointer takes it with the low word written before, and the pointer
advances; a discarded write leaves it. -/
def ucCommit (v : Word) (d : Dev) : Dev × Bool :=
  let i := fld (reg d Reg.CORE_UC_IDX) 7 0
  let (d, ok) := ucWrite i (v.extractLsb' 0 16 ++ reg d Reg.CORE_UC_DATA_L) d
  (if ok then setField Reg.CORE_UC_IDX 7 0 ((i + 1) % 256) d else d, ok)

/-- A read of `CORE_UC_DATA_H` advances the pointer. -/
def ucReadH (d : Dev) : Dev × Word :=
  let i := fld (reg d Reg.CORE_UC_IDX) 7 0
  (setField Reg.CORE_UC_IDX 7 0 ((i + 1) % 256) d, ((csWord (coreIn d) i).extractLsb' 32 16).zeroExtend 32)

/-! The image port (R401, R402) -/

/-- Target in force: 3 acts as 0, and 2 as 0 after READY (R407). -/
def imgTarget (d : Dev) : Nat :=
  match d.cpu.img.target with
  | 1 => 1
  | 2 => if d.sys.ready then 0 else 2
  | _ => 0

/-- A header word is the one R401 lays out for the target. -/
def imgHeaderOk (target i : Nat) (v : Word) : Bool :=
  match i with
  | 0 => decide (v = 0xADEA7416)
  | 1 => decide (fld v 31 24 = (if target = 0 then 2 else 1) ∧ 1 ≤ fld v 23 16 ∧ fld v 23 16 ≤ 32 ∧ fld v 15 0 = 0)
  | 6 => decide (target = 0 ∨ v = 0)
  | 7 => decide (v = 0)
  | _ => true

/-- A section of `len` bytes at `a` lies in a range of R401 for the target. -/
def imgSectionOk (target a len : Nat) : Bool :=
  let inside := fun (lo hi : Nat) => decide (lo ≤ a ∧ a + len ≤ hi + 1)
  decide (len % 4 = 0 ∧ a % 4 = 0) &&
  (match target with
   | 0 => inside 0x30000 0x3FFFF || inside 0x1003C000 0x1003FFFF || inside 0x30000000 0x300007FF || inside 0x30000800 0x3000083F
   | 1 => inside 0 0x2FFFF
   | _ => inside 0 0x2FFFF || inside 0x10000000 0x1003BFFF)

/-- Stores an image word at its address in the target's memories. -/
def imgStore (target a : Nat) (v : Word) (d : Dev) : Dev :=
  if target = 1 then setOther { otherCore d with isram := memSet (otherCore d).isram (a / 4) v } d
  else if a < 0x40000 then setCore { coreIn d with isram := memSet (coreIn d).isram (a / 4) v } d
  else if a < 0x20000000 then { d with cpu := { d.cpu with dsram := memSet d.cpu.dsram ((a - 0x10000000) / 4) v } }
  else if a < 0x30000800 then
    let i := (a - 0x30000000) / 8
    let old := csWord (coreIn d) i
    (ucWrite i (if a % 8 = 0 then old.extractLsb' 32 16 ++ v else v.extractLsb' 0 16 ++ old.extractLsb' 0 32) d).1
  else (decWrite ((a - 0x30000800) / 4) v d).1

def setImg (p : ImgPort) (d : Dev) : Dev := { d with cpu := { d.cpu with img := p } }

/-- RESTART (R402): count, CRC and BAD are cleared, and a new image begins. -/
def imgRestart (d : Dev) : Dev := setImg { ImgPort.reset with target := d.cpu.img.target } d

/-- The image is bad: BAD and IMG_REJ; its further words are discarded. -/
def imgBad (d : Dev) : Dev := event Reg.CORE_EVENT 3 (setImg { d.cpu.img with bad := true } d)

/-- The first word of an image clears its target's committed image. -/
def imgFirst (target : Nat) (d : Dev) : Dev :=
  match target with
  | 0 => { d with cpu := { d.cpu with apl := { d.cpu.apl with ok := false } } }
  | 1 => { d with cpu := { d.cpu with spareOk := false } }
  | _ => d

/-- CRC-32C carried over one more word. -/
def crcWord (crc v : Word) : Word := nw (0xFFFFFFFF ^^^ (bytesOf v).foldl crcByte32 (0xFFFFFFFF ^^^ crc.toNat))

/-- A word of the sections (R401). -/
def imgBody (target : Nat) (v : Word) (d : Dev) : Dev :=
  let p := d.cpu.img
  let d := setImg { p with bytes := p.bytes + 4, crc := crcWord p.crc v } d
  let p := d.cpu.img
  if p.bad then d
  else if p.left ≠ 0 then setImg { p with at_ := p.at_ + 4, left := p.left - 4 } (imgStore target p.at_.toNat v d)
  else match p.secAddr with
  | none => if p.secs < fld (nth 0 p.hdr 1) 23 16 then setImg { p with secAddr := some v } d else imgBad d
  | some a =>
    if imgSectionOk target a.toNat v.toNat then
      setImg { p with secAddr := none, at_ := a, left := v.toNat, secs := p.secs + 1 } d
    else imgBad d

/-- A word written to `CORE_IMG_DATA` (R402); false for a word the port rejects or discards. -/
def imgWord (v : Word) (d : Dev) : Dev × Bool :=
  let t := imgTarget d
  let p := d.cpu.img
  if t = 0 ∧ d.cpu.apl.run then (event Reg.CORE_EVENT 3 d, false)
  else
    let d := if p.bytes = 0 then imgFirst t d else d
    let d' := if p.bytes < 32 then
        let d := setImg { p with bytes := p.bytes + 4, hdr := p.hdr ++ [v] } d
        if p.bad || imgHeaderOk t (p.bytes / 4) v then d else imgBad d
      else imgBody t v d
    (d', !p.bad)

/-- The check of R403 against a byte count and a CRC. -/
def imgCheck (p : ImgPort) (bytes : Nat) (crc : Word) : Bool :=
  !p.bad && decide (8 ≤ p.hdr.length ∧ p.bytes = bytes ∧ (nth 0 p.hdr 4).toNat = bytes ∧ p.crc = crc ∧ nth 0 p.hdr 5 = crc)

/-- The image in the port is committed to its target (R403). -/
def imgCommit (d : Dev) : Dev :=
  let p := d.cpu.img
  let entry := nth 0 p.hdr 3
  match imgTarget d with
  | 1 => { setOther { otherCore d with entry := entry, ver := nth 0 p.hdr 2 } d with cpu :=
      { (setOther { otherCore d with entry := entry, ver := nth 0 p.hdr 2 } d).cpu with spareOk := true } }
  | _ => { d with cpu := { d.cpu with apl := { d.cpu.apl with ok := true, entry := entry, fentry := nth 0 p.hdr 6 } } }

/-! The boot ROM (R404) -/

/-- Firmware starts at the image's entry point and accepts packets: READY rises, and what it loads at start-up is loaded. -/
def firmwareStart (d : Dev) : Dev :=
  let p := d.cpu.img
  let d := setCore { coreIn d with entry := nth 0 p.hdr 3, ver := nth 0 p.hdr 2, pc := nth 0 p.hdr 3, st := .run } d
  let d := { d with cpu := { d.cpu with bootRom := false }
                    sys := { d.sys with ready := true, fwVer := nth 0 p.hdr 2 } }
  fwDescriptors (event Reg.SYS_EVENT 0 d)

/-- The ROM checks the image under R403 and starts firmware, or sets IMG_REJ. -/
def romCheck (d : Dev) : Dev :=
  let p := d.cpu.img
  if imgTarget d = 2 ∧ imgCheck p (nth 0 p.hdr 4).toNat (nth 0 p.hdr 5) = true then firmwareStart d else event Reg.CORE_EVENT 3 d

/-- The ROM runs on the core in service. -/
def romRuns (d : Dev) : Bool := d.cpu.bootRom && !d.sys.ready && decide (7 ≤ d.sys.stage) && domOn d (coreDom d)

/-- SPI_B returns to slave service with a new epoch (R325, R326). -/
def masterLeave (d : Dev) : Dev :=
  newEpoch true (setPort true { d.portB with readyAt := d.now }
    { d with mst := { d.mst with on := false, fw := false, low0 := false, low1 := false, leaving := false } })

/-- The boot with the strap at 1: the flash image is read, checked and started. -/
def romFlash (flash : List Word) (d : Dev) : Dev :=
  let d := imgRestart (setImg { d.cpu.img with target := 2 } d)
  let d := flash.foldl (fun d v => (imgWord v d).1) d
  let d := romCheck d
  masterLeave { d with sys := { d.sys with flash := false } }

/-- `CORE_STATUS` and `CORE_IMG_STAT` (R407). -/
def coreStatusWord (d : Dev) : Word :=
  putB 7 d.cpu.swapping ||| putB 6 d.cpu.spareRun ||| putB 5 d.cpu.spareOk ||| putB 4 d.cpu.apl.ok ||| putB 3 d.cpu.apl.run
    ||| putB 2 d.cpu.bootRom
def imgStatWord (d : Dev) : Word := putB 31 d.cpu.img.bad ||| put 19 0 d.cpu.img.bytes

end Sys2Proof.Machine
end

