-- ==== Sys2Proof/Machine/ResetKinds.lean ====
section
/-! DEFINITION. The kinds of reset and the start-up sequence (R373, R459, R477-R480). Stages: 0 unpowered, 1 AON regulator,
2 AON rail good, 3 always-on logic released, 4 keeping store read, 5 core buck, 6 crystal, 7 five domains ON. -/
namespace Sys2Proof.Machine

/-- Sets a cause bit. -/
def setCause (b : Nat) (d : Dev) : Dev := setReg Reg.SYS_RST_CAUSE (reg d Reg.SYS_RST_CAUSE ||| putB b true) d

/-- Every domain but AON and TAGM loses its content and is OFF; buck and crystal stop; operations and both sets are gone. -/
def loseDomains (d : Dev) : Dev :=
  let d := calStop ((List.range 12).foldl (fun d i => domLose (i + 1) d) d)
  let doms := (List.range 14).map fun n => { Dom.reset n with pos := if n = 0 then .on else .off }
  { d with
    pmu := { d.pmu with doms := doms, xo := false, coreBuck := false, wakeAt := none }
    ops := [], held := [], opSeq := 0, set0 := CfgSet.reset, set1 := CfgSet.reset, sel := false
    cpu := { d.cpu with onS := false, spareOk := false, spareRun := false, swapping := false, bootRom := true, dsram := []
                        apl := Applet.reset, img := ImgPort.reset }
    cal := { d.cal with cmd := none, former := none }, svc := { d.svc with test := none } }

/-- SYS, PMU and LINK registers of AON take their reset values, but for SCRATCH and RST_CAUSE (R477). -/
def resetAonRegs (d : Dev) : Dev :=
  let cause := reg d Reg.SYS_RST_CAUSE
  let s := (List.range 4).map fun i => reg d (Reg.SYS_SCRATCH_0 + i)
  let d := clearRegs 0x100 0x1FF (clearRegs 0 0x7F d)
  let d := ((List.range 4).zip s).foldl (fun d p => setReg (Reg.SYS_SCRATCH_0 + p.1) p.2 d) (setReg Reg.SYS_RST_CAUSE cause d)
  { d with sys := { Sys.reset with stage := d.sys.stage, strapA := d.sys.strapA, strapB := d.sys.strapB, boot := d.sys.boot } }

/-- PIN and SOFT reset (R477): the always-on domain keeps the timebase, the TIME bank but its plan part, TAGM and SVC. -/
def warmReset (cause stage : Nat) (held : Bool) (d : Dev) : Dev :=
  let d := resetAonRegs (loseDomains (setCause cause d))
  let d := clearBank 0x98 0xA0 d
  { d with sys := { d.sys with stage := stage, held := held } }

/-- Fields that are Kept are restored from the keeping store, which was not written while KEEP was fenced (R451, R470). -/
def keptRestore (d : Dev) : Dev :=
  match d.svc.kept with
  | none => d
  | some k => { d with
      svc := { d.svc with ledger := k.ledger, next := k.next, fences := k.fences, retired := k.retired, safeCause := k.safeCause }
      cal := { d.cal with hours := k.hours } }

/-- The always-on domain is reset as well (R459, R477): the timebase is NONE with `MAINS_CYC` 0, the safe state ends, and
faults not closed are gone; what the keeping store holds stays. -/
def coldReset (stage : Nat) (d : Dev) : Dev :=
  let cause := reg d Reg.SYS_RST_CAUSE
  let d := resetAonRegs (loseDomains d)
  let d := clearRegs 0x10 0x13 (clearBank 0x80 0xFF (clearRegs 0x640 0x67F (clearRegs 0x700 0x77F d)))
  let d := keptRestore d
  let d := { d with
    tb := { Timebase.reset with onRc := true, slotTick := d.now, uncSince := d.now }
    svc := { d.svc with opens := [], queue := [], recent := [], safe := false }
    dmk := { d.dmk with since := d.now }
    sys := { d.sys with stage := stage, held := false } }
  setReg Reg.SYS_RST_CAUSE cause d

/-- Fences and retired slices act again before READY (R460): a fenced port is out of service. -/
def applyFences (d : Dev) : Dev :=
  let d := if fenced d 1 then portOff false d else d
  let d := if fenced d 2 then portOff true d else d
  let swap := fun (ch : Bool) (d : Dev) =>
    (retiredOf d ch).foldl (fun d s =>
      match (activeNext d ch).getLsbD s, bestSpare d ch with
      | true, some sp => setChain ch { chain d ch with nextActive := some ((activeNext d ch ||| sliceBit sp) &&& ~~~ sliceBit s) } d
      | _, _ => d) d
  swap true (swap false d)

/-- The five domains are ON (R480): ports have new epochs and the boot ROM runs; after a loss of VSYS an EPOCH record tells of
the restart (R238). -/
def startDomains (d : Dev) : Dev :=
  let d := { d with pmu := { d.pmu with doms := (List.range 14).map Dom.reset } }
  let d := [1, 2, 3, 6, 7].foldl (fun d n => domGain n d) d
  let d := applyFences { d with seq := { d.seq with onAt := d.now } }
  if bit (reg d Reg.SYS_RST_CAUSE) 6 && d.tb.cyc == 0 && decide (d.tb.st = .none) then epochRecord true d else d

/-- A stage of the start-up sequence is complete (R480); straps read 0 without VIO_A (R474). -/
def startStage (straps : BitVec 3) (d : Dev) : Dev :=
  let k := d.sys.stage
  let straps := if d.pmu.vioA then straps else 0
  let d := { d with sys := { d.sys with stage := k + 1 } }
  match k with
  | 3 => { d with
      sys := { d.sys with strapA := straps.getLsbD 0, strapB := straps.getLsbD 1, boot := straps.getLsbD 2 }
      portA := { d.portA with mode3 := straps.getLsbD 0 }, portB := { d.portB with mode3 := straps.getLsbD 1 } }
  | 4 => { d with pmu := { d.pmu with coreBuck := true } }
  | 5 => { d with pmu := { d.pmu with xo := true } }
  | 6 => startDomains d
  | _ => d

end Sys2Proof.Machine
end

