-- ==== Sys2Proof/Machine/TimeCmds.lean ====
section
/-! DEFINITION. What the timebase does at a write of its control register, at a cycle start, at a slot start and at an
oscillator switch (R24-R26, R31, R39-R42, R48, R49). -/
namespace Sys2Proof.Machine

/-- `TIME_PLAN_CFG.LEN` + 1. -/
def planLen (d : Dev) : Nat := fld (cfg d Reg.TIME_PLAN_CFG) 3 0 + 1

/-- PLAN_SYNC: the next cycle to start is plan cycle 0 (R31). -/
def planSync (d : Dev) : Dev :=
  let n := planLen d
  { d with tb := { d.tb with planPhase := (n - (d.tb.cyc.toNat + 1) % n) % n, planSync := true } }

/-- A pending plan sync takes effect at a cycle start (R31). -/
def syncStart (d : Dev) : Dev :=
  if d.tb.planSync then
    timeRecord 0x05 d.tb.st 0 (event Reg.TIME_EVENT 7 { d with tb := { d.tb with planSync := false } })
  else d

/-- SELF: from NONE the flywheel starts at a nominal rate and the timebase is FREE (R24). The start at the commit is not
counted in `TIME_FLY_CYC`, nor is any until a crossing has been taken in LOCKED or SLEW (R48 leaves it open; log entry
14). -/
def selfStart (sixty : Bool) (d : Dev) : Dev :=
  match d.tb.st with
  | .none =>
    let p := if sixty then 0x28B0AAAB else 0x30D40000
    let tb : Timebase := { d.tb with st := .free, period := p, originQ := d.now * 256, cyc := d.tb.cyc + 1, selfStarted := true
                                     relockQ := none, acq := [], missed := 0 }
    let d := event Reg.TIME_EVENT 2 { d with tb := tb }
    syncStart (timeRecord 0x01 .none 0 (if bit (reg d Reg.TIME_CTRL) 2 then d else suspendForTime d))
  | _ => d

/-- A write of `TIME_CTRL` (R53). -/
def writeTimeCtrl (v : Word) (d : Dev) : Dev :=
  let d := setReg Reg.TIME_CTRL (v &&& 0x14) d
  let d := if bit v 1 then { d with tb := { d.tb with noise := [] } } else d
  let d := if bit v 3 then selfStart (bit v 4) d else d
  if bit v 0 then planSync d else d

/-- The phase wraps and a cycle starts (R25, R26). -/
def wrapCycle (d : Dev) : Dev :=
  syncStart { d with tb := { d.tb with originQ := d.tb.originQ + d.tb.period, cyc := d.tb.cyc + 1 } }

/-- A cycle start that the flywheel supplies is counted in `TIME_FLY_CYC`: the first after a crossing taken in LOCKED or SLEW
as 1, and none between a re-lock and such a crossing (R48). -/
def countFlywheel (d : Dev) : Dev :=
  if d.tb.flyFresh then setReg Reg.TIME_FLY_CYC 1 { d with tb := { d.tb with flyFresh := false, flyStop := false } }
  else if d.tb.flyStop then d
  else count Reg.TIME_FLY_CYC 31 0 1 d

/-! Reserves (R36) -/

/-- Firmware computes the reserves of running operations again (R36). -/
def turnReserves (d : Dev) : Dev :=
  (d.ops.filter fun o => opLive o && decide (o.st = .running)).foldl (fun d o =>
    if o.opcode = 0x300 then fwReserve (inventoryTime d (bit (nth 0 o.block 1) 1)) d
    else if isAccess o.opcode then fwReserve (accessTime d o) d
    else if o.opcode = 0x500 ∨ o.opcode = 0x501 then hfReserve o d
    else d) d

/-- `TIME_PERIOD` has moved more than 0.05 % from the value last used (R36). -/
def periodMoved (d : Dev) : Bool :=
  decide (d.tb.cutPeriod < 2000 * ((d.tb.period : Int) - d.tb.cutPeriod).natAbs)
def reservesFollow (d : Dev) : Dev := if periodMoved d then turnReserves d else d

/-! The noise map (R39, R40) -/

/-- Chain that measures noise. -/
def noiseChain (d : Dev) : Bool := bit (reg d Reg.TIME_NOISE_CFG) 1

/-- Level codes of a bin: the average of R40, the first measurement loads it. The product with 2^-ALPHA is rounded down to
a whole code, which R40 leaves open (log entry 84). -/
def noiseUpdate (b m : Nat) (d : Dev) : Dev :=
  let old := noiseBin d b
  let a := fld (reg d Reg.TIME_NOISE_CFG) 4 2
  let m := min 1023 m
  let v := if old.getLsbD 15 then
      ((fld old 9 0 : Int) + ((m : Int) - fld old 9 0) / (2 ^ a : Nat)).toNat
    else m
  { d with tb := { d.tb with noise := CMap.set (fun _ => 0) d.tb.noise b (BitVec.ofNat 16 (0x8000 + v % 1024)) } }

/-- A measurement ends with its slot: a radio the device has moved returns to SYNTH_ON. -/
def noiseEnd (d : Dev) : Dev :=
  match d.tb.noiseRun with
  | none => d
  | some r =>
    let d := { d with tb := { d.tb with noiseRun := none } }
    if r.moved ∧ d.uhf.st = .rxListen ∧ d.uhf.move = none then
      chainsFollow { d with uhf := { d.uhf with st := .synthOn } } else d

/-- A listen slot begins its measurement when the conditions of R39 hold at its start. -/
def noiseBegin (b : Nat) (d : Dev) : Dev :=
  let ch := noiseChain d
  let c := chain d ch
  let l := phaseAt d d.now / 1024
  let ready := d.uhf.move.isNone && ((decide (d.uhf.st = .synthOn) && d.uhf.lock) || decide (d.uhf.st = .rxListen))
  let chainOk := match c.st with
    | .idle => true
    | .sampling => decide (d.uhf.st = .rxListen)
    | _ => false
  if bit (reg d Reg.TIME_NOISE_CFG) 0 && slotSel d 4 l 0 && !slotSel d 0 l 0 && !slotSel d 3 l 0
      && !slotSel d (if ch then 2 else 1) l 0 && ready && chainOk && c.win.isNone && !c.stopPend then
    let moved := decide (d.uhf.st = .synthOn)
    chainsFollow { d with uhf := { d.uhf with st := .rxListen }, tb := { d.tb with noiseRun := some ⟨b, moved⟩ } }
  else d

/-- A step that acts on the radio or on the measuring chain ends the measurement with no update (R39). -/
def noiseStop (d : Dev) : Dev := { d with tb := { d.tb with noiseRun := none } }

/-! Oscillator (R41, R49) -/

/-- The timebase changes oscillator: the bound grows by SW, and a locked timebase re-locks on the second crossing. -/
def switchOsc (toRc : Bool) (d : Dev) : Dev :=
  if toRc ≠ d.tb.onRc ∧ toRc = !d.pmu.xo then
    let d := uncFold d
    let tb : Timebase := { d.tb with
      uncSw := d.tb.uncSw + fld (reg d Reg.TIME_UNC_RATE) 23 16, onRc := toRc
      oscRelock := match d.tb.st with | .locked => 2 | .slew => 2 | _ => 0 }
    let d := { d with tb := tb }
    if toRc then calApply 2 26 27 d else d
  else d

end Sys2Proof.Machine
end

