-- ==== Sys2Proof/Machine/RegView.lean ====
section
/-! DEFINITION. The registers whose words are computed from the state when they are read (R51-R57, R99, R137, R170, R197,
R243, R274, R298, R327-R329, R355, R371, R406, R428, R449, R469). -/
namespace Sys2Proof.Machine

/-! Interrupts (R321) -/

/-- A bank has an event bit set whose enable is 1: its event register at `a`, its enables at `a + 1`. -/
def bankIrq (d : Dev) (a : Nat) : Bool := decide (reg d a &&& reg d (a + 1) ≠ 0)

/-- `LINK_IRQ_SUM`. -/
def irqSumWord (d : Dev) : Word :=
  putB 0 (bankIrq d Reg.SYS_EVENT) ||| putB 1 (bankIrq d Reg.TIME_EVENT) ||| putB 2 (bankIrq d Reg.PMU_EVENT)
  ||| putB 3 (bankIrq d Reg.LINK_A_EVENT || bankIrq d Reg.LINK_B_EVENT)
  ||| putB 4 ((List.range 32).any fun n => bankIrq d (ringReg n 6))
  ||| putB 5 (bankIrq d Reg.UHF_EVENT) ||| putB 6 (bankIrq d Reg.RXD_A_EVENT) ||| putB 7 (bankIrq d Reg.RXD_B_EVENT)
  ||| putB 8 (bankIrq d Reg.SEQ_EVENT) ||| putB 9 (bankIrq d Reg.GEN2_EVENT) ||| putB 10 (bankIrq d Reg.COMB_EVENT)
  ||| putB 11 (bankIrq d Reg.HF_EVENT) ||| putB 12 (bankIrq d Reg.TAGM_EVENT) ||| putB 13 (bankIrq d Reg.CAL_EVENT)
  ||| putB 14 (bankIrq d Reg.SVC_EVENT) ||| putB 15 (bankIrq d Reg.CORE_EVENT)

/-- The interrupt condition of a port: its line is low, unless it is OFF or in master mode. -/
def portIrq (d : Dev) (b : Bool) : Bool :=
  decide (irqSumWord d &&& reg d (Reg.LINK_A_IRQ_MASK + portOffset b) &&& 0xFFFF ≠ 0)
    && !(port d b).off && !(b && d.mst.on)

/-! Banks -/

def sysView (d : Dev) (a : Nat) : Option Word :=
  match a with
  | 0x00 => some (0x7416B100 ||| putB 0 Config.gradeE)
  | 0x01 => some (if d.sys.ready then d.sys.fwVer else 0)
  | 0x02 => some (Config.serial.extractLsb' 0 32)
  | 0x03 => some (Config.serial.extractLsb' 32 32)
  | 0x04 => some (putB 7 d.svc.safe ||| putB 6 d.cpu.apl.run ||| putB 5 d.cpu.onS ||| putB 4 d.sys.flash ||| putB 0 d.sys.ready)
  | 0x09 => some (putB 2 d.sys.boot ||| putB 1 d.sys.strapB ||| putB 0 d.sys.strapA)
  | 0x0B => some (put 31 16 d.sys.turns.toNat ||| putB 1 (d.seq.turn.any fun t => t.armed) ||| putB 0 d.sys.copyEnd.isSome)
  | 0x0C => some (cycLo d.sys.turnCyc)
  | _ => none

def timeView (d : Dev) (a : Nat) : Option Word :=
  match a with
  | 0x80 => some (timeStatusWord d)
  | 0x86 => some (nw d.tb.period)
  | 0x87 => some (timePhaseWord d)
  | 0x88 => some (cycLo d.tb.cyc)
  | 0x8A => some (nw (tbUnc d d.now))
  | 0x92 => some (put 11 8 d.tb.planPhase ||| put 3 0 (planCycle d 0))
  | _ =>
    if 0xB0 ≤ a ∧ a ≤ 0xDF then
      some ((noiseBin d (2 * (a - 0xB0) + 1)) ++ (noiseBin d (2 * (a - 0xB0))))
    else none

def pmuView (s : State) (a : Nat) : Option Word :=
  match a with
  | 0x100 => some (pmuStatusWord s.dev)
  | 0x104 => some (pmuModeWord s.dev)
  | 0x105 => some (pmuStateWord s.dev (s.tagm.sess || aonOn s.dev))
  | 0x106 => some (pmuPendWord s.dev)
  | _ => none

/-- `LINK_x_STAT` and `LINK_x_CTRL` (R328). -/
def linkStatWord (d : Dev) (b : Bool) : Word :=
  let p := port d b
  putB 27 p.mode3 ||| putB 26 (b && d.mst.on) ||| putB 25 p.off ||| putB 24 p.bulk.isSome ||| put 23 16 p.seq.toNat
    ||| put 15 0 p.epoch.toNat
def linkView (d : Dev) (a : Nat) : Option Word :=
  match a with
  | 0x180 => some (linkStatWord d false)
  | 0x183 => some (putB 1 d.portA.off)
  | 0x190 => some (linkStatWord d true)
  | 0x193 => some (putB 1 d.portB.off ||| putB 2 (d.mst.on && !d.mst.leaving))
  | 0x1A1 => some (irqSumWord d)
  | 0x1B2 => some (putB 2 d.mst.fw ||| putB 1 (d.mst.low0 || d.mst.low1) ||| putB 0 d.mst.busy.isSome)
  | 0x1B4 => some (memW d.mst.buf (fld (reg d Reg.LINK_M_IDX) 5 0))
  | _ => none

/-- The registers of a ring (R356). -/
def ringView (d : Dev) (a : Nat) : Option Word :=
  let n := (a - 0x200) / 8
  let r := ring d n
  match a % 8 with
  | 0 => some (putB 31 r.en ||| putB 30 (decide (n < 4)) ||| put 27 16 r.size ||| put 10 0 r.base)
  | 1 => some (put 31 24 r.nseq.toNat ||| put 16 0 r.wpos)
  | 2 => some (put 31 24 (if n < 4 then 0 else (r.nseq - BitVec.ofNat 8 r.recs.length).toNat) ||| put 16 0 r.rpos)
  | 3 => some (put 31 24 r.held ||| put 16 0 r.used)
  | _ => none

def uhfView (d : Dev) (a : Nat) : Option Word :=
  match a with
  | 0x300 => some (uhfStatusWord d)
  | 0x30A => some (nw (min 0xFFFFFFFF (dwellUs d)))
  | 0x30D => some ((cfg d a &&& 0x17) ||| putB 9 (fenced d 0x0B) ||| putB 8 (fenced d 0x0A))
  | 0x329 => some (vecWord false (cancVec d false).1 (cancVec d false).2)
  | 0x32A => some (vecWord false (cancVec d true).1 (cancVec d true).2)
  | _ => none

def rxdView (d : Dev) (a : Nat) : Option Word :=
  let ch := decide (0x420 ≤ a)
  let c := chain d ch
  if a = Reg.RXD_SEP_RES then some (sepResWord d) else
  match (if ch then a - 0x60 else a) with
  | 0x3C0 => some (rxdStatusWord d ch)
  | 0x3C4 => some (put 17 0 c.active.toNat)
  | 0x3D5 => some (drcVecWord d ch)
  | _ => none

def seqView (d : Dev) (a : Nat) : Option Word :=
  match a with
  | 0x480 => some (seqStatusWord d)
  | 0x485 => some (put 7 0 d.seq.sw.toNat)
  | 0x486 => some (condWord d 0 false)
  | 0x487 => some (condWord d 0 true)
  | 0x48C => some ((reg d a &&& 0xFFFF0000) ||| put 8 0 d.seq.log.length)
  | 0x48E => some (nw (d.now - d.seq.onAt))
  | _ =>
    if 0x490 ≤ a ∧ a ≤ 0x49F then
      let t := thr d ((a - 0x490) / 4)
      match a % 4 with
      | 1 => some (thrStatWord t)
      | 2 => some (thrLcWord t false)
      | 3 => some (thrLcWord t true)
      | _ => none
    else none

def gen2View (d : Dev) (a : Nat) : Option Word :=
  let g := d.gen2
  match a with
  | 0x500 => some (put 23 20 g.q ||| put 19 18 g.session ||| putB 17 g.target ||| putB 16 (linkValid (cfg d Reg.GEN2_LINK))
      ||| put 15 14 g.rstate ||| put 13 0 (min 0x3FFF g.fslot))
  | 0x504 => some (derivedWord (cfg d Reg.GEN2_LINK))
  | 0x509 => some (put 31 16 g.qfp.toNat ||| put 15 8 g.qnext)
  | _ => none

def combView (d : Dev) (a : Nat) : Option Word :=
  match a with
  | 0x580 => some (combStatusWord d)
  | 0x588 => some (put 17 0 (combUsed d))
  | 0x589 => some (put 17 0 (combPresent d))
  | 0x58A => some (put 17 0 (combUnrep d))
  | 0x58D => some (put 13 0 (d.comb.pos / 8))
  | 0x590 => some (d.comb.places.extractLsb' 0 32)
  | 0x592 => some (d.comb.recs.extractLsb' 0 32)
  | 0x5A1 => some d.dmk.epoch
  | 0x5A2 => some (put 15 0 (dmkLeft d))
  | 0x5A3 => some (dmkKeyWord d)
  | _ => none

def tagmView (s : State) (a : Nat) : Option Word :=
  let g := s.tagm
  let idx := reg s.dev Reg.TAGM_MB_IDX
  match a with
  | 0x640 => some (tagmStatusWord s.dev g)
  | 0x643 => some g.cfg
  | 0x644 => some g.uidCfg
  | 0x645 => some g.fprot
  | 0x646 => some ((uidShown g).extractLsb' 0 32)
  | 0x647 => some ((uidShown g).extractLsb' 32 32)
  | 0x64A => some (mbSeqWord g (fld idx 10 3))
  | _ => none

/-- A calibration instance's bit and chain as `CAL_STATUS` names it (R450). -/
def calIdCode (i : Nat) : Nat := match i with | 5 => 2 * 1 + 1 | 6 => 2 * 4 + 1 | i => 2 * i

/-- `CAL_STATUS`. -/
def calStatusWord (d : Dev) : Word :=
  let bits := fun (p : CalInst → Bool) => natOfBits ((List.range 7).map fun i => p (nth CalInst.reset d.cal.inst (6 - i)))
  put 31 28 d.cal.lastId ||| put 27 24 (match d.cal.run with | none => 0 | some r => calIdCode r.id) ||| putB 23 d.cal.run.isSome
    ||| put 20 14 (bits CalInst.pend) ||| put 13 7 (bits CalInst.failed)
    ||| put 6 0 (bits fun c => c.sets.any CalSet.valid)

/-- `CAL_SET_VALID` (instances 0-4) and `CAL_SET_VALID_B` (instances 5 and 6 in the places of 1 and 4). -/
def calSetsWord (d : Dev) (chB : Bool) : Word :=
  let one := fun (i place : Nat) =>
    put (5 * place + 4) (5 * place) (natOfBits ((List.range 5).map fun k => (nth CalSet.reset (nth CalInst.reset d.cal.inst i).sets (4 - k)).valid))
  if chB then one 5 1 ||| one 6 4 else (List.range 5).foldl (fun w i => w ||| one i i) 0

def calView (d : Dev) (a : Nat) : Option Word :=
  match a with
  | 0x680 => some (calStatusWord d)
  | 0x688 => some (put 15 0 (ofInt d.cal.temp).toNat)
  | 0x689 => some (calSetsWord d false)
  | 0x68A => some (calSetsWord d true)
  | 0x690 => some (nw (d.cal.hours / 2 ^ 32))
  | _ => none

def svcView (d : Dev) (a : Nat) : Option Word :=
  match a with
  | 0x700 => some (svcStatusWord d)
  | 0x703 => some (put 23 1 (d.svc.fences.toNat / 2))
  | 0x705 => some d.svc.safeCause
  | 0x706 => some (put 31 16 d.svc.next.toNat ||| put 9 0 (heldEntries d).length)
  | 0x709 => some d.svc.retired
  | 0x70A => some (svcTestWord d)
  | _ => none

def coreView (d : Dev) (a : Nat) : Option Word :=
  match a with
  | 0x780 => some (coreStatusWord d)
  | 0x784 => some (put 1 0 d.cpu.img.target)
  | 0x786 => some (imgStatWord d)
  | 0x787 => some d.cpu.img.crc
  | 0x791 => some ((csWord (coreIn d) (fld (reg d Reg.CORE_UC_IDX) 7 0)).extractLsb' 0 32)
  | _ => if 0x7A0 ≤ a ∧ a ≤ 0x7AF then some (decWord (coreIn d) (a - 0x7A0)) else none

/-- The computed word of a register, if it has one. -/
def regView (s : State) (a : Nat) : Option Word :=
  let d := s.dev
  if a < 0x80 then sysView d a
  else if a < 0x100 then timeView d a
  else if a < 0x180 then pmuView s a
  else if a < 0x200 then linkView d a
  else if a < 0x300 then ringView d a
  else if a < 0x3C0 then uhfView d a
  else if a < 0x480 then rxdView d a
  else if a < 0x500 then seqView d a
  else if a < 0x580 then gen2View d a
  else if a < 0x5C0 then combView d a
  else if a = 0x5C0 then some (hfStatusWord d)
  else if a < 0x640 then none
  else if a < 0x680 then tagmView s a
  else if a < 0x700 then calView d a
  else if a < 0x780 then svcView d a
  else coreView d a

/-- The word of a register as a plain read of its active address shows it: its fields that are set-paired come from the
set in force (R365). -/
def regWord (s : State) (a : Nat) : Word :=
  match regView s a with
  | some w => w
  | none =>
    let sp := (regInfo a).sp
    (reg s.dev a &&& ~~~ sp) ||| (cfg s.dev a &&& sp)

end Sys2Proof.Machine
end

