-- ==== Sys2Proof/Machine/RegSpace.lean ====
section
/-! DEFINITION. Reads and writes of the register space by a reader: domains, access codes, set pairs, pointers and data
ports, latches, and the registers whose write acts (R11, R29, R357-R368, R374, R393, R399). -/
namespace Sys2Proof.Machine

/-! Domains (R357, R362) -/

/-- What a register access finds its bank's domain in. -/
inductive BankPower where
  | on | ret | off
  deriving DecidableEq, Repr

/-- A chapter defines the address. -/
def regDefined (a : Nat) : Bool :=
  decide (0x200 ≤ a ∧ a < 0x300) || (bankTable a).any fun r => decide (r.lo ≤ a ∧ a ≤ r.hi)

/-- Domain of an address. -/
def bankDomain (d : Dev) (a : Nat) : Nat :=
  if a < 0x180 then 0
  else if a < 0x200 then
    (if a ≤ 0x186 ∧ a ≠ 0x184 then 1
     else if (0x190 ≤ a ∧ a ≤ 0x196 ∧ a ≠ 0x194) ∨ (0x1B0 ≤ a ∧ a ≤ 0x1B4) then 2 else 0)
  else if a < 0x300 then 6 else if a < 0x3C0 then 8 else if a < 0x420 then 9 else if a < 0x480 then 10
  else if a < 0x580 then 7 else if a < 0x5C0 then 5 else if a < 0x640 then 11 else if a < 0x680 then 0
  else if a < 0x700 then 12 else if a < 0x780 then 0 else coreDom d

/-- A domain as its registers show it: on until its isolate stage is done, then what it goes to; a wake shows what it leaves. -/
def domPower (d : Dev) (n : Nat) : BankPower :=
  match (dom d n).pos with
  | .on => .on
  | .ret => .ret
  | .off => .off
  | .entering off k _ => if k < 4 then .on else if off then .off else .ret
  | .waking off _ _ => if off then .off else .ret

/-- `SYS_EVENT.DOM_OFF`. -/
def domOffEvent (d : Dev) : Dev := event Reg.SYS_EVENT 4 d

/-! Memory ports (R29, R58, R166, R174, R251, R365) -/

/-- Pointer registers of the set-paired memories, and the bits they hold. -/
def pointerMask (a : Nat) : Option Word :=
  match a with
  | 0x099 => some 0x37F | 0x307 => some 0x3F | 0x488 => some 0xFFF | 0x520 => some 0x3FF | 0x5E0 => some 0x7FF
  | _ => none

/-- Data registers of the set-paired memories, with their pointer. -/
def portPointer (a : Nat) : Option Nat :=
  match a with
  | 0x09A => some 0x099 | 0x308 => some 0x307 | 0x489 => some 0x488 | 0x48A => some 0x488 | 0x521 => some 0x520
  | 0x5E1 => some 0x5E0 | _ => none

/-- Where a pointer of a set lies in the register map. -/
def ptrAddr (sh : Bool) (p : Nat) : Nat := if sh then p + 0x8000 else p

/-- The plan pointer after an access (R29). -/
def planAdvance (p : Word) : Word :=
  let w := fld p 9 8
  let m := fld p 6 4
  let c := fld p 3 0
  if w < 2 then put 9 8 (w + 1) ||| put 6 4 m ||| put 3 0 c
  else if m < 4 then put 6 4 (m + 1) ||| put 3 0 c
  else put 3 0 (c + 1)

/-- Key of the plan word at the pointer; none for WORD 3 or MASK 5-7. -/
def planKey (p : Word) : Option Nat :=
  if fld p 9 8 < 3 ∧ fld p 6 4 < 5 then some (15 * fld p 3 0 + 3 * fld p 6 4 + fld p 9 8) else none

/-- A pointer moved on by an access of a data register; `SEQ_TAB_DATA_L` moves nothing. -/
def ptrAdvance (sh : Bool) (a p : Nat) (d : Dev) : Dev :=
  let pa := ptrAddr sh p
  let v := reg d pa
  match a with
  | 0x09A => setReg pa (planAdvance v) d
  | 0x308 => setReg pa (put 5 0 (fld v 5 0 + 1)) d
  | 0x48A => setReg pa (put 11 0 (fld v 11 0 + 1)) d
  | 0x521 => setReg pa (put 9 0 (fld v 9 0 + 1)) d
  | 0x5E1 => setReg pa (put 10 0 (fld v 10 0 + 1)) d
  | _ => d

/-- The word a data register shows for a set and a pointer. -/
def portWord (c : CfgSet) (a : Nat) (v : Word) : Word :=
  match a with
  | 0x09A => match planKey v with | none => 0 | some k => memW c.plan k
  | 0x308 => memW c.chan (fld v 5 0)
  | 0x489 => (CMap.get tabDefault c.tab (fld v 11 0)).extractLsb' 0 32
  | 0x48A => (CMap.get tabDefault c.tab (fld v 11 0)).extractLsb' 32 32
  | 0x521 => memW c.fb (fld v 9 0)
  | 0x5E1 => memW c.hffb (fld v 10 0)
  | _ => 0

/-- Reads a data register. -/
def portRead (sh : Bool) (a p : Nat) (d : Dev) : Dev × Word :=
  (ptrAdvance sh a p d, portWord (if sh then shadowSet d else activeSet d) a (reg d (ptrAddr sh p)))

/-- A turn is armed, commits in this tick, or a copy runs: host and applet writes of shadow content are discarded
(R367, R368). -/
def shadowHeld (d : Dev) (r : Reader) : Bool :=
  r != Reader.fw && ((d.seq.turn.any fun t => t.armed) || decide (d.sys.turnTick = some d.now) || d.sys.copyEnd.isSome)

/-- Words of HF buffer `b` that a frame of an earlier buffer takes and of those after it (R251). -/
def hfRunOn (m : CMap Word) : Nat → Nat
  | 0 => 0
  | b + 1 =>
    let left := hfRunOn m b
    let h := memW m (32 * b)
    let len := fld h 11 0
    (if left ≠ 0 then left else if bit h 31 && decide (len ≤ 2080) then 1 + (len + 31) / 32 else 0) - 32

/-- Word `i` of the HF frame memory is the header of its buffer, and no bits of a longer frame before it (R251, R275). -/
def hfIsHeader (m : CMap Word) (i : Nat) : Bool := i % 32 = 0 && hfRunOn m (i / 32) = 0

/-- Writes a data register of the shadow set; false where the word is not taken. Reserved words of the frame buffers, of
the HF frame memory and of the table belong to firmware (R166, R178, R251). Reserved bits of a header read 0 (R12). -/
def portWrite (r : Reader) (a p : Nat) (v : Word) (d : Dev) : Dev × Bool :=
  let pa := ptrAddr true p
  let ptr := reg d pa
  let c := shadowSet d
  if shadowHeld d r then
    let d := event Reg.SYS_EVENT 3 d
    (if a = 0x489 ∨ a = 0x48A then event Reg.SEQ_EVENT 7 d else d, false)
  else
    let go := fun (c : CfgSet) => (ptrAdvance true a p (setShadow c d), true)
    match a with
    | 0x09A => match planKey ptr with
      | none => (ptrAdvance true a p d, false)
      | some k => go { c with plan := memSet c.plan k v }
    | 0x308 =>
      let e := fld ptr 5 0
      if bit v 31 ∧ freqOk (chanFreq c (fld v 11 0)) = false then (event Reg.UHF_EVENT 9 (ptrAdvance true a p d), false)
      else
        let (d, ok) := go { c with chan := memSet c.chan e (v &&& 0x80000FFF) }
        (seedsDrop (fun _ _ k => decide (k = e)) d, ok)
    | 0x489 => ({ d with seq := { d.seq with dataL := v } }, true)
    | 0x48A =>
      let i := fld ptr 11 0
      if r ≠ .fw ∧ i < 0x800 then (event Reg.SEQ_EVENT 7 (ptrAdvance true a p d), false)
      else go { c with tab := CMap.set tabDefault c.tab i (v ++ d.seq.dataL) }
    | 0x521 =>
      let i := fld ptr 9 0
      if r ≠ .fw ∧ i < 512 then (event Reg.GEN2_EVENT 3 (ptrAdvance true a p d), false)
      else go { c with fb := memSet c.fb i (if i % 16 = 0 then v &&& 0xFF1FF1FF else v) }
    | _ =>
      let i := fld ptr 10 0
      if r ≠ .fw ∧ i < 512 then (event Reg.HF_EVENT 1 (ptrAdvance true a p d), false)
      else go { c with hffb := memSet c.hffb i (if hfIsHeader c.hffb i then v &&& 0xFFF80FFF else v) }

/-! Latched pairs (R360) -/

/-- Pair and high word behind an _L register. -/
def latchLow (d : Dev) (a : Nat) : Option (Nat × Word) :=
  match a with
  | 0x088 => some (0, put 7 0 (fld d.tb.cyc 39 32))
  | 0x48E => some (1, nw ((d.now - d.seq.onAt) / 2 ^ 32))
  | 0x590 => some (2, d.comb.places.extractLsb' 32 32)
  | 0x592 => some (3, d.comb.recs.extractLsb' 32 32)
  | 0x00C => some (4, put 7 0 (fld d.sys.turnCyc 39 32))
  | 0x690 => some (5, nw (d.cal.hours / 2 ^ 64))
  | _ => none

/-- Pair of an _H register. -/
def latchHigh (a : Nat) : Option Nat :=
  match a with
  | 0x089 => some 0 | 0x48F => some 1 | 0x591 => some 2 | 0x593 => some 3 | 0x00D => some 4 | 0x691 => some 5
  | _ => none

/-- Each port and the core have a latch of their own. -/
def latchKey (pair : Nat) (r : Reader) : Nat :=
  3 * pair + (match r with | .spiA => 0 | .spiB => 1 | .fw => 2 | .applet => 2)

/-! Reads -/

/-- Reads of ports and counters that act, on a bank that is ON. `UHF_CANC_IDX` advances as one number of eleven bits, from 2,047
to 0: the manual says no more than that it advances (R98; log entry 88). -/
def readActs (r : Reader) (a : Nat) (s : State) : Option (State × Word) :=
  let d := s.dev
  let dev := fun (p : Dev × Word) => some ({ s with dev := p.1 }, p.2)
  match a with
  | 0x1B4 => dev (setField Reg.LINK_M_IDX 5 0 (fld (reg d Reg.LINK_M_IDX) 5 0 + 1) d, regWord s a)
  | 0x32C =>
    let i := fld (reg d Reg.UHF_CANC_IDX) 10 0
    dev (setField Reg.UHF_CANC_IDX 10 0 (i + 1) d, memW d.uhf.seeds i)
  | 0x3D9 => dev (setField Reg.RXD_A_COEF_IDX 10 0 (fld (reg d Reg.RXD_A_COEF_IDX) 10 0 + 1) d,
      coefWord d.chA (fld (reg d Reg.RXD_A_COEF_IDX) 10 0))
  | 0x439 => dev (setField Reg.RXD_B_COEF_IDX 10 0 (fld (reg d Reg.RXD_B_COEF_IDX) 10 0 + 1) d,
      coefWord d.chB (fld (reg d Reg.RXD_B_COEF_IDX) 10 0))
  | 0x599 => dev (combDump d)
  | 0x5E3 =>
    let i := fld (reg d Reg.HF_RX_IDX) 7 0
    dev (setField Reg.HF_RX_IDX 7 0 (i + 1) d, memW d.hf.rx i)
  | 0x649 =>
    let idx := reg d Reg.TAGM_MB_IDX
    let b := fld idx 10 3
    let w := fld idx 2 0
    let l := if w = 0 then some (b, blockWords s.tagm b) else s.tagm.latch
    let v := match l with
      | some (lb, ws) => if lb = b then nth 0 ws w else blockWord s.tagm b w
      | none => blockWord s.tagm b w
    some ({ s with dev := setReg Reg.TAGM_MB_IDX (put 10 0 (fld idx 10 0 + 1)) d, tagm := { s.tagm with latch := l } }, v)
  | 0x69B =>
    let i := fld (reg d Reg.CAL_SNR_IDX) 5 0
    dev (setReg Reg.CAL_SNR_IDX (nw (if 35 ≤ i then 0 else i + 1)) d, memW d.cal.snr i)
  | 0x708 => dev (ledgerRead d)
  | 0x792 => dev (ucReadH d)
  | _ =>
    match latchLow d a with
    | some (pair, h) =>
      dev ({ d with sys := { d.sys with latches := memSet d.sys.latches (latchKey pair r) h } }, regWord s a)
    | none =>
      match latchHigh a with
      | some pair => dev (d, memW d.sys.latches (latchKey pair r))
      | none => none

/-- Reads an address of a bank that is ON (R358-R360, R365). -/
def readOn (r : Reader) (sh : Bool) (a : Nat) (s : State) : State × Word :=
  let d := s.dev
  match portPointer a with
  | some p =>
    let (d', v) := portRead sh a p d
    ({ s with dev := d' }, v)
  | none =>
    if (pointerMask a).isSome then (s, reg d (ptrAddr sh a))
    else if sh then (s, cfgOf (shadowSet d) a &&& (regInfo a).sp)
    else match readActs r a s with
    | some p => p
    | none =>
      let rc := (regInfo a).rc
      if rc ≠ 0 ∧ r ≠ .applet then
        let w := regWord s a
        let (d', v) := readClear a rc d
        ({ s with dev := d' }, (w &&& ~~~ rc) ||| (v &&& rc))
      else (s, regWord s a)

/-- Reads a register (R358, R362): in RET the word with no effect, in OFF zero and DOM_OFF. -/
def readReg (r : Reader) (sh : Bool) (a : Nat) (s : State) : State × Word :=
  if regDefined a then
    match domPower s.dev (bankDomain s.dev a) with
    | .on => readOn r sh a s
    | .ret => (s, (readOn r sh a s).2)
    | .off => ({ s with dev := domOffEvent s.dev }, 0)
  else (s, 0)

/-! Writes that act -/

/-- A copy of the active set into the shadow set is asked for (R368); it is complete within 60 us. -/
def setCopy (d : Dev) : Dev :=
  if d.seq.turn.isSome ∨ d.sys.copyEnd.isSome then event Reg.SYS_EVENT 3 d
  else { d with sys := { d.sys with copyEnd := some (d.now + us 60) } }

/-- `SYS_CTRL` (R374): without its key the write is ignored. -/
def writeSysCtrl (v : Word) (d : Dev) : Dev :=
  if fld v 31 24 = 0xA5 then
    let d := if bit v 1 then hostSafe d else d
    if bit v 0 then warmReset 3 3 false d else d
  else d

/-- `PMU_MODE` (R413, R414, R420, R421): a field 3 changes nothing; 0 is a wake by host or firmware. -/
def writePmuMode (r : Reader) (v : Word) (d : Dev) : Dev :=
  let code := fun (n : Nat) => fld v (2 * n + 1) (2 * n)
  let doms := (List.range 12).map (· + 1)
  let d := doms.foldl (fun d n => if code n = 0 then d else requestMode n (code n) d) d
  let wake := doms.filter fun n => decide (code n = 0)
  if wake.isEmpty then d else wakeSource (if r = .fw then 10 else 9) wake d

/-- The port a reader writes through, if it is one. -/
def ownPort (r : Reader) (b : Bool) : Bool := (r == .spiA && !b) || (r == .spiB && b)

/-- OFF of a port written (R323); a fenced port stays out of service (R460). -/
def writePortOff (r : Reader) (b off : Bool) (d : Dev) : Dev :=
  let p := port d b
  if off then (if p.off || ownPort r b || linkOffIgnored d b then d else portOff b d)
  else if p.off ∧ fenced d (if b then 2 else 1) = false then portOn b d else d

/-- MASTER written (R325). -/
def writeMaster (on : Bool) (d : Dev) : Dev :=
  if on then (if d.portA.off then d else { d with mst := { d.mst with on := true, leaving := false } })
  else if d.mst.on then
    (if d.mst.busy.isSome then { d with mst := { d.mst with leaving := true } } else masterLeave d)
  else d

/-- `LINK_x_CTRL` (R323, R325, R328). -/
def writeLinkCtrl (r : Reader) (b : Bool) (v : Word) (d : Dev) : Dev :=
  let d := if bit v 0 then newEpoch b d else d
  let d := writePortOff r b (bit v 1) d
  if b then writeMaster (bit v 2) d else d

/-- Fine ticks of a master transfer of `n` bytes and two SCK periods (R326). -/
def masterTicks (d : Dev) (n : Nat) : Nat := ((8 * n + 2) * (16 + 2 * fld (reg d Reg.LINK_M_CFG) 7 0) * 2 + 4) / 5

/-- The first `n` bytes of the master buffer, from bits [31:24] of word 0 (R326). -/
def masterOut (m : CMap Word) (n : Nat) : List Byte :=
  ((List.range ((n + 3) / 4)).flatMap fun i => bytesOf (memW m i)).take n

/-- `LINK_M_CTRL` (R326, R329): the host's writes are ignored while firmware owns the master, and so is a write of GO that
starts no transfer. A transfer drives the select that SEL names. -/
def writeMasterCtrl (r : Reader) (v : Word) (d : Dev) : Dev :=
  let n := fld v 8 0
  let s1 := bit v 29
  if d.mst.fw ∧ r ≠ .fw then d
  else if bit v 31 = false then setReg Reg.LINK_M_CTRL (v &&& 0x600001FF) d
  else if d.mst.on ∧ d.mst.busy = none ∧ 1 ≤ n ∧ n ≤ 256 then
    let d := setReg Reg.LINK_M_CTRL (v &&& 0x600001FF) d
    { d with mst := { d.mst with
      busy := some (d.now + masterTicks d n), low0 := d.mst.low0 || !s1, low1 := d.mst.low1 || s1, out := masterOut d.mst.buf n } }
  else d

/-- `RING_n_CFG` (R343). -/
def writeRingCfg (n : Nat) (v : Word) (d : Dev) : Dev :=
  let r := ring d n
  let size := fld v 27 16
  let base := fld v 10 0
  if r.en then
    if bit v 31 || decide (n = 4) || (decide (n < 4) && !r.recs.isEmpty) then d
    else setRing n { r with en := false } d
  else
    let d := setRing n { r with size := size, base := base } d
    if bit v 31 then
      let free := (List.range 32).all fun m => m == n || !(ring d m).en
        || decide (base + size ≤ (ring d m).base ∨ (ring d m).base + (ring d m).size ≤ base)
      if 1 ≤ size ∧ base + size ≤ 2048 ∧ (4 ≤ n ∨ 4 ≤ size) ∧ free = true then
        setRing n { ring d n with en := true, recs := [], held := 0, wpos := 0, rpos := 0, gapFresh := false, staleAt := none } d
      else event (ringReg n 6) 6 d
    else d

/-- FLUSH of a report ring (R347): its records are freed, and a GAP tells how many. -/
def ringFlush (n : Nat) (d : Dev) : Dev :=
  let r := ring d n
  if 4 ≤ n ∧ r.en then
    let d := setRing n { r with recs := [], held := 0, rpos := r.wpos, gapFresh := false } d
    event (ringReg n 6) 4 (recPlace n 0xFFFE [putB 31 true ||| put 30 0 r.recs.length] false d)
  else d

/-- `COMB_DMK_CFG` (R240). -/
def writeDmkCfg (v : Word) (d : Dev) : Dev :=
  let old := reg d Reg.COMB_DMK_CFG
  let rejEn := (bit v 0 && d.dmk.key.isNone) || (!bit v 0 && d.dmk.nx)
  let en := if rejEn then bit old 0 else bit v 0
  let link := if bit v 2 && d.dmk.nx then bit old 2 else bit v 2
  let d := setReg Reg.COMB_DMK_CFG ((v &&& 0xFFFF0000) ||| putB 2 link ||| putB 0 en) d
  if rejEn then event Reg.COMB_EVENT 5 d else d

/-- `RXD_x_CTRL` (R113, R114, R451): a fenced chain's RUN stays. -/
def writeChainCtrl (ch : Bool) (v : Word) (d : Dev) : Dev :=
  let a := chReg ch 3
  if fenced d (if ch then 0x0D else 0x0C) then setReg a ((v &&& 2) ||| (reg d a &&& 1)) d
  else
    let d := setReg a (v &&& 3) d
    if bit v 0 then chainRun ch d else chainStop ch d

/-- `RXD_x_COEF_DATA` (R111, R112). -/
def writeCoef (ch : Bool) (v : Word) (d : Dev) : Dev × Bool :=
  let a := fld (reg d (chReg ch 0x18)) 10 0
  let next := fun (d : Dev) => setField (chReg ch 0x18) 10 0 (a + 1) d
  if a < 0x500 then
    match (chain d ch).st with
    | .stopped =>
      (next (setChain ch { chain d ch with coef := CMap.set (coefDefault (chain d ch).stock) (chain d ch).coef a v } d), true)
    | _ => (event (chReg ch 1) 9 d, false)
  else (next d, false)

/-- TAGM registers of the tag's FRAM (R295, R298): WDENY of group 15 stays, and RING takes no command ring. -/
def tagmStore (which : TagmReg) (v : Word) (g : Tagm) : Tagm :=
  match which with
  | .cfg => { g with cfg := if fld v 12 8 < 4 then (v &&& 0xFFFF0003) ||| (g.cfg &&& 0x1F00) else v &&& 0xFFFF1F03 }
  | .uidCfg => { g with uidCfg := v &&& 0xFF }
  | .fprot => { g with fprot := v ||| 0x8000 }

/-- `CORE_IMG_CTRL` (R402, R404, R407). -/
def writeImgCtrl (v : Word) (d : Dev) : Dev :=
  let d := setImg { d.cpu.img with target := fld v 1 0 } d
  let d := if bit v 31 then imgRestart d else d
  if bit v 30 ∧ romRuns d = true then romCheck d else d

/-- A plain write: RW fields take it, ones clear W1C fields, the rest ignore it (R11, R12, R358). -/
def writeFields (a : Nat) (v : Word) (d : Dev) : Dev × Bool :=
  let i := regInfo a
  let d := if i.rw = 0 then d else setReg a ((reg d a &&& ~~~ i.rw) ||| (v &&& i.rw)) d
  let d := if i.w1c = 0 then d else w1c a (v &&& i.w1c) d
  (d, i.rw != 0 || i.w1c != 0)

/-- Writes a register that acts, on a bank that is ON; false where a word is not taken. -/
def writeActs (r : Reader) (a : Nat) (v : Word) (s : State) : Option (State × Bool) :=
  let d := s.dev
  let dev := fun (d : Dev) => some ({ s with dev := d }, true)
  let devB := fun (p : Dev × Bool) => some ({ s with dev := p.1 }, p.2)
  let host := r == .spiA || r == .spiB
  match a with
  | 0x007 => dev (writeSysCtrl v d)
  | 0x00A => dev (if bit v 0 then setCopy d else d)
  | 0x081 => dev (writeTimeCtrl v d)
  | 0x085 => devB (writeFields a v (slewRebase d))
  | 0x08B => devB (writeFields a v (uncFold d))
  | 0x104 => dev (writePmuMode r v d)
  | 0x110 => dev (setReg a (v &&& 0x1FFE) d)
  | 0x111 => dev (setReg a (v &&& 0x1FFE) d)
  | 0x112 => dev (setReg a (v &&& 0x1FFE) d)
  | 0x113 => dev (setReg a (v &&& 0x1FFE) d)
  | 0x114 => dev (setReg a (v &&& 0x1FFE) d)
  | 0x183 => dev (writeLinkCtrl r false v d)
  | 0x193 => dev (writeLinkCtrl r true v d)
  | 0x1B1 => dev (writeMasterCtrl r v d)
  | 0x1B4 =>
    let i := fld (reg d Reg.LINK_M_IDX) 5 0
    dev (setField Reg.LINK_M_IDX 5 0 (i + 1) { d with mst := { d.mst with buf := memSet d.mst.buf i v } })
  | 0x32B => dev (setReg a (v &&& 0x7FF) (if bit v 31 then seedsDrop (fun _ _ _ => true) d else d))
  | 0x32C =>
    let i := fld (reg d Reg.UHF_CANC_IDX) 10 0
    dev (setField Reg.UHF_CANC_IDX 10 0 (i + 1) { d with uhf := { d.uhf with seeds := memSet d.uhf.seeds i (v &&& 0x83FF03FF) } })
  | 0x3C3 => dev (writeChainCtrl false v d)
  | 0x423 => dev (writeChainCtrl true v d)
  | 0x3D9 => devB (writeCoef false v d)
  | 0x439 => devB (writeCoef true v d)
  | 0x587 => dev (setReg a (if fld v 4 0 < 4 then (v &&& 0xFF1F80) ||| (reg d a &&& 0x1F) else v &&& 0xFF1F9F) d)
  | 0x5A0 => dev (writeDmkCfg v d)
  | 0x5F4 => dev (if bit v 0 then { d with hf := { d.hf with rebase := true } } else d)
  | 0x643 => some ({ s with tagm := tagmStore .cfg v s.tagm }, true)
  | 0x644 => some ({ s with tagm := tagmStore .uidCfg v s.tagm }, true)
  | 0x645 => some ({ s with tagm := tagmStore .fprot v s.tagm }, true)
  | 0x704 => dev (writeFenceCtrl v d)
  | 0x784 => some (mboxScanDue { s with dev := writeImgCtrl v d }, true)
  | 0x785 => devB (imgWord v d)
  | 0x791 => dev (if host then setReg a v d else d)
  | 0x792 => if host then devB (ucCommit v d) else some (s, false)
  | _ =>
    if 0x7A0 ≤ a ∧ a ≤ 0x7AF then (if host then devB (decWrite (a - 0x7A0) v d) else some (s, false))
    else if 0x200 ≤ a ∧ a < 0x300 then
      let n := (a - 0x200) / 8
      match a % 8 with
      | 0 => dev (writeRingCfg n v d)
      | 4 =>
        let d := setReg a (v &&& 0x1FFFF) d
        dev (if bit v 31 then ringFlush n d else d)
      | 5 => if n < 4 then some (s, false) else none
      | _ => none
    else none

/-- A write of an SP register at its shadow address (R178, R253, R274, R365, R367). -/
def writeShadow (r : Reader) (a : Nat) (v : Word) (d : Dev) : Dev × Bool :=
  let sp := (regInfo a).sp
  if sp = 0 then (d, false)
  else if shadowHeld d r then (event Reg.SYS_EVENT 3 d, false)
  else if r = .applet ∧ a = Reg.UHF_BLANK_CFG then (d, false)
  else if r ≠ .fw ∧ Reg.GEN2_RDESC_0 ≤ a ∧ a < Reg.GEN2_RDESC_0 + 4 then (event Reg.GEN2_EVENT 3 d, false)
  else if r ≠ .fw ∧ Reg.HF_RDESC_0 ≤ a ∧ a < Reg.HF_RDESC_0 + 4 then (event Reg.HF_EVENT 1 d, false)
  else
    let sp := if a = Reg.TIME_PLAN_CFG ∧ fld v 5 4 = 3 then sp &&& ~~~ 0x30 else sp
    let sp := if a = Reg.HF_CFG ∧ fld v 12 8 < 4 then sp &&& ~~~ 0x1F00 else sp
    let c := shadowSet d
    (setShadow (setCfgOf c a ((cfgOf c a &&& ~~~ sp) ||| (v &&& sp))) d, true)

/-- Banks whose stores an applet may not make (R399). -/
def appletBarred (a : Nat) : Bool :=
  decide (a < 0x80 ∨ (0x100 ≤ a ∧ a < 0x200) ∨ 0x700 ≤ a)

/-- Writes an address of a bank that is ON. -/
def writeOn (r : Reader) (sh : Bool) (a : Nat) (v : Word) (s : State) : State × Bool :=
  let d := s.dev
  let dev := fun (p : Dev × Bool) => ({ s with dev := p.1 }, p.2)
  match portPointer a, pointerMask a with
  | some p, _ => if sh then dev (portWrite r a p v d) else (s, false)
  | none, some m => dev (setReg (ptrAddr sh a) (v &&& m) d, true)
  | none, none =>
    if sh then dev (writeShadow r a v d)
    else match writeActs r a v s with
    | some p => p
    | none => dev (writeFields a v d)

/-- Writes a register (R358, R362): in RET and OFF the write is discarded with DOM_OFF. -/
def writeReg (r : Reader) (sh : Bool) (a : Nat) (v : Word) (s : State) : State × Bool :=
  if regDefined a = false ∨ (r = .applet ∧ appletBarred a = true) then (s, false)
  else match domPower s.dev (bankDomain s.dev a) with
  | .on => writeOn r sh a v s
  | _ => ({ s with dev := domOffEvent s.dev }, false)

/-! Single accesses of a row -/

/-- One access of a reader at a tick: a write, or a read whose word `rdata` then holds. -/
def regAccess (t : Nat) (r : Reader) (sh : Bool) (a : Nat) (wr : Option Word) (s : State) : State :=
  let s := hostRun { s with dev := tick t s.dev }
  match wr with
  | some v => (writeReg r sh a v s).1
  | none =>
    let (s', v) := readReg r sh a s
    { s' with dev := { s'.dev with rdata := v } }

end Sys2Proof.Machine
end

