-- ==== Sys2Proof/Machine/StageOps.lean ====
section
/-! DEFINITION. The sample path of a receive chain: what each stage computes at full precision and how it reduces its result,
which samples carry marks at its end, and the collision separator's arithmetic (R103-R134). Instants are in ADC sample periods,
18 a fine tick. -/
namespace Sys2Proof.Machine

/-! Results and their reduction (R104) -/

/-- `n / m` to the nearest integer, ties to even, for a positive `m`. -/
def roundEven (n : Int) (m : Nat) : Int :=
  let q := n / m
  let r := n % m
  if (m : Int) < 2 * r ∨ (2 * r = m ∧ q % 2 = 1) then q + 1 else q

/-- Extremes of a signed number of `w` bits, and saturation at the nearer one. -/
def sMax (w : Nat) : Int := 2 ^ (w - 1) - 1
def sMin (w : Nat) : Int := -(2 ^ (w - 1))
def saturate (w : Nat) (v : Int) : Int := max (sMin w) (min (sMax w) v)

/-- A result at full precision reduced by `2^s` to `w` bits: its value and whether it saturated. -/
def reduceTo (s w : Nat) (v : Int) : Int × Bool :=
  let r := roundEven v (2 ^ s)
  (saturate w r, decide (r < sMin w ∨ sMax w < r))

/-- Sum of products of coefficients and samples. -/
def dot (h x : List Int) : Int := ((h.zip x).map fun p => p.1 * p.2).sum

/-- Impulse response of the CIC (R103): four moving sums of 16. -/
def cicTap (i : Nat) : Int :=
  let c := fun (k : Int) => if k < 0 then 0 else (k + 1) * (k + 2) * (k + 3) / 6
  c i - 4 * c (i - 16) + 6 * c (i - 32) - 4 * c (i - 48)
def cicTaps : List Int := (List.range 61).map cicTap

/-- All taps of half-band `k` + 1 from its non-zero ones (R109): every second tap is 0 but the centre's neighbours are not. -/
def hbAll (k : Nat) : List Int :=
  let lo := nth 0 [0, 3, 7, 13, 20, 27, 34] k
  let n := nth 0 [3, 4, 6, 7, 7, 7, 7] k
  let side := (hbTaps.drop lo).take (n - 1)
  let centre := nth 0 hbTaps (lo + n - 1)
  let half := (side.flatMap fun v => [v, 0]).dropLast
  half ++ [centre] ++ half.reverse

/-- All taps of a channel-filter bank (R110). -/
def bankTaps (c : Chain) (b : Nat) : List Int :=
  let w := coefMem c (256 * b + 255)
  let n := fld w 7 0
  (List.range n).map fun i => bankCoef c b (if bit w 16 then i else min i (n - 1 - i))

/-- Tap `t` of phase `p` of the resampler bank, signed Q1.15 (R121). -/
def resampleTap (c : Chain) (p t : Nat) : Int :=
  toSigned 16 (fld (coefMem c (0x400 + 4 * p + t / 2)) (if t % 2 = 0 then 15 else 31) (if t % 2 = 0 then 0 else 16))

/-- Resampler result in units of 2^-25 (R121): the two phases nearest the fractional position, interpolated linearly; the phase
after the last one is phase 0 one input sample on (log entry 98). -/
def resampleAcc (c : Chain) (frac : Nat) (x : List Int) : Int :=
  let p := frac / 1024 % 64
  let f : Int := frac % 1024
  let taps := fun (q : Nat) => (List.range 8).map (resampleTap c q)
  let far := if p = 63 then dot (taps 0) (x.drop 1) else dot (taps (p + 1)) x
  (1024 - f) * dot (taps p) x + f * far

/-- NCO cosine and minus sine at a phase, 14 bits (R104, R107). -/
def ncoPair (p : Word) : Int × Int :=
  ((Config.ncoCos p).toInt, (Config.ncoCos (p + 0x40000000)).toInt)

/-- What a stage forms from its input: its reduced results, each with its saturation, and the SAT event of its group (R104,
R137). An ADC sample at either extreme code counts as saturated (R106); the DDC mixes it. -/
def stageOut (d : Dev) (ch : Bool) : StageIn → List (Int × Bool) × Nat
  | .adc back v =>
    let p := ncoPair (ncoNow d ch - (chain d ch).ncoWord * nw back)
    ([reduceTo 10 16 (v.toInt * p.1), reduceTo 10 16 (v.toInt * p.2)], 6)
  | .cic x => ([reduceTo 14 18 (dot cicTaps x)], 6)
  | .residual im x => ([reduceTo 0 18 (x - if im then (drcNow d ch).2 else (drcNow d ch).1)], 6)
  | .halfBand k x => ([reduceTo 17 18 (dot (hbAll k.val) x)], 7)
  | .channel x => ([reduceTo 17 18 (dot (bankTaps (chain d ch) (fld (chain d ch).runPath 9 8)) x)], 8)
  | .resample f x => ([reduceTo 27 16 (resampleAcc (chain d ch) f x)], 8)

/-- An ADC sample at either extreme code (R106). -/
def adcExtreme (v : BitVec 12) : Bool := v == 0x7FF || v == 0x800

/-- SAT events that the results raise (R104, R106). -/
def stageEvents (ch : Bool) (ins : List StageIn) (d : Dev) : Dev :=
  ins.foldl (fun d i =>
    let d := match i with
      | .adc _ v => if adcExtreme v then event (chReg ch 1) 5 d else d
      | _ => d
    let o := stageOut d ch i
    if o.1.any Prod.snd then event (chReg ch 1) o.2 d else d) d

/-- A result saturated, and every ADC sample or CIC output among them did (R453). -/
def stageSat (d : Dev) (ch : Bool) (i : StageIn) : Bool :=
  (match i with | .adc _ v => adcExtreme v | _ => false) || (stageOut d ch i).1.any Prod.snd
def frontOf : StageIn → Bool
  | .adc _ _ => true | .cic _ => true | _ => false
def allFrontSat (d : Dev) (ch : Bool) (ins : List StageIn) : Bool :=
  ins.any frontOf && ins.all fun i => !frontOf i || stageSat d ch i

/-- Logical slice `j` is the j-th active slice in ascending order, and sample `n` of the chain is taken by logical slice
n mod 16 (R105). -/
def activeSlices (c : Chain) : List Nat := (List.range 18).filter fun i => c.active.getLsbD i
def sampleSlice (c : Chain) (n : Nat) : Nat := nth 0 (activeSlices c) (n % 16)

/-! Marks (R103, R122) -/

/-- ADC sample periods between two input samples of half-band `k` + 1, and between two channel-filter samples. -/
def hbPeriod (k : Nat) : Nat := 16 * 2 ^ k

/-- Samples of input, oldest and newest, that an output of a stage hangs on, back from the output, in ADC sample periods: at the
residual canceller, at the channel filter, whose span MARK_TAPS narrows, and at the resampler (R103, R122). -/
def spanDrc : Nat × Nat := (173 + 60, 173)
def spanChannel (c : Chain) : Nat × Nat :=
  let n := fld c.runPath 2 0
  let hb := ((List.range n).map fun k => (nth 0 [6, 10, 18, 22, 22, 22, 22] k) * hbPeriod k).sum
  let w := coefMem c (256 * fld c.runPath 9 8 + 255)
  let taps := fld w 7 0
  let m := fld c.runPath 23 16
  let (far, near) :=
    if m = 0 ∨ taps ≤ m then (taps - 1, 0)
    else if bit w 16 then (m - 1, 0)
    else ((taps - 1) / 2 + m / 2, (taps - 1) / 2 - min ((taps - 1) / 2) (m / 2))
  (spanDrc.1 + hb + far * hbPeriod n, spanDrc.2 + near * hbPeriod n)
def spanResampler (c : Chain) : Nat × Nat :=
  ((spanChannel c).1 + 7 * hbPeriod (fld c.runPath 2 0), (spanChannel c).2)

/-- Last instant before which an input sample carries a mark: the start-up mark holds to the entry to SAMPLING (R122). -/
def markEnd (c : Chain) : Nat := 18 * (c.marks.foldl (fun a p => max a p.2) c.entryAt)

/-- The output of a stage at an instant carries a mark. -/
def markedAt (c : Chain) (span : Nat × Nat) (x : Nat) : Bool :=
  decide (x < span.1 + 18 * c.entryAt) ||
    c.marks.any fun p => decide (18 * p.1 + span.2 ≤ x ∧ x < span.1 + 18 * p.2)

/-- The first `n` of the outputs at instants `at_ 0`, `at_ 1`, ... that carry no mark. -/
def unmarkedOf (c : Chain) (span : Nat × Nat) (n : Nat) (at_ : Nat → Nat) : List Nat :=
  if markEnd c + span.1 ≤ at_ 0 then List.range n else (List.range n).filter fun i => !markedAt c span (at_ i)

/-- Instant of output `i` of `n`, `p` apart, of which the last falls at fine tick `t`. -/
def backFrom (t n p i : Nat) : Nat := 18 * t - (n - 1 - i) * p

/-! Symbols (R120-R123) -/

/-- Instant of resampled sample `j` after frame sync: 16 a cycle of the tracked BLF, behind the resampler. -/
def symbolAt (c : Chain) (j : Nat) : Nat :=
  18 * c.syncAt + 4 * hbPeriod (fld c.runPath 2 0) + (j + 1) * 180000000 / max 1 c.blf

/-- A data symbol of the first `n` after frame sync is erased: fewer than 25 % of its 16M samples are unmarked (R123). -/
def anyErased (d : Dev) (c : Chain) (n : Nat) : Bool :=
  let len := 16 * millerM (linkNow d)
  if markEnd c + (spanResampler c).1 ≤ symbolAt c 0 then false
  else (List.range n).any fun k =>
    decide (4 * (unmarkedOf c (spanResampler c) len fun j => symbolAt c (len * k + j)).length < len)

/-- Channel-filter samples in the preamble of a reply at a BLF: 6 or 10 symbols, and 12 more with TRext. -/
def preambleSamples (d : Dev) (c : Chain) (blf : Nat) : Nat :=
  let w := linkNow d
  ((if millerM w = 1 then 6 else 10) + (if bit w 25 then 12 else 0)) * millerM w * (180000000 / 2 ^ fld c.runPath 2 0) / max 1 blf

/-- At least 75 % of the samples of a preamble that ends now are unmarked (R123). -/
def preambleClear (d : Dev) (c : Chain) (blf : Nat) : Bool :=
  let n := preambleSamples d c blf
  let p := hbPeriod (fld c.runPath 2 0)
  decide (3 * n ≤ 4 * (unmarkedOf c (spanChannel c) n (backFrom d.now n p)).length)

/-! Detectors (R124) -/

/-- Samples in a block, stages ahead of the detector, and its input samples. -/
def detBlockLen (w : Word) : Nat := 2 ^ fld w 27 24

/-- Outputs of the stage a detector listens to: the residual canceller, or the channel filter sliding over its inputs. -/
def detInput (d : Dev) (ch : Bool) (b : DetBlock) : List ((Int × Bool) × (Int × Bool)) :=
  if b.det = 2 then
    b.samples.map fun p => (reduceTo 0 18 (p.1 - (drcNow d ch).1), reduceTo 0 18 (p.2 - (drcNow d ch).2))
  else
    let taps := bankTaps (chain d ch) (fld (chain d ch).runPath 9 8)
    (List.range (b.samples.length + 1 - taps.length)).map fun j =>
      let x := ((b.samples.drop j).take taps.length).reverse
      (reduceTo 17 18 (dot taps (x.map Prod.fst)), reduceTo 17 18 (dot taps (x.map Prod.snd)))

/-- Unmarked outputs of a block that ends now. -/
def detUnmarked (d : Dev) (ch : Bool) (k : Fin 3) (n : Nat) : List Nat :=
  let c := chain d ch
  let p := if k = 2 then 16 else hbPeriod (fld c.runPath 2 0)
  unmarkedOf c (if k = 2 then spanDrc else spanChannel c) n (backFrom d.now n p)

/-- Level of the block at the port from the power of its unmarked samples; no power is the lowest level (R124, R125). -/
def detLevel (d : Dev) (ch : Bool) (b : DetBlock) : Nat :=
  let out := detInput d ch b
  let use := detUnmarked d ch b.det out.length
  let sum := (use.map fun i => let o := nth ((0, false), (0, false)) out i; (o.1.1 * o.1.1 + o.2.1 * o.2.1).toNat).sum
  if sum = 0 then 0 else min 1023 (Config.portLevel ch b.det.val sum use.length)

/-! Separator (R132-R134) -/

/-- Square of a distance, and of a length. -/
def dist2 (a b : List Int) : Int := ((a.zip b).map fun p => (p.1 - p.2) * (p.1 - p.2)).sum

/-- Clusters: a point within three noise deviations of a cluster's first point belongs to it, another begins one (R133; log
entry 101). First points with the points of each. -/
def clusters (r : Nat) (pts : List (List Int)) : List (List (List Int)) :=
  pts.foldl (fun (cs : List (List (List Int))) p =>
    match cs.findIdx? fun c => decide (dist2 (c.headD []) p ≤ (9 * r * r : Nat)) with
    | some i => cs.set i (nth [] cs i ++ [p])
    | none => cs ++ [[p]]) []

/-- Every sum of the vectors with either sign. -/
def signSums (dim : Nat) : List (List Int) → List (List Int)
  | [] => [List.replicate dim 0]
  | v :: vs => (signSums dim vs).flatMap fun s => [(s.zip v).map fun p => p.1 + p.2, (s.zip v).map fun p => p.1 - p.2]

/-- Every cluster's centre lies within the radius of a sum of the vectors (R133); lengths are compared times the number of
points. -/
def clustersFit (r dim : Nat) (cs : List (List (List Int))) (vs : List (List Int)) : Bool :=
  cs.all fun c =>
    let n : Int := c.length
    let sum := c.foldl (fun (a : List Int) p => (a.zip p).map fun q => q.1 + q.2) (List.replicate dim 0)
    (signSums dim vs).any fun s => decide (dist2 sum (s.map (n * ·)) ≤ 9 * n * n * (r * r : Nat))

/-- Determinant of the products of up to three vectors. -/
def gram : List (List Int) → Int
  | [] => 1
  | [a] => dot a a
  | [a, b] => dot a a * dot b b - dot a b * dot a b
  | a :: b :: c :: _ =>
    dot a a * (dot b b * dot c c - dot b c * dot b c) - dot a b * (dot a b * dot c c - dot b c * dot a c)
      + dot a c * (dot a b * dot b c - dot b b * dot a c)

/-- SINR of tag `i` after projection: the part of its vector's power orthogonal to the others, over the noise power (R134); 0 of
an absent tag. -/
def tagSinr (r : Nat) (vs : List (List Int)) (i : Nat) : Nat :=
  if vs.length ≤ i then 0
  else
    let num := gram vs
    let den := gram (vs.eraseIdx i) * (r * r : Nat)
    if num ≤ 0 then 0 else if den ≤ 0 then 255 else min 255 (Config.sinrCode num.toNat den.toNat)

/-- Dimensions of a point: two for each chain that samples; points of a separation: two a BLF cycle over 16 symbols (R132). -/
def sepDim (d : Dev) : Nat := 2 * ([d.chA, d.chB].filter chainSampling).length
def sepCount (d : Dev) : Nat := 32 * millerM (linkNow d)

end Sys2Proof.Machine
end

