-- ==== Sys2Proof/Machine/Rxd.lean ====
section
/-! DEFINITION. The commands of the receive chains: coefficient port, run and stop, residual canceller, detectors, frame
sync, diversity, decoding and separation (R103-R141, R155). -/
namespace Sys2Proof.Machine

/-- COEF_DATA_ACCESS (R111, R112): one access of a reader to a chain's coefficient port. -/
def execCoefDataAccess (t : Nat) (r : Reader) (chain : Bool) (wr : Option Word) (s : State) : Out :=
  .next (regAccess t r false (chReg chain 0x19) wr s)

/-- CHAIN_RUN (R113, R114): RUN written 1. -/
def execChainRun (t : Nat) (r : Reader) (chain : Bool) (s : State) : Out :=
  .next (regAccess t r false (chReg chain 3) (some (reg s.dev (chReg chain 3) ||| 1)) s)

/-- CHAIN_STOP (R113, R114): RUN written 0. -/
def execChainStop (t : Nat) (r : Reader) (chain : Bool) (s : State) : Out :=
  .next (regAccess t r false (chReg chain 3) (some (reg s.dev (chReg chain 3) &&& ~~~ 1)) s)

/-- Mean of the unmarked samples that enter a chain's residual canceller up to a fine tick, rounded under R104; the estimate stays
as it stands when every sample is marked. -/
def drcMean (c : Chain) (e : Nat) (samples : List (Int × Int)) : Int × Int :=
  let n := samples.length
  let use := (unmarkedOf c spanDrc n (backFrom e n 16)).map fun i => nth (0, 0) samples i
  if use.isEmpty then (c.ri, c.rq)
  else (roundEven (use.map Prod.fst).sum use.length, roundEven (use.map Prod.snd).sum use.length)

/-- DRC_LEARN_END (R108): the learn interval ends with the mean of its unmarked samples, and the canceller tracks from there;
past the range of 2^16 the estimate saturates. -/
def execDrcLearnEnd (t : Nat) (chain : Bool) (samples : List (Int × Int)) (s : State) : Out := s.run fun d =>
  let d := tick t d
  let c := Sys2Proof.Machine.chain d chain
  match c.learnEnd with
  | none => d
  | some e =>
    if chainSampling c ∧ e ≤ t then
      let (ri, rq) := drcMean c e samples
      if 4294967296 < ri * ri + rq * rq then
        let p := Config.drcLimited ri rq
        event (chReg chain 1) 4 (setChain chain { c with learnEnd := none, ri := p.1.toInt, rq := p.2.toInt } d)
      else setChain chain { c with learnEnd := none, ri := ri, rq := rq } d
    else d

/-! Detectors (R124, R125) -/

/-- Flag of detector `k` of a chain, and its replacement. -/
def detFlag (c : Chain) (k : Fin 3) : Bool := match k with | 0 => c.cs | 1 => c.te | 2 => c.ifl
def setDetFlag (k : Fin 3) (v : Bool) (c : Chain) : Chain :=
  match k with
  | 0 => { c with cs := v }
  | 1 => { c with te := v }
  | 2 => { c with ifl := v }

/-- Marks a window by saturation in a block (R106, R453). -/
def windowSat (sat allSat : Bool) (w : Window) : Window :=
  { w with sat := w.sat || sat, satAll := some (allSat && w.satAll.getD true) }

/-- A detector's flag rises: its event, the window's energy, and an end of the learn interval under FRZ_TE (R108, R124). -/
def detRise (ch : Bool) (k : Fin 3) (d : Dev) : Dev :=
  let d := if k = 1 then drcLatch ch d else d
  let d := event (chReg ch 1) (1 + k.val) (setChain ch (setDetFlag k true (chain d ch)) d)
  if k = 1 then
    let d := updWindow ch (fun w => { w with teRose := true }) d
    let d := { d with pair := { d.pair with te := d.pair.te || (chain d ch).win.isSome } }
    let c := chain d ch
    if bit (cfg d (chReg ch 0x0B)) 1 ∧ c.learnEnd.isSome then setChain ch { c with learnEnd := some d.now } d else d
  else d

/-- The level of a complete block is shown and judged (R124, R125). -/
def detJudge (ch : Bool) (k : Fin 3) (lvl : Nat) (d : Dev) : Dev :=
  let w := cfg d (chReg ch (0x0C + k.val))
  let d := setReg (chReg ch (0x10 + k.val)) (put 15 15 1 ||| put 9 0 lvl) d
  let hi := fld w 9 0
  if hi ≤ lvl then (if detFlag (chain d ch) k then d else detRise ch k d)
  else if lvl + 4 * max 1 (fld w 19 16) ≤ hi then
    let d := if k = 1 then drcLatch ch d else d
    setChain ch (setDetFlag k false (chain d ch)) d
  else d

/-- DETECTOR_BLOCK (R103-R106, R124, R125): a chain that samples has processed samples: the SAT events and the window's marks of
its stages, and the block average of an enabled detector once it has all its samples. The flag of a detector that a turn disables
stays as it is (log entry 99). -/
def execDetectorBlock (t : Nat) (chain : Bool) (blk : DetBlock) (s : State) : Out := s.run fun d =>
  let d := tick t d
  let c := Sys2Proof.Machine.chain d chain
  let w := cfg d (chReg chain (0x0C + blk.det.val))
  if chainSampling c then
    let out := detInput d chain blk
    let clipped := out.any fun o => o.1.2 || o.2.2
    let any := clipped || blk.stages.any (stageSat d chain)
    let all := allFrontSat d chain blk.stages
    let lvl := detLevel d chain blk
    let use := detUnmarked d chain blk.det out.length
    let d := stageEvents chain blk.stages d
    let d := if clipped then event (chReg chain 1) (if blk.det = 2 then 6 else 8) d else d
    let d := if blk.stages.any frontOf ∨ any then updWindow chain (windowSat any all) d else d
    if bit w 31 && decide (out.length = detBlockLen w) && !use.isEmpty then detJudge chain blk.det lvl d else d
  else d

/-! Frame sync and diversity (R119, R123, R130, R131) -/

/-- A BLF in Hz can be synchronised to: within RANGE % of nominal, and Fo at most Fc (R119). -/
def blfOk (d : Dev) (c : Chain) (blf : Nat) : Bool :=
  let nom := 1000 * blfKhz (linkNow d)
  let r := rsmpRange c.runRsmp
  decide (nom * (100 - r) ≤ blf * 100 ∧ blf * 100 ≤ nom * (100 + r))
    && decide (16 * blf * 2 ^ fld c.runPath 2 0 ≤ 180000000)

/-- The wait of a window for frame sync is over: STMO after TX_END, or TWAIT of the access operation under a KIND 2 descriptor, from
TX_END or from the end of the last reply (R180, R212, R213); with no frame sent before it there is no end. -/
def syncLate (d : Dev) (w : Window) : Bool :=
  if d.uhf.st ≠ .rxCw ∨ !d.seq.txEnd then false
  else
    let sent := d.seq.txEndAt.getD 0
    if fld w.desc 31 30 = 2 then
      match d.acc.op.bind (findOp d) with
      | none => false
      | some o => decide (max sent (d.seq.takenEnd.getD 0) + us (accTwait o) < d.now)
    else decide (sent + us (fld (cfg d Reg.GEN2_RND) 23 16) < d.now)

/-- FRAME_SYNC (R119, R120, R123, R180): a preamble correlates on a chain with a window open, at least 75 % of its samples unmarked; the
resampler loads the BLF. -/
def execFrameSync (t : Nat) (chain : Bool) (snr blf : Nat) (s : State) : Out := s.run fun d =>
  let d := tick t d
  let c := Sys2Proof.Machine.chain d chain
  let open_ := c.win.any fun w => !w.synced && !w.dead && !syncLate d w
  if chainSampling c && open_ && decide (fld c.runDec 7 0 ≤ snr) && blfOk d c blf && preambleClear d c blf then
    let d := setReg (chReg chain 0x13) (putB 31 true ||| put 19 0 blf) (setChain chain { c with sync := true, blf := blf, syncAt := d.now } { d with pair := { d.pair with sync := true } })
    updWindow chain (fun w => { w with synced := true, snr := min 255 snr }) d
  else d

/-- The chain's window is part of the evaluation and it declared sync. -/
def eligible (c : Chain) : Bool := chainSampling c && c.win.any fun w => w.div && w.synced
def windowSnr (c : Chain) : Nat := match c.win with | none => 0 | some w => w.snr

/-- DIVERSITY_DECIDE (R130, R131): at the end of the preamble DIV_B is set for the rest of the frame. -/
def execDiversityDecide (t : Nat) (s : State) : Out := s.run fun d =>
  let d := tick t d
  let a := eligible d.chA
  let b := eligible d.chB
  if d.pair.divDone || !(a || b) then d
  else
    let w := cfg d Reg.RXD_DIV_CFG
    let pref := bit w 8
    let better := decide (windowSnr (chain d pref) + fld w 7 0 ≤ windowSnr (chain d (!pref)))
      && decide (windowSnr (chain d pref) < windowSnr (chain d (!pref)))
    let takeB := if a && b then (if better then !pref else pref) else b
    { d with pair := { d.pair with divB := takeB, divDone := true, taken := takeB } }

/-! Decoding (R126, R155, R175, R176) -/

/-- The first word of a PC-sized reply and its whole length in bits, XPC_W1 and CRC-16 included (R176). -/
def pcSized (bits : List Bool) : Nat :=
  let pc := natOfBits (bits.take 16)
  16 + 16 * (pc / 2048) + (if pc / 512 % 2 = 1 then 16 else 0) + 16

/-- The replies of a descriptor end in a CRC-16: by its CRC16, and for KIND 1 and 2 always (R176, R210). -/
def descCrc (desc : Word) : Bool := bit desc 27 || decide (fld desc 31 30 = 1 ∨ fld desc 31 30 = 2)

/-- Whole length of an in-process reply: Barker code 7, Done, Header, a length field of 15 bits and its parity, the response, handle and
CRC-16 (ISO/IEC 18000-63; log entry 104). -/
def inProcessLen (bits : List Bool) : Nat := 57 + natOfBits ((bits.drop 9).take 15)

/-- The reply of a descriptor is in the in-process format (R211). -/
def inProcess (desc : Word) : Bool := decide (fld desc 31 30 = 2 ∧ fld desc 9 0 ≠ 0)

/-- Bits after which a reply ends under its descriptor (R176, R210, R211): an error reply after 41. -/
def replyLen (desc : Word) (bits : List Bool) : Nat :=
  let n := fld desc 9 0
  match fld desc 31 30 with
  | 1 => min n (pcSized bits)
  | 2 => if n = 0 then (if bits.headD false then 41 else 33) else min n (inProcessLen bits)
  | _ => if bit desc 29 && bits.headD false then 41 else n

/-- Its header bit is 1 (R155, R211). -/
def replyError (desc : Word) (bits : List Bool) : Bool :=
  if inProcess desc then nth false bits 8 else (bit desc 29 || fld desc 31 30 == 2) && bits.headD false

/-- The check unit finds the CRC of a decided frame good under its descriptor (R155, R176). -/
def frameCrcGood (desc : Word) (bits : List Bool) : Bool :=
  if descCrc desc then
    (if (fld desc 31 30 = 1 ∧ fld desc 9 0 < pcSized bits) ∨ (inProcess desc = true ∧ fld desc 9 0 < inProcessLen bits) then false
     else crc16Good bits)
  else false

/-- Bits a reply holds ahead of its CRC-16. -/
def frameBody (desc : Word) (bits : List Bool) : List Bool := if descCrc desc then bits.take (bits.length - 16) else bits

/-- What firmware makes of a taken frame while its access table runs: an EPC that is the target's lets Req_RN follow with the RN16 kept
from before (R203), and an in-process reply whose Done bit is 1 is no working reply (R211, R213). -/
def accessSees (desc : Word) (bits : List Bool) (rn : Option (BitVec 16)) (d : Dev) : Dev :=
  match d.acc.op.bind (findOp d) with
  | none => d
  | some o =>
    let a := d.acc
    let pc := natOfBits (bits.take 16)
    if d.uhf.lastBuf = 20 ∧ a.phase = .acquire ∧ frameCrcGood desc bits = true
        ∧ (bits.drop 16).take (16 * (pc / 2048)) = (if a.oldEpc then a.prevEpc else a.epc) then
      setSw 5 true (fwBuffer 21 (fbHeader false 2 3 8 24) (accReqRn (rn.getD 0).toNat) d)
    else if d.uhf.lastBuf = accBuf o ∧ inProcess desc = true ∧ nth false bits 7 = true then setSw 5 true d
    else d

/-- Flags the taken frame raises: RN_READY without separation, HANDLE_OK and TAG_ERR; its RN16 and its end (R155, R175). -/
def takenFrame (ch : Bool) (desc : Word) (sep : Bool) (bits : List Bool) (d : Dev) : Dev :=
  let body := frameBody desc bits
  let hnd := match d.acc.handle with
    | none => false
    | some h => (bit desc 28 || fld desc 31 30 == 2) && decide (16 ≤ body.length ∧ natOfBits (body.drop (body.length - 16)) = h.toNat)
  let err := replyError desc bits
  let end_ := d.now - Config.decodeLatency (chain d ch).runPath (reg d (chReg ch 0x13))
  let rn := if 16 ≤ bits.length then some (BitVec.ofNat 16 (natOfBits (bits.take 16))) else d.gen2.rn16
  accessSees desc bits d.gen2.rn16
    { d with seq := { d.seq with handleOk := hnd, tagErr := err, takenEnd := some end_, rnReady := d.seq.rnReady || !sep }
             gen2 := { d.gen2 with rn16 := rn } }

/-- The timing loop follows a frame of `n` symbols while TRACK is 1; the ratio stays otherwise (R120). -/
def trackBlf (c : Chain) (n : Nat) : Nat :=
  if bit c.runRsmp 0 then Config.timingLoop (fld c.runRsmp 11 8) c.blf n else c.blf

/-- FRAME_DECODED (R104, R120, R123, R126, R128, R155, R176, R210, R211): a chain in sync ends a frame; its bits end
where its descriptor says, and an erased symbol gives no DEC_VALID. -/
def execFrameDecoded (t : Nat) (chain : Bool) (bits : List Bool) (stages : List StageIn) (s : State) : Out := s.run fun d =>
  let d := tick t d
  let c := Sys2Proof.Machine.chain d chain
  match c.win with
  | none => d
  | some w =>
    let n := replyLen w.desc bits
    if w.synced = false ∨ c.decValid ∨ w.erased ∨ bits.length < n then d
    else
      let bits := bits.take n
      let sat := w.sat || stages.any (stageSat d chain)
      let erased := anyErased d c bits.length
      let d := stageEvents chain stages d
      if erased then updWindow chain (fun w => { w with erased := true, sat := sat, bits := bits }) d
      else
        let d := setChain chain { Sys2Proof.Machine.chain d chain with
          decValid := true, crcOk := frameCrcGood w.desc bits, frame := bits, blf := trackBlf c bits.length } d
        let d := updWindow chain (fun w => { w with sat := sat, bits := bits }) d
        if chainTaken d chain w then takenFrame chain w.desc (sepRuns d w) bits d else d

/-! Separation (R132-R134, R155) -/

/-- N_EST of R133. -/
def nEstOf (synced : Bool) (c : Nat) : Nat := if !synced then 0 else if c ≤ 2 then 1 else if c ≤ 4 then 2 else 3

/-- The tag of the highest SINR, the lowest number among equals. -/
def bestTag (sinr : List Nat) : Nat := if nth 0 sinr 0 < nth 0 sinr 1 then (if nth 0 sinr 1 < nth 0 sinr 2 then 2 else 1)
  else if nth 0 sinr 0 < nth 0 sinr 2 then 2 else 0

/-- The separator's result takes effect (R133, R134). -/
def sepApply (res : SepResult) (d : Dev) : Dev :=
  let synced := d.pair.sync
  let te := d.pair.te
  let cs := clusters res.sigma res.points
  let c := cs.length
  let n := nEstOf synced c
  let both := chainSampling d.chA && chainSampling d.chB
  let vecs := res.vecs.take n
  let fit := clustersFit res.sigma (sepDim d) cs vecs && decide (c = 2 ∨ c = 4 ∨ c = 8)
  let sinr := (List.range 3).map (tagSinr res.sigma vecs)
  let who := bestTag sinr
  let best := nth 0 sinr who
  let bits := nth [] res.bits who
  let clean := [d.chA, d.chB].any fun c => c.win.any Window.synced && !anyErased d c 16
  let rec_ := (decide (n = 2) || (decide (n = 3) && decide (c ≤ 8) && both)) && fit
    && decide (fld (cfg d Reg.RXD_SEP_CFG) 15 8 ≤ best) && clean
  let d := setReg Reg.RXD_SEP_RES (put 23 16 best ||| put 11 8 (min 15 c) ||| putB 7 (te && !synced)
      ||| put 5 4 (if rec_ then who else 0) ||| putB 3 fit ||| putB 2 rec_ ||| put 1 0 n) d
  let d := setReg Reg.RXD_SEP_SINR (put 23 16 (nth 0 sinr 2) ||| put 15 8 (nth 0 sinr 1) ||| put 7 0 (nth 0 sinr 0)) d
  let go := fun (ch : Bool) (d : Dev) =>
    updWindow ch (fun w => { w with bits := bits }) (setChain ch { chain d ch with frame := bits } d)
  let d := if rec_ then go true (go false d) else d
  let ready := rec_ || (decide (n = 1) && (takenChain d).decValid)
  let rn := if rec_ then some (BitVec.ofNat 16 (natOfBits (bits.take 16))) else d.gen2.rn16
  let end_ := some (d.now - Config.decodeLatency (takenChain d).runPath (reg d (chReg d.pair.taken 0x13)))
  { d with pair := { d.pair with sepDone := true, sepMulti := decide (2 ≤ n), sepRec := rec_, nEst := n }
           seq := { d.seq with rnReady := ready, takenEnd := if rec_ && !(takenChain d).decValid then end_ else d.seq.takenEnd }
           gen2 := { d.gen2 with rn16 := rn } }

/-- The frame of a chain with a window is over: decided, erased, or never in sync (R134). -/
def frameOver (c : Chain) : Bool := c.win.all fun w => !w.synced || c.decValid || w.erased

/-- SEP_DONE (R132-R134, R453): the separation of the open windows is complete, no earlier than the frame of any chain in sync; a
result that fails its internal parity resets the separator and leaves the chain's result. -/
def execSepDone (t : Nat) (res : SepResult) (s : State) : Out := s.run fun d =>
  let d := tick t d
  let runs := [d.chA.win, d.chB.win].any fun w => w.any fun w => sepRuns d w && w.synced
  if d.pair.sepDone || !runs || !frameOver d.chA || !frameOver d.chB then d
  else if res.parityOk then sepApply res d
  else raiseFault 0x26 blkSep 0 d

end Sys2Proof.Machine
end

