-- ==== Sys2Proof/Machine/Access.lean ====
section
/-! DEFINITION. The commands of tag access: cover codes, and firmware's judgement of each unit (R201-R224). -/
namespace Sys2Proof.Machine

/-- The access operation in progress. -/
def accOp (d : Dev) : Option Op := d.acc.op.bind (findOp d)

def updAcc (f : Access → Access) (d : Dev) : Dev := { d with acc := f d.acc }

/-- COVER_CODE_PREPARE (R203, R206): the RN16 of the reply to the Req_RN that asks for a cover code, once it is decided, covers the word of a Write, the half of a Kill, or the
next half of the access password (the first while `working` is 0); the buffer is written and SW5 set. -/
def execCoverCodePrepare (t : Nat) (s : State) : Out := s.run fun d =>
  let d := tick t d
  let c := takenChain d
  match accOp d, d.gen2.rn16 with
  | some o, some rn =>
    if d.uhf.lastBuf = 21 && c.decValid && c.crcOk && decide (d.acc.prepared < d.seq.takenEnd.getD 0) then
      let d := updAcc (fun a => { a with prepared := d.now }) d
      match d.acc.phase with
      | .cover => setSw 5 true (fwBlockBuffers o rn.toNat (updAcc (fun a => { a with phase := .command, working := 0 }) d))
      | .access =>
        let pw := accPassword o
        let first := decide (d.acc.working = 0)
        let f := accAccessFrame (if first then fld pw 31 16 else fld pw 15 0) rn.toNat 0
        setSw 5 true (fwImmediate false true 32 (fwBuffer (if first then 23 else 24) (fbHeader false 2 3 24 40) f
          (updAcc (fun a => { a with working := if first then 1 else 0 }) d)))
      | _ => d
    else d
  | _, _ => d

/-! How a unit has ended (R205, R210-R214, R216) -/

/-- What a unit of an access came to: no reply, a good one with its data, the tag's error code, a reply with a bad CRC or without the
handle, a working reply, the field lost with its cause and whether the command was out, the handle given up at a head. -/
inductive UnitOutcome where
  | noReply
  | good (bits : List Bool)
  | tagError (code : Byte)
  | bad
  | working
  | fieldLost (cause : Nat) (afterTx : Bool)
  | dropped
  deriving DecidableEq, Repr

/-- Error code of an error reply (R210); of an in-process one, the first byte of its response. -/
def replyCode (desc : Word) (bits : List Bool) : Byte :=
  BitVec.ofNat 8 (natOfBits ((bits.drop (if inProcess desc then 25 else 1)).take 8))

/-- Data of a reply with header 0: the bits between its header and its handle; those of TAG_AUTH and TAG_XCHG are whole (R201, R398). -/
def replyData (o : Op) (bits : List Bool) : List Bool :=
  if 0x408 ≤ o.opcode then bits else (bits.drop 1).take (bits.length - 33)

/-- A command or a Read by its reply. -/
def replyOutcome (d : Dev) (o : Op) (desc : Word) : UnitOutcome :=
  let c := takenChain d
  let hnd := bit desc 28 || decide (fld desc 31 30 = 2)
  if !c.decValid then .noReply
  else if (descCrc desc && !c.crcOk) || (hnd && !d.seq.handleOk) then .bad
  else if d.seq.tagErr then .tagError (replyCode desc c.frame)
  else if inProcess desc && !nth false c.frame 7 then .working
  else .good (replyData o c.frame)

/-- How the unit in the air has ended, by what its table left. -/
def unitOutcome (d : Dev) (o : Op) : UnitOutcome :=
  let a := d.acc
  let c := takenChain d
  let r := Reg.GEN2_RDESC_0
  if a.lost then (if a.dropped then .dropped else .fieldLost a.cause a.afterTx)
  else match a.phase with
    | .acquire =>
      if d.uhf.lastBuf = 21 && c.decValid then (if c.crcOk then .good c.frame else .bad) else .noReply
    | .access => if d.uhf.lastBuf = 24 && c.decValid && c.crcOk && d.seq.handleOk then .good [] else .noReply
    | .cover => .noReply
    | .command =>
      if d.uhf.lastBuf = 22 then replyOutcome d o (cfg d (r + 3))
      else if o.opcode = 0x409 then replyOutcome d o (cfg d (r + xchgDesc o))
      else replyOutcome d o (cfg d (r + (if accImmediate o a.block then 3 else 2)))
    | .readback => replyOutcome d o (cfg d (r + 3))

/-! Judging a unit (R213-R224) -/

/-- Status of a cause of field loss (R224). -/
def causeStatus (c : Nat) : Nat := if c = 2 then 0x21 else if c = 3 then 0x20 else if c = 4 then 0x60 else 0x30

/-- One more attempt at the present block, or the end with a status when RETRY is used up. -/
def accRetryOr (o : Op) (status : Nat) (again : Dev → Dev) (d : Dev) : Dev :=
  if accRetry o ≤ d.acc.tries then failOp o status d
  else again (updAcc (fun a => { a with tries := a.tries + 1 }) d)

/-- A block is left UNCONFIRMED (R214, R216, R219): it ends a command that is not repeated or not verified. -/
def accLeft (o : Op) (cause : Nat) (d : Dev) : Dev :=
  let d := accUnconfirmed o cause d
  if accVerifies o then accReacquire o d else failOp o 0x33 d

/-- The tag's error code is kept for the ACCESS record. -/
def accErrorSeen (code : Byte) (d : Dev) : Dev := updAcc (fun a => { a with tagErrCode := code.toNat, tagErrValid := true }) d

/-- A tag error (R216): 0x0B is tried again, any other ends the operation. -/
def accError (o : Op) (code : Byte) (d : Dev) : Dev :=
  let d := accErrorSeen code d
  if code = 0x0B then accRetryOr o 0x32 (accPrepare o) d else failOp o 0x32 d

/-- Result words of a read or of TAG_AUTH (R340). -/
def accResult (o : Op) (data : List Bool) : List Word :=
  if o.opcode = 0x400 then packBits 500 data
  else if o.opcode = 0x408 then nw data.length :: packBits 500 data
  else []

/-- The present block is confirmed or read (R217-R220, R223); the next follows in the same acquisition, or the operation is
DONE. -/
def accConfirm (o : Op) (bits : List Bool) (d : Dev) : Dev :=
  let a := d.acc
  let n := a.confirmed + (if o.opcode ≤ 0x403 then accBlockLen o a.block else 0)
  let epc := if a.unconf then a.epc else epcAfter o a.block a.epc
  let last := decide (accBlocks o ≤ a.block + 1)
  let prog := if o.opcode ≤ 0x403 then n else if last then 1 else 0
  let d := updAcc (fun a => { a with confirmed := n, block := a.block + 1, tries := 0, unconf := false, oldEpc := false
                                     epc := epc, prevEpc := epc, working := 0, data := a.data ++ bits }) d
  let o := { o with progress := nw prog }
  let d := updOp o.tag (fun p => { p with progress := nw prog }) d
  if last then doneOp o (accResult o d.acc.data) d
  else accPrepare o (updAcc (fun a => { a with phase := blockPhase o a }) d)

/-- Judgement of an acquisition unit (R203, R216, R223). -/
def judgeAcquire (o : Op) (out : UnitOutcome) (d : Dev) : Dev :=
  let again := fun (status : Nat) (d : Dev) =>
    if accAcq o ≤ d.acc.acqTries + 1 then failOp o status d
    else accReacquire o (updAcc (fun a => { a with acqTries := a.acqTries + 1
                                                   oldEpc := a.oldEpc != (a.unconf && decide (accBank o = 1)) }) d)
  match out with
  | .good bits =>
    let h := if 16 ≤ bits.length then some (BitVec.ofNat 16 (natOfBits (bits.take 16))) else d.gen2.rn16
    accPrepare o (updAcc (fun a => { a with
      handle := h, acqTries := 0, working := 0
      phase := if accPassword o = 0 then blockPhase o a else .access }) d)
  | .fieldLost c _ => again (causeStatus c) (updAcc (fun a => { a with cause := c }) d)
  | _ => again 0x30 d

/-- Judgement of the Access pair (R216). -/
def judgeAccess (o : Op) (out : UnitOutcome) (d : Dev) : Dev :=
  let again := fun (status : Nat) (d : Dev) =>
    if accRetry o ≤ d.acc.passTries then failOp o status d
    else accPrepare o (updAcc (fun a => { a with passTries := a.passTries + 1, working := 0 }) d)
  match out with
  | .good _ => accPrepare o (updAcc (fun a => { a with phase := blockPhase o a, passTries := 0, working := 0 }) d)
  | .tagError c => if c = 0x0B then again 0x32 (accErrorSeen c d) else failOp o 0x32 (accErrorSeen c d)
  | .fieldLost c _ => accReacquire o (updAcc (fun a => { a with cause := c }) d)
  | _ => again 0x35 d

/-- Judgement of a cover Req_RN (R216): a reply with its RN16 is taken by COVER_CODE_PREPARE. -/
def judgeCover (o : Op) (out : UnitOutcome) (d : Dev) : Dev :=
  match out with
  | .good _ => d
  | .tagError c => accError o c d
  | .fieldLost c _ => accReacquire o (updAcc (fun a => { a with cause := c }) d)
  | _ => accRetryOr o 0x31 (accPrepare o) d

/-- The command is sent again from its first frame, the cover Req_RN where it has one. -/
def accAgain (o : Op) (d : Dev) : Dev :=
  accPrepare o (updAcc (fun a => { a with phase := blockPhase o a, working := 0 }) d)

/-- Judgement of a block's command (R213, R214, R216, R219). -/
def judgeCommand (o : Op) (out : UnitOutcome) (d : Dev) : Dev :=
  let quiet := accImmediate o d.acc.block
  match out with
  | .good bits =>
    if accVerifies o then accPrepare o (updAcc (fun a => { a with phase := .readback }) d) else accConfirm o bits d
  | .tagError c => if c = 0x0B then accRetryOr o 0x32 (accAgain o) (accErrorSeen c d)
                   else accError o c d
  | .noReply => if quiet then accRetryOr o 0x31 (accAgain o) d else accLeft o 5 d
  | .bad => if quiet then accRetryOr o 0x31 (accAgain o) (updAcc (fun a => { a with cause := 6 }) d) else accLeft o 6 d
  | .working =>
    if quiet then accRetryOr o 0x31 (accAgain o) d
    else if d.acc.working < accXmax o then accPrepare o (updAcc (fun a => { a with working := a.working + 1 }) d)
    else accLeft o 5 d
  | .fieldLost c afterTx =>
    if afterTx && !quiet then accLeft o c d
    else accRetryOr o (causeStatus c) (accReacquire o) (updAcc (fun a => { a with cause := c }) d)
  | .dropped => d

/-- Judgement of a read-back (R217, R218). -/
def judgeReadback (o : Op) (out : UnitOutcome) (d : Dev) : Dev :=
  match out with
  | .good bits =>
    if bits = accDataBits o d.acc.block then accConfirm o [] d
    else accRetryOr o 0x34 (accAgain o) (updAcc (fun a => { a with
      unconf := false, epc := if a.unconf then a.prevEpc else a.epc, oldEpc := false }) d)
  | .tagError c =>
    failOp o 0x33 (accUnconfirmed o d.acc.cause (accErrorSeen c d))
  | .fieldLost c _ => accReacquire o (accUnconfirmed o c d)
  | .bad => accReacquire o (accUnconfirmed o 6 d)
  | _ => accReacquire o (accUnconfirmed o 5 d)

/-- Judgement of a unit by its phase; a block whose verifying Read went out is judged by it (R204). -/
def judgeUnit (o : Op) (out : UnitOutcome) (d : Dev) : Dev :=
  match out with
  | .dropped => accReacquire o d
  | _ =>
    match d.acc.phase with
    | .acquire => judgeAcquire o out d
    | .access => judgeAccess o out d
    | .cover => judgeCover o out d
    | .command => if d.uhf.lastBuf = 22 ∧ accVerifies o = true then judgeReadback o out d else judgeCommand o out d
    | .readback => judgeReadback o out d

/-- ACCESS_UNIT_JUDGE (R205, R216): firmware judges the unit whose end its table has posted and prepares the next, or ends the
operation; when the field went after that end, the tag is acquired again. -/
def execAccessUnitJudge (t : Nat) (s : State) : Out := s.run fun d =>
  let d := tick t d
  match accOp d with
  | none => d
  | some o =>
    if o.st ≠ .running ∨ !d.acc.unitEnd then d
    else
      let out := unitOutcome d o
      let gone := d.acc.dropped && !d.acc.lost
      let d := judgeUnit o out (updAcc (fun a => { a with unitEnd := false, lost := false, afterTx := false, dropped := false }) d)
      opsSettle (if gone && decide (d.acc.op = some o.tag) then accReacquire o d else d)

end Sys2Proof.Machine
end

