-- ==== Sys2Proof/Machine/CmdOps.lean ====
section
/-! DEFINITION. Command packets as firmware serves them: checks, replies, acceptance of long operations, tagless requests
and the short commands (R330-R342). -/
namespace Sys2Proof.Machine

/-! Packets (R330, R331) -/

/-- Firmware takes packets: it accepts them, its core runs and no hand-over is in progress. -/
def fwTakes (d : Dev) : Bool :=
  d.sys.ready && domOn d (coreDom d) && !d.cpu.swapping && decide ((coreIn d).st ≠ .stopped)

/-- A packet's header and block (R330). -/
def packetOf (cring : Nat) (ws : List Word) : Packet :=
  let h := nth 0 ws 0
  ⟨cring, fld h 15 9, fld h 8 4, bit h 2, bit h 1, bit h 3, ws.drop 1⟩

/-! Blocks (R332, R333, R340, R341) -/

/-- Opcodes the device accepts. -/
def opKnown (op : Nat) : Bool :=
  decide (op ≤ 0x007) || [0x100, 0x200, 0x300, 0x301, 0x500, 0x501, 0x502, 0x601, 0x602, 0x700, 0x701, 0x710, 0x711,
    0x800, 0x801, 0x802, 0x803, 0x900, 0x901, 0x902, 0x903, 0x904].contains op || (isAccess op && op != 0x409)

/-- SUSPEND, RESUME, CANCEL, QUERY_OP and DATA take no tag. -/
def opTagless (op : Nat) : Bool := decide (3 ≤ op ∧ op ≤ 7)

/-- Long operations. -/
def opLong (op : Nat) : Bool :=
  (isAccess op && op != 0x409) || [0x200, 0x300, 0x500, 0x501, 0x700, 0x800, 0x801, 0x903].contains op

/-- Words that must be in the first packet. -/
def blockFixed (op : Nat) (b : List Word) : Nat :=
  if isAccess op then 3
  else match op with
  | 0x002 => 1 | 0x003 => 1 | 0x004 => 1 | 0x005 => 1 | 0x006 => 1 | 0x007 => 1
  | 0x200 => 4 | 0x300 => 2 | 0x301 => 2 | 0x500 => 2 | 0x501 => 1 | 0x601 => 1 | 0x602 => 1
  | 0x700 => if fld (nth 0 b 0) 26 24 = 5 then 9 else 6
  | 0x701 => 1
  | 0x710 => if fld (nth 0 b 0) 2 0 = 0 then 5 else if fld (nth 0 b 0) 2 0 = 3 then 2 else 1
  | 0x711 => 1 | 0x800 => 1 | 0x801 => 1 | 0x802 => 1 | 0x803 => 1 | 0x900 => 3
  | _ => 0

/-- Words an access block requires by its own fields, as far as they are known. -/
def accessNeed (op : Nat) (b : List Word) : Nat :=
  let c := accC b
  let words := fun (n : Nat) => min 480 (max 1 n)
  match op with
  | 0x400 => c + 2
  | 0x401 => c + 2 + (words (fld (nth 0 b (c + 1)) 8 0) + 1) / 2
  | 0x402 => c + 2 + (words (fld (nth 0 b (c + 1)) 8 0) + 1) / 2
  | 0x403 => c + 2
  | 0x404 => c + 1
  | 0x405 => c + 2
  | 0x406 => c + 2 + (if bit (nth 0 b c) 29 then (fld (nth 0 b (c + 1)) 7 0 + 1) / 2 else 0)
  | 0x407 => c + 1
  | _ => c + 1 + (min 432 (max 1 (fld (nth 0 b c) 11 0)) + 31) / 32

/-- Words a block requires (R333): what its variable words add to the fixed ones. -/
def blockNeed (op : Nat) (b : List Word) : Nat :=
  if isAccess op then accessNeed op b
  else match op with
  | 0x007 => max 1 b.length
  | 0x301 => 2 + selectWords b
  | 0x501 => 1 + (fld (nth 0 b 0) 12 0 + 3) / 4
  | 0x602 => 1 + 8 * fld (nth 0 b 0) 5 0
  | 0x701 => 1 + (fld (nth 0 b 0) 8 0 + 31) / 32
  | 0x904 => b.length
  | _ => blockFixed op b

/-- Slices SERVICE names: chain and slice. -/
def serviceSlice (w : Word) : Option (Bool × Nat) :=
  let o := fld w 15 8
  if 0x40 ≤ o ∧ o < 0x52 then some (false, o - 0x40) else if 0x60 ≤ o ∧ o < 0x72 then some (true, o - 0x60) else none

/-- A combination of object and action that R468 lists. -/
def serviceListed (w : Word) : Bool :=
  match fld w 3 0 with
  | 0 => blockFences (fld w 15 8)
  | 1 => blockFences (fld w 15 8)
  | 2 => (serviceSlice w).isSome
  | 3 => fld w 15 8 == 0
  | 4 => fld w 15 8 == 0
  | _ => false

/-- A field of a block is out of its range. -/
def paramBad (d : Dev) (op : Nat) (b : List Word) : Bool :=
  let w := nth 0 b 0
  let out := fun (v lo hi : Nat) => decide (v < lo ∨ hi < v)
  match op with
  | 0x002 => bit w 31 && out (fld w 6 0) 0 95
  | 0x200 => out (fld (nth 0 b 3) 15 0) 10 10000
  | 0x300 => fld w 15 0 == 0
  | 0x301 => out (fld w 6 4) 0 4
  | 0x501 => out (fld w 12 0) 1 4096
  | 0x601 => out (fld w 4 0) 1 31
  | 0x602 => out (fld w 5 0) 1 32
  | 0x700 => out (fld w 20 16) 4 31 || out (fld w 7 0) 0 128 || out (fld w 26 24) 0 5
  | 0x701 => out (fld w 8 0) 16 496
  | 0x710 => out (fld w 2 0) 0 4
  | 0x801 => out (fld w 7 0) 1 0x15 || fld w 7 0 == blkCore d
  | 0x802 => !serviceListed w
  | 0x803 => out (fld w 23 16) 1 50
  | _ => false

/-! Replies (R332, R335, R350) -/

/-- The one REPLY of a refused packet or of a tagless request: it takes no tag. -/
def replyOnce (ring tag op status cring : Nat) (res : List Word) (d : Dev) : Dev :=
  writeHeld tag (if ring < 4 then 4 else ring) 0x0001 (replyBody d status true tag op 0 (if status = 0 then .done else .failed) cring res) true d

/-- The operation a packet makes (R336). -/
def packetOp (op : Nat) (p : Packet) (d : Dev) : Op :=
  { tag := p.tag, opcode := op, rring := p.rring, cring := p.cring, prog := p.prog, after := p.after, long := opLong op
    st := if opLong op && p.hold then .suspended else if opLong op || decide (p.block.length < blockNeed op p.block) then .queued else .running
    pend := .none, hostMarked := opLong op && p.hold, timeSusp := false, progress := 0, lastProg := 0, lastProgCyc := d.tb.cyc - 1
    lastStatus := 0x02, order := d.opSeq, block := p.block, need := blockNeed op p.block, failAs := none, ended := false
    res := [], startCyc := none, saved := none, trig := false }

/-- The packet's tag comes into use (R334). -/
def addOp (o : Op) (d : Dev) : Dev := { d with ops := d.ops ++ [o], opSeq := d.opSeq + 1 }

/-- A short command ends with a status (R350). -/
def endCmd (tag status : Nat) (res : List Word) (d : Dev) : Dev :=
  endOp tag status (if status = 0 then .done else .failed) res d

/-! Tagless requests (R333, R338, R340) -/

/-- What SUSPEND, RESUME or CANCEL does to an operation in use: its status, and the effect that follows its REPLY. -/
def suspendReq (o : Op) (d : Dev) : Nat × (Dev → Dev) :=
  if o.ended then (0x1C, id)
  else if !o.long then (0x1B, id)
  else match o.st, o.pend with
  | .queued, _ => (0, fun d => enterSuspended o 0x04 (updOp o.tag (fun p => { p with hostMarked := true }) d))
  | .running, .none => (0, opAsk o .suspend)
  | .suspended, _ => (0, updOp o.tag fun p => { p with hostMarked := true })
  | _, _ => let _ := d; (0x1C, id)

def resumeReq (o : Op) (d : Dev) : Nat × (Dev → Dev) :=
  if o.ended then (0x1C, id)
  else if !o.long then (0x1B, id)
  else if o.timeSusp && decide (d.tb.st = .free) then (0x41, id)
  else match o.st, o.pend with
  | .running, .suspend =>
    (0, fun d => askThreads o.tag .none (updOp o.tag (fun p => { p with pend := .none, timeSusp := false }) d))
  | .suspended, _ => (0, resumeOp o)
  | _, _ => (0x1C, id)

def cancelReq (o : Op) (d : Dev) : Nat × (Dev → Dev) :=
  if o.ended then (0x1C, id)
  else if !o.long then
    (if o.block.length < o.need then (0, endOp o.tag 0x06 .failed []) else (0x1B, id))
  else match o.st, o.pend with
  | .queued, _ => (0, cancelNow o)
  | .suspended, _ => (0, cancelNow o)
  | .running, .cancel => (0, id)
  | .running, _ => (0, fun d => opAsk o .cancel (updOp o.tag (fun p => { p with timeSusp := false }) d))
  | _, _ => let _ := d; (0x1C, id)

/-- Further words of an operation's block (R333): status, and the effect after the REPLY; `go` runs a short command whose
block is whole. -/
def dataReq (o : Op) (ws : List Word) (go : Op → State → State) : Nat × (State → State) :=
  let b := o.block ++ ws
  let need := blockNeed o.opcode b
  if o.ended ∨ o.need ≤ o.block.length then (0x1C, id)
  else if need < b.length then (0x19, fun s => { s with dev := finishOp o 0x19 .failed [] s.dev })
  else
    let o' := { o with block := b, need := need, st := if !o.long && b.length == need then .running else o.st }
    (0, fun s =>
      let s := { s with dev := updOp o.tag (fun _ => o') s.dev }
      if b.length < need then s
      else if o.long then { s with dev := tryStart o.tag s.dev }
      else go o' s)

/-! Short commands -/

/-- GET_INFO. -/
def getInfoRes (d : Dev) : List Word :=
  [0x7416B100 ||| putB 0 Config.gradeE, d.sys.fwVer, Config.serial.extractLsb' 0 32, Config.serial.extractLsb' 32 32]

/-- TIME_READ, sampled at one tick. -/
def timeReadRes (d : Dev) : List Word :=
  [timeStatusWord d, timePhaseWord d, cycLo d.tb.cyc, put 7 0 (fld d.tb.cyc 39 32), nw (tbUnc d d.now), nw d.tb.period]

/-- SET_TURN (R163, R165, R368, R369). -/
def runSetTurn (o : Op) (d : Dev) : Dev :=
  let w := nth 0 o.block 0
  if d.seq.turn.isSome then endCmd o.tag 0x27 [] d
  else if bit w 31 ∧ tbValid d = false then endCmd o.tag 0x40 [] d
  else
    let slot := if bit w 31 then some (fld w 6 0) else none
    let t0 := if slot.isSome || d.sys.copyEnd.isSome then none else some (d.now + 1)
    { d with seq := { d.seq with turn := some ⟨o.tag, slot, t0, d.sys.copyEnd.isNone⟩ } }

/-- MBOX_READ (R289, R296). -/
def mboxReadRes (g : Tagm) (b n : Nat) : List Word := (List.range n).flatMap fun i => blockWords g (b + i)

/-- MBOX_WRITE (R290, R296): it runs on as time passes, one still in progress is brought to its end first. -/
def runMboxWrite (o : Op) (s : State) : State :=
  let w := nth 0 o.block 0
  let b := fld w 15 8
  let n := fld w 5 0
  if 240 < b + n then { s with dev := endCmd o.tag 0x51 [] s.dev }
  else
  let s := hostFinish s
  if s.tagm.lock.isSome then { s with dev := endCmd o.tag 0x52 [] (event Reg.TAGM_EVENT 5 s.dev) }
  else { s with tagm := { s.tagm with hostW := some ⟨o.tag, b, o.block.drop 1, s.dev.now, n, 0⟩ } }

/-- COMB_LOOKUP (R235, R340): the words that follow the index of an absent cell are open. -/
def lookupRes (b : List Word) (d : Dev) : Dev × List Word :=
  let epc := unpackBits (fld (nth 0 b 0) 8 0) (b.drop 1)
  match combFind d epc with
  | none => let (d, ws) := drawFrees 8 d; (d, 0x1FFFF :: ws)
  | some c => (d, put 16 0 c :: (List.range 8).map (dumpWord d (cellWords d c)))

/-- A keeping-store write that a command needs completes unless the store is fenced (R451). -/
def keepOk (d : Dev) : Bool := !fenced d 0x13

/-- DAMASK_KEY (R239): status, result words and effect. -/
def damaskKey (b : List Word) (d : Dev) : Dev × Nat × List Word :=
  let w := nth 0 b 0
  let gen := d.dmk.gen + 1
  let linkEn := fun (d : Dev) => setReg Reg.COMB_DMK_CFG (reg d Reg.COMB_DMK_CFG ||| 4) d
  let mode := fld w 2 0
  if mode = 3 then
    (match d.dmk.key with
     | none => (d, 0x28, [])
     | some k =>
       if d.dmk.nx then (d, 0x28, [])
       else
         let e := epochKey k (nth 0 b 1)
         (d, 0, [e.extractLsb' 96 32, e.extractLsb' 64 32, e.extractLsb' 32 32, e.extractLsb' 0 32]))
  else if keepOk d = false then (d, 0x50, [])
  else match mode with
  | 0 =>
    let k : BitVec 128 := nth 0 b 1 ++ nth 0 b 2 ++ nth 0 b 3 ++ nth 0 b 4
    (keepWrite 515 (linkEn { d with dmk := { d.dmk with key := some k, nx := bit w 8, origin := false, gen := gen } }), 0, [])
  | 1 =>
    let (h, d) := drawEntropy d
    let (l, d) := drawEntropy d
    (keepWrite 515 (linkEn { d with dmk := { d.dmk with key := some (h ++ l), nx := true, origin := true, gen := gen } }), 0, [])
  | 2 => (keepWrite 515 { d with dmk := { d.dmk with nx := true } }, 0, [])
  | _ => (keepWrite 515 (clearBit Reg.COMB_DMK_CFG 0 { d with dmk := { d.dmk with key := none, nx := false, gen := gen } }), 0, [])

/-- SERVICE (R468): status and effect. -/
def serviceAct (w : Word) (d : Dev) : Dev × Nat :=
  match fld w 3 0 with
  | 0 => fenceRequest (fld w 15 8) false d
  | 1 => fenceRequest (fld w 15 8) true d
  | 2 => (match serviceSlice w with
    | none => (d, 0x17)
    | some (ch, s) => if retireWrong d ch s then (d, 0x1C) else (retireSlice ch s d, 0))
  | 3 => if leaveSafeOk d then (leaveSafe d, 0) else (d, 0x1C)
  | _ => (hostSafe d, 0)

/-- LEDGER_READ (R464): held entries from a number up, by the order they were written in. -/
def ledgerRes (d : Dev) (first n : Nat) : List Word :=
  let l := heldEntries d
  let age := fun (e : Nat) => (d.svc.next.toNat + 65536 - e) % 65536   -- 1 for the newest
  let a := age first
  if a = 0 ∨ 32768 ≤ a then []
  else ((l.filter fun ws => decide (age (entryNum ws) ≤ a)).take n).flatten

/-- IMAGE_COMMIT (R403). -/
def imageCommit (b : List Word) (d : Dev) : Dev × Nat :=
  let target := if bit (nth 0 b 0) 0 then 1 else 0
  if imgTarget d = target ∧ imgCheck d.cpu.img (nth 0 b 1).toNat (nth 0 b 2) = true then (imgCommit d, 0) else (d, 0x53)

/-- APPLET_START (R396). -/
def runAppletStart (o : Op) (d : Dev) : Dev :=
  if d.cpu.apl.ok = false then endCmd o.tag 0x2C [] d
  else endCmd o.tag 0 [] (if d.cpu.apl.run then d else appletStart false d)

/-- APPLET_STOP (R396). -/
def runAppletStop (o : Op) (d : Dev) : Dev :=
  endCmd o.tag 0 [] (if d.cpu.apl.run then appletHalt 0 (coreIn d).pc d else d)

/-- APPLET_CMD (R398): it waits for the applet. -/
def runAppletCmd (o : Op) (d : Dev) : Dev :=
  if d.cpu.apl.run then appletWake { d with cpu := { d.cpu with apl := { d.cpu.apl with cmds := d.cpu.apl.cmds ++ [o.tag] } } }
  else endCmd o.tag 0x2C [] d

/-- A short command runs (R336): its effect, then its one final REPLY, unless it ends later. -/
def shortRun (o : Op) (s : State) : State :=
  let d := s.dev
  let w := nth 0 o.block 0
  let dev := fun (d : Dev) => ({ s with dev := d } : State)
  match o.opcode with
  | 0x001 => dev (endCmd o.tag 0 (getInfoRes d) d)
  | 0x002 => dev (runSetTurn o d)
  | 0x100 => dev (endCmd o.tag 0 (timeReadRes d) d)
  | 0x301 => dev (if d.gen2.rstate = 2 ∨ d.gen2.rstate = 3 then d else selectRun o d)
  | 0x502 => dev (endCmd o.tag 0 [] (acDeselect d))
  | 0x601 => dev (if 256 < fld w 15 8 + fld w 4 0 then endCmd o.tag 0x51 [] d
      else endCmd o.tag 0 (mboxReadRes s.tagm (fld w 15 8) (fld w 4 0)) d)
  | 0x602 => runMboxWrite o s
  | 0x701 => if fenced d 0x05 then dev (endCmd o.tag 0x62 [] d)
    else
      let (d, res) := lookupRes o.block d
      dev (endCmd o.tag 0 res d)
  | 0x710 =>
    let (d, st, res) := damaskKey o.block d
    dev (endCmd o.tag st res d)
  | 0x711 => dev (endCmd o.tag 0 [] (setEpoch w d))
  | 0x802 =>
    let (d, st) := serviceAct w d
    dev (endCmd o.tag st [] d)
  | 0x803 => dev (endCmd o.tag 0 (ledgerRes d (fld w 15 0) (fld w 23 16)) d)
  | 0x900 =>
    let (d, st) := imageCommit o.block d
    dev (endCmd o.tag st [] d)
  | 0x901 => dev (runAppletStart o d)
  | 0x902 => dev (runAppletStop o d)
  | 0x904 => dev (runAppletCmd o d)
  | _ => dev (endCmd o.tag 0 [] d)

/-! Service (R332) -/

/-- A tagless request: its own REPLY first, then its effect. -/
def taglessRun (op : Nat) (p : Packet) (s : State) : State :=
  let target := fld (nth 0 p.block 0) 6 0
  let say := fun (st : Nat) (res : List Word) (s : State) =>
    ({ s with dev := replyOnce p.rring p.tag op st p.cring res s.dev } : State)
  let dev := fun (f : Dev → Dev) (s : State) => ({ s with dev := f s.dev } : State)
  match findOp s.dev target with
  | none => say 0x1A [] s
  | some o =>
    match op with
    | 0x003 => let (st, f) := suspendReq o s.dev; dev f (say st [] s)
    | 0x004 => let (st, f) := resumeReq o s.dev; dev f (say st [] s)
    | 0x005 => let (st, f) := cancelReq o s.dev; dev f (say st [] s)
    | 0x006 => say 0 [put 31 24 o.lastStatus ||| put 23 21 o.st.code ||| put 15 0 (if o.opcode = 0x409 then 0x904 else o.opcode), o.progress] s
    | _ => let (st, f) := dataReq o (p.block.drop 1) shortRun; f (say st [] s)

/-- A long operation is accepted (R336): its ACCEPTED REPLY carries the state it enters, then it starts if it may. -/
def acceptLong (o : Op) (d : Dev) : Dev :=
  let d := addOp o d
  let runs := decide (o.st = .queued) && mayStart d o && !untriggered o && (opDomains d o).all (domOn d)
  tryStart o.tag (replyOp o 0x02 false (if runs then .running else o.st) [] d)

/-- Conditions of its own that a long operation fails (R332): those of its thread and blocks, of LINK (R241), of a swap
(R405). -/
def longRefusal (d : Dev) (o : Op) : Option Nat :=
  if o.opcode = 0x700 ∧ fld (nth 0 o.block 0) 26 24 = 5 ∧ dmkLinkEn d = false then some 0x28
  else if o.opcode = 0x903 ∧ fenced d (if d.cpu.onS then 3 else 4) = true then some 0x62
  else if o.opcode = 0x903 ∧ d.cpu.spareOk = false then some 0x53
  else ownRefusal d o

/-- Firmware serves a packet: the checks of R332 in order, then its command. -/
def servePacket (op : Nat) (p : Packet) (s : State) : State :=
  let d := s.dev
  let no := fun (ring st : Nat) => ({ s with dev := replyOnce ring p.tag op st p.cring [] d } : State)
  if opKnown op = false then no p.rring 0x16
  else if opTagless op = false ∧ (findOp d p.tag).isSome = true then no p.rring 0x15
  else if p.rring < 4 ∨ (ring d p.rring).en = false then no 4 0x1D
  else if p.block.length < blockFixed op p.block ∨ blockNeed op p.block < p.block.length ∨ 1280 < p.block.length then
    no p.rring 0x19
  else if paramBad d op p.block then no p.rring 0x17
  else if opTagless op then taglessRun op p s
  else
    let o := packetOp op p d
    if o.long then
      (match longRefusal d o with
       | some st => no p.rring st
       | none => { s with dev := acceptLong o d })
    else
      let s := { s with dev := addOp o d }
      if o.need ≤ o.block.length then shortRun o s else s

/-- A packet's fields within their widths. -/
def normPacket (p : Packet) : Packet :=
  { p with cring := p.cring % 4, tag := p.tag % 128, rring := p.rring % 32 }

/-- A command of the given opcode at a tick, while firmware takes packets. -/
def command (t op : Nat) (p : Packet) (s : State) : State :=
  let s := hostRun { s with dev := tick t s.dev }
  if fwTakes s.dev then servePacket op (normPacket p) s else s

/-- The first word of a block with a field fixed: the rows that name one action of an opcode. -/
def fixW0 (hi lo v : Nat) (p : Packet) : Packet :=
  { p with block := match p.block with | [] => [] | w :: ws => setFld w hi lo v :: ws }

/-- PACKET_TAKE: the oldest packet of the lowest command ring that holds one (R331, R344). -/
def packetTake (s : State) : State :=
  let d := s.dev
  match (List.range 4).find? fun n => (ring d n).en && !(ring d n).recs.isEmpty with
  | none => s
  | some n =>
    let r := ring d n
    match r.recs with
    | [] => s
    | ws :: rest =>
      let d := setRing n { r with recs := rest, rpos := (r.rpos + ws.length) % max 1 r.cap } d
      servePacket (fld (nth 0 ws 0) 31 16) (packetOf n ws) { s with dev := d }

end Sys2Proof.Machine
end

