-- ==== Sys2Proof/Machine/Operands.lean ====
section
/-! DEFINITION. Adeara instructions as every one of them uses them: fetch ranges, traps, the memory map, operand forms and
branches (R376-R386, R399). -/
namespace Sys2Proof.Machine

/-! Traps (R384-R386, R453) -/

/-- A synchronous trap: the entry; while NEST is 1 the core stops on DOUBLE_TRAP; in user mode causes 1 to 10 but SPILL and
FILL stop the applet; ECC in supervisor mode is CORE_ECC. -/
def coreTrap (cause : Nat) (tval ret : Word) (d : Dev) : Dev :=
  let c := coreIn d
  let d := setCore (c.trap cause tval ret) d
  if c.nest then raiseFault 0x31 (blkCore d) 0 d
  else if !c.sup && decide (cause ≤ 10 ∧ cause ≠ causeSpill ∧ cause ≠ causeFill) then appletTrapStop cause c.pc d
  else if c.sup && decide (cause = causeEcc) then raiseFault 0x33 (blkCore d) 0 d
  else d

/-- A trap of the instruction at the pc whose TVAL the manual does not give. -/
def trapHere (cause : Nat) (d : Dev) : Dev :=
  let (w, d) := drawFree d
  coreTrap cause w (coreIn d).pc d

/-- A trap of the instruction at the pc on an address. -/
def trapAt (cause : Nat) (a : Word) (d : Dev) : Dev := coreTrap cause a (coreIn d).pc d

/-! Fetch (R376) -/

/-- The mode of a core may execute the bytes from `a` on. -/
def fetchOk (c : Core) (len : Nat) : Bool :=
  let a := c.pc.toNat
  let inside := fun (lo hi : Nat) => decide (lo ≤ a ∧ a + len ≤ hi)
  decide (a % 2 = 0) && (inside 0x30000 0x40000 || (c.sup && (inside 0 0x40000 || inside 0x0FFFC000 0x10000000)))

/-- One instruction of `len` bytes on the core in service: nothing while the core does not run, and a fetch outside its
ranges traps. -/
def instr (len : Nat) (f : State → State) (s : State) : Out :=
  .next (if coreRuns s.dev then
      (if fetchOk (coreIn s.dev) len then f s
       else { s with dev := trapAt causeIfetch (coreIn s.dev).pc s.dev })
    else s)

/-- Bytes of the 16-bit and of the 32-bit form. -/
def instrLen (c : Bool) : Nat := if c then 2 else 4

/-- The pc moves on by an instruction's length. -/
def advance (len : Nat) (d : Dev) : Dev := setCore { coreIn d with pc := (coreIn d).pc + nw len } d

/-- `rd` takes a value and the pc moves on. -/
def writeRd (len : Nat) (rd : BitVec 5) (v : Word) (d : Dev) : Dev := advance len (setCore ((coreIn d).put rd v) d)

/-- An instruction that computes `rd` from the core's registers. -/
def aluInstr (c : Bool) (rd : BitVec 5) (v : Core → Word) (s : State) : Out :=
  instr (instrLen c) (fun s => { s with dev := writeRd (instrLen c) rd (v (coreIn s.dev)) s.dev }) s

/-- A 14-bit immediate, sign-extended. -/
def imm14 (i : BitVec 14) : Word := i.signExtend 32

/-! Memory (R376, R399) -/

/-- Where a data address leads. -/
inductive MemPlace where
  | isram (i : Nat)
  | rom (i : Nat)
  | dsram (i : Nat)
  | register (shadow : Bool) (a : Nat)
  deriving DecidableEq, Repr

/-- The place of an address that a mode may load from or store to; none raises DACCESS. -/
def memPlace (sup write : Bool) (a : Nat) : Option MemPlace :=
  if a < 0x30000 then (if sup && !write then some (.isram (a / 4)) else none)
  else if a < 0x40000 then (if sup || !write then some (.isram (a / 4)) else none)
  else if 0x0FFFC000 ≤ a ∧ a < 0x10000000 then (if sup && !write then some (.rom (a / 4)) else none)
  else if 0x10000000 ≤ a ∧ a < 0x1003C000 then (if sup then some (.dsram ((a - 0x10000000) / 4)) else none)
  else if 0x1003C000 ≤ a ∧ a < 0x10040000 then some (.dsram ((a - 0x10000000) / 4))
  else if 0x20000000 ≤ a ∧ a < 0x20002000 then some (.register false ((a - 0x20000000) / 4))
  else if 0x20020000 ≤ a ∧ a < 0x20022000 then some (.register true ((a - 0x20020000) / 4))
  else none

/-- The reader a mode is in the register space. -/
def modeReader (sup : Bool) : Reader := if sup then .fw else .applet

/-- Reads the word of a place. -/
def placeRead (sup : Bool) (p : MemPlace) (s : State) : State × Word :=
  match p with
  | .isram i => (s, memW (coreIn s.dev).isram i)
  | .rom i => (s, Config.romWord i)
  | .dsram i => (s, memW s.dev.cpu.dsram i)
  | .register sh a => readReg (modeReader sup) sh a s

/-- Writes the word of a place. -/
def placeWrite (sup : Bool) (p : MemPlace) (v : Word) (s : State) : State :=
  match p with
  | .isram i => { s with dev := setCore { coreIn s.dev with isram := memSet (coreIn s.dev).isram i v } s.dev }
  | .rom _ => s
  | .dsram i => { s with dev := { s.dev with cpu := { s.dev.cpu with dsram := memSet s.dev.cpu.dsram i v } } }
  | .register sh a => (writeReg (modeReader sup) sh a v s).1

/-- Lowest bit of a datum of `size` bytes at an address of its word: data are big-endian (R376). -/
def laneLo (size a : Nat) : Nat := 8 * (4 - size - a % 4)

/-- The datum of `size` bytes at an address, from its word. -/
def laneGet (size a : Nat) (w : Word) : Nat := w.toNat / 2 ^ laneLo size a % 2 ^ (8 * size)

/-- The word with the datum replaced. -/
def lanePut (size a : Nat) (w v : Word) : Word := setFld w (laneLo size a + 8 * size - 1) (laneLo size a) v.toNat

/-- A loaded datum extended to a word. -/
def extend (size : Nat) (signed : Bool) (v : Nat) : Word := if signed then ofInt (toSigned (8 * size) v) else nw v

/-- The cause and address for which a load or store traps before it acts; `ecc` marks an uncorrectable error (R385). -/
def accessTrap (sup write : Bool) (size : Nat) (a : Word) (ecc : Bool) : Option Nat :=
  if a.toNat % size ≠ 0 then some causeAlign
  else match memPlace sup write a.toNat with
  | none => some causeDaccess
  | some p =>
    if ecc then (match p with | .isram _ => some causeEcc | .dsram _ => some causeEcc | _ => none) else none

/-- A load that no trap stands in the way of. -/
def loadDatum (sup signed : Bool) (size : Nat) (a : Word) (s : State) : State × Word :=
  match memPlace sup false a.toNat with
  | none => (s, 0)
  | some p =>
    let (s, w) := placeRead sup p s
    (s, extend size signed (laneGet size a.toNat w))

/-- A store that no trap stands in the way of: a part of a register leaves the rest of the word it writes open. -/
def storeDatum (sup : Bool) (size : Nat) (a v : Word) (s : State) : State :=
  match memPlace sup true a.toNat with
  | none => s
  | some p =>
    if size = 4 then placeWrite sup p v s
    else match p with
    | .register _ _ =>
      let (w, d) := drawFree s.dev
      placeWrite sup p (lanePut size a.toNat w v) { s with dev := d }
    | _ => placeWrite sup p (lanePut size a.toNat (placeRead sup p s).2 v) s

/-- A load instruction. -/
def loadInstr (c : Bool) (size : Nat) (signed : Bool) (rd ra : BitVec 5) (imm : BitVec 14) (ecc : Bool) (s : State) : Out :=
  instr (instrLen c) (fun s =>
    let k := coreIn s.dev
    let a := k.get ra + imm14 imm
    match accessTrap k.sup false size a ecc with
    | some cause => { s with dev := trapAt cause a s.dev }
    | none =>
      let (s, v) := loadDatum k.sup signed size a s
      { s with dev := writeRd (instrLen c) rd v s.dev }) s

/-- A store instruction; the pc moves on before the store acts. -/
def storeInstr (c : Bool) (size : Nat) (rd ra : BitVec 5) (imm : BitVec 14) (s : State) : Out :=
  instr (instrLen c) (fun s =>
    let k := coreIn s.dev
    let a := k.get ra + imm14 imm
    match accessTrap k.sup true size a false with
    | some cause => { s with dev := trapAt cause a s.dev }
    | none => storeDatum k.sup size a (k.get rd) { s with dev := advance (instrLen c) s.dev }) s

/-! Branches and jumps (R377) -/

/-- The target of an offset in halfwords. -/
def target (pc : Word) (len : Nat) (off : Word) : Word := (if Config.branchFromNext then pc + nw len else pc) + off + off

/-- The pc goes to an address. -/
def jumpTo (a : Word) (d : Dev) : Dev := setCore { coreIn d with pc := a } d

/-- A conditional branch. -/
def branchInstr (c : Bool) (off : BitVec 14) (taken : Core → Bool) (s : State) : Out :=
  instr (instrLen c) (fun s =>
    let k := coreIn s.dev
    if taken k then { s with dev := jumpTo (target k.pc (instrLen c) (imm14 off)) s.dev }
    else { s with dev := advance (instrLen c) s.dev }) s

/-- A call to an address (R381, R382). -/
def callTo (dest : Core → Word) (s : State) : Out :=
  instr 4 (fun s =>
    let k := coreIn s.dev
    if 15 ≤ k.depth then { s with dev := trapHere causeSpill s.dev }
    else { s with dev := setCore { k.enterWindow (k.pc + 4) with pc := dest k } s.dev }) s

/-! Arithmetic (R377, R379) -/

def sltu (a b : Word) : Word := if a.toNat < b.toNat then 1 else 0
def slt (a b : Word) : Word := if a.toInt < b.toInt then 1 else 0
def shiftBy (op : Nat) (a b : Word) : Word :=
  if 32 ≤ b.toNat then Config.aluOpen op a b
  else match op with
  | 0 => a <<< b.toNat
  | 1 => a >>> b.toNat
  | _ => a.sshiftRight b.toNat
def minS (a b : Word) : Word := if b.toInt < a.toInt then b else a
def maxS (a b : Word) : Word := if a.toInt < b.toInt then b else a
def minU (a b : Word) : Word := if b.toNat < a.toNat then b else a
def maxU (a b : Word) : Word := if a.toNat < b.toNat then b else a
def mulhu (a b : Word) : Word := nw (a.toNat * b.toNat / 2 ^ 32)
def mulh (a b : Word) : Word := ofInt (a.toInt * b.toInt / 2 ^ 32)
/-- Signed quotient and remainder, truncated toward zero; by zero as R379 says; the most negative number by -1 is open. -/
def divS (a b : Word) : Word :=
  if b = 0 then 0xFFFFFFFF else if a = 0x80000000 ∧ b = 0xFFFFFFFF then Config.aluOpen 3 a b else ofInt (a.toInt.tdiv b.toInt)
def remS (a b : Word) : Word :=
  if b = 0 then a else if a = 0x80000000 ∧ b = 0xFFFFFFFF then Config.aluOpen 4 a b else ofInt (a.toInt.tmod b.toInt)
def divU (a b : Word) : Word := if b = 0 then 0xFFFFFFFF else nw (a.toNat / b.toNat)
def remU (a b : Word) : Word := if b = 0 then a else nw (a.toNat % b.toNat)
/-- Leading zeros, 32 for 0, and set bits. -/
def clz (a : Word) : Word := nw (((bitsOf 32 a.toNat).takeWhile (! ·)).length)
def popc (a : Word) : Word := nw (((bitsOf 32 a.toNat).filter id).length)

/-! Core state registers (R383) -/

/-- Core cycles at 400 MHz. -/
def cycles (d : Dev) : Word := nw (d.now * 5 / 2)

/-- A core state register; none for an unassigned number. -/
def csrRead (d : Dev) (n : Nat) : Option Word :=
  let c := coreIn d
  match n with
  | 0 => some c.stateWord
  | 1 => some (put 11 8 c.depth ||| put 3 0 c.win)
  | 2 => some c.tra
  | 3 => some c.tstate
  | 4 => some c.tcause
  | 5 => some c.tval
  | 6 => some c.tentry
  | 7 => some (cycles d - c.cycBase)
  | 8 => some c.wsp
  | 9 => some c.wlim
  | 10 => some c.wtop
  | _ => none

/-- A core state register written; none for an unassigned number. -/
def csrWrite (d : Dev) (n : Nat) (v : Word) : Option Core :=
  let c := coreIn d
  match n with
  | 0 => some (c.setStateWord v)
  | 1 => some { c with depth := fld v 11 8, win := fld v 3 0 }
  | 2 => some { c with tra := v }
  | 3 => some { c with tstate := v }
  | 4 => some { c with tcause := v }
  | 5 => some { c with tval := v }
  | 6 => some { c with tentry := v &&& 0xFFFFFFFC }
  | 7 => some { c with cycBase := cycles d - v }
  | 8 => some { c with wsp := v &&& 0xFFFFFFC0 }
  | 9 => some { c with wlim := v &&& 0xFFFFFFC0 }
  | 10 => some { c with wtop := v &&& 0xFFFFFFC0 }
  | _ => none

/-- An instruction that only supervisor mode may execute (R383). -/
def supInstr (f : State → State) (s : State) : Out :=
  instr 4 (fun s => if (coreIn s.dev).sup then f s else { s with dev := trapHere causePriv s.dev }) s

end Sys2Proof.Machine
end

