-- ==== Sys2Proof/Machine/CoprocOps.lean ====
section
/-! DEFINITION. The coprocessor functions of CP0 to CP3 (R387), as CP instructions and customer instructions call them. -/
namespace Sys2Proof.Machine

/-- What a function answers: the value of rd, or a trap. -/
inductive CpRes where
  | ok (s : State) (v : Word)
  | trap (s : State) (cause : Nat)

/-- A function with no stated result: what rd takes is open. -/
def cpDone (f : Dev → Dev) (s : State) : CpRes :=
  let (w, d) := drawFree (f s.dev)
  .ok { s with dev := d } w

/-! Memory operands -/

/-- Words from an aligned address, with the rights of a mode; none outside R376. -/
def readWords (sup : Bool) : Nat → Nat → State → Option (State × List Word)
  | _, 0, s => some (s, [])
  | a, n + 1, s =>
    if a % 4 ≠ 0 ∨ 2 ^ 32 ≤ a then none
    else match memPlace sup false a with
    | none => none
    | some p =>
      let (s, w) := placeRead sup p s
      match readWords sup (a + 4) n s with
      | none => none
      | some (s, ws) => some (s, w :: ws)

/-- All of `n` words from an address may be written. -/
def canWrite (sup : Bool) (a n : Nat) : Bool :=
  decide (a % 4 = 0 ∧ a + 4 * n ≤ 2 ^ 32) && (List.range n).all fun i => (memPlace sup true (a + 4 * i)).isSome

/-- Writes words from an address; canWrite holds. -/
def writeWords (sup : Bool) : Nat → List Word → State → State
  | _, [], s => s
  | a, w :: ws, s =>
    match memPlace sup true a with
    | none => s
    | some p => writeWords sup (a + 4) ws (placeWrite sup p w s)

/-- Bytes from any address of memory. -/
def readBytes (sup : Bool) (a n : Nat) (s : State) : Option (State × List Byte) :=
  match readWords sup (a / 4 * 4) ((a % 4 + n + 3) / 4) s with
  | none => none
  | some (s, ws) => some (s, ((ws.flatMap bytesOf).drop (a % 4)).take n)

/-- An EPC descriptor: bit length in [8:0], then the EPC from bit 31 of the next word; at most 496 bits. -/
def readEpc (sup : Bool) (a : Nat) (s : State) : Option (State × List Bool) :=
  match readWords sup a 1 s with
  | none => none
  | some (s, ws) =>
    let n := fld (nth 0 ws 0) 8 0
    if n = 0 ∨ 496 < n then none
    else match readWords sup (a + 4) ((n + 31) / 32) s with
    | none => none
    | some (s, ws) => some (s, unpackBits n ws)

/-! CP0, the sequencer -/

/-- Threads of a mask, in order. -/
def maskThreads (w : Word) : List Nat := (List.range 4).filter fun n => bit w n

/-- Removes the oldest slot-log entry, and the buffer noted for it when thread U made it. -/
def logPop (d : Dev) : Dev × Option (List Word) :=
  match d.seq.log with
  | [] => (d, none)
  | e :: rest =>
    ({ d with seq := { d.seq with log := rest }
              gen2 := if fld (nth 0 e 0) 31 30 = 0 then { d.gen2 with sent := d.gen2.sent.tail } else d.gen2 }, some e)

/-- A write through CP0: it comes after the actions of the threads in its tick (R157). -/
def cpWrite (f : Dev → Dev) (s : State) : CpRes := cpDone (fun d => f (stageMark 5 d)) s

/-- The functions of CP0 while SEQ is ON (R144, R157, R160, R166). -/
def cp0Fn (sup : Bool) (func : Nat) (rdv ra rb : Word) (s : State) : CpRes :=
  match func with
  | 0 => cpWrite (fun d => (maskThreads ra).foldl (fun d n =>
      thrStart n (if rb = 0xFFFFFFFF then fld (cfg d (Reg.SEQ_THR_0_ENTRY + 4 * n)) 11 0 else fld rb 11 0) d) d) s
  | 1 => cpWrite (fun d => opsSettle ((maskThreads ra).foldl (fun d n => thrHalt n d) d)) s
  | 2 => cpWrite (fun d =>
      let c := activeSet d
      setActive { c with tab := CMap.set tabDefault c.tab (fld ra 11 0) (rb ++ rdv) } d) s
  | 3 => cpWrite (fun d =>
      { d with seq := { d.seq with sw := (d.seq.sw &&& ~~~ rb.extractLsb' 0 8) ||| ra.extractLsb' 0 8 } }) s
  | 4 =>
    if 2 < rb.toNat then .trap s causeCpfault
    else
      let req : PendReq := if rb = 0 then .none else if rb = 1 then .suspend else .cancel
      cpWrite (fun d => (maskThreads ra).foldl (fun d n =>
        if thrRuns (thr d n) then updThr n (fun t => { t with abort := req, abortAt := d.now }) d else d) d) s
  | 5 => cpWrite (fun d => (maskThreads ra).foldl (fun d n => thrResume n d) d) s
  | 6 => .ok s (condWord s.dev (fld ra 2 1) (bit ra 0))
  | 7 =>
    if canWrite sup ra.toNat 4 = false then .trap s causeCpfault
    else match logPop s.dev with
    | (_, none) => .ok s 0
    | (d, some e) => .ok (writeWords sup ra.toNat e { s with dev := d }) 1
  | _ =>
    match s.dev.seq.bells with
    | [] => .ok s 0xFFFFFFFF
    | (_, code) :: rest => .ok { s with dev := { s.dev with seq := { s.dev.seq with bells := rest } } } (nw code)

/-! CP1, the Comb -/

/-- A read descriptor: PC in [31:16] and EPC length in [8:0]; the EPC; then slot in [31:24], aerial in [19:16], RSSI in
[15:8] and phase in [7:0]. -/
structure ReadDesc where
  pc : Word
  epc : List Bool
  slot : Nat
  aer : Nat
  rssi : Nat
  phase : Nat
  deriving DecidableEq, Repr

def readDesc (sup : Bool) (a : Nat) (s : State) : Option (State × ReadDesc) :=
  match readWords sup a 1 s, readEpc sup a s with
  | some (_, ws), some (s, epc) =>
    match readWords sup (a + 4 + 4 * ((epc.length + 31) / 32)) 1 s with
    | none => none
    | some (s, ls) =>
      let l := nth 0 ls 0
      some (s, ⟨nw (fld (nth 0 ws 0) 31 16), epc, fld l 30 24, fld l 19 16, fld l 15 8, fld l 7 0⟩)
  | _, _ => none

/-- PLACE (R227, R229): the tag's cell and its presence; the records of its events are firmware's. -/
def cpPlace (r : ReadDesc) (d : Dev) : Dev × Word :=
  if fenced d 0x05 ∨ !domOn d 5 then (d, 0x1FFFF)
  else match combCell r.epc r.pc d with
  | (d, none) => (event Reg.COMB_EVENT 1 (count Reg.COMB_NOCELL 31 0 1 d), 0x1FFFF)
  | (d, some c) =>
    let d := { d with comb := { d.comb with places := d.comb.places + 1 } }
    let (d, p) := presence c r.pc r.aer r.rssi r.phase d
    (d, put 16 0 c ||| putB 20 p.arrive ||| putB 21 p.move ||| putB 22 p.dwell)

/-- SWEEP (R230, R235): the next bucket of the COMB_SWEEP that runs, else of the background sweep. -/
def cpSweep (d : Dev) : Dev × Word :=
  match d.comb.sweep with
  | some w => (sweepStep d, nw w.bucket)
  | none =>
    let b := d.comb.pos / 8
    let d := (bucketCells d b).foldl (fun d c => combVisit c d) d
    ({ d with comb := { d.comb with pos := 8 * (b + 1) % 131072 } }, nw b)

def cp1Fn (sup : Bool) (func : Nat) (ra rb : Word) (s : State) : CpRes :=
  match func with
  | 0 =>
    (match readDesc sup ra.toNat s with
     | none => .trap s causeCpfault
     | some (s, r) =>
       let (d, v) := cpPlace r s.dev
       .ok { s with dev := d } v)
  | 1 =>
    (match readEpc sup ra.toNat s with
     | none => .trap s causeCpfault
     | some (s, epc) => .ok s (nw ((combFind s.dev epc).getD 0x1FFFF)))
  | 2 =>
    if 131072 ≤ rb.toNat ∨ canWrite sup ra.toNat 8 = false then .trap s causeCpfault
    else
      let ws := cellWords s.dev rb.toNat
      cpDone id (writeWords sup ra.toNat ((List.range 8).map (dumpWord s.dev ws)) s)
  | 3 =>
    let (d, v) := cpSweep s.dev
    .ok { s with dev := d } v
  | _ => if 131072 ≤ ra.toNat then .trap s causeCpfault else cpDone (cellFree ra.toNat) s

/-! CP2, check codes -/

/-- The context of a mode, and its replacement. -/
def crcCtx (sup : Bool) (d : Dev) : CrcCtx := if sup then d.cpu.cp2S else d.cpu.cp2U
def setCrcCtx (sup : Bool) (c : CrcCtx) (d : Dev) : Dev :=
  if sup then { d with cpu := { d.cpu with cp2S := c } } else { d with cpu := { d.cpu with cp2U := c } }

/-- Bytes through a context's register: CRC-5 and CRC-16 most significant bit first, CRC-32C as R304 has it. -/
def crcFeed (c : CrcCtx) (bs : List Byte) : CrcCtx :=
  let bits := bs.flatMap fun b => bitsOf 8 b.toNat
  match c.kind with
  | 0 => { c with crc := nw (bits.foldl (crcBit 5 0x09) c.crc.toNat) }
  | 1 => { c with crc := nw (crc16 c.crc.toNat bits) }
  | _ => { c with crc := nw (bs.foldl crcByte32 c.crc.toNat) }

/-- The result of a context, inverted when its init asked for it. -/
def crcResult (c : CrcCtx) : Word :=
  let m : Word := match c.kind with | 0 => 0x1F | 1 => 0xFFFF | _ => 0xFFFFFFFF
  if c.inv then c.crc ^^^ m else c.crc

def cp2Fn (sup : Bool) (func : Nat) (ra rb : Word) (s : State) : CpRes :=
  match func with
  | 0 =>
    let k := fld ra 1 0
    if k = 3 ∨ (k = 1 ∧ fld ra 3 2 = 3) then .trap s causeCpfault
    else
      let preset : Word := match k with
        | 0 => 0x09
        | 1 => (match fld ra 3 2 with | 0 => 0xFFFF | 1 => 0x6363 | _ => 0)
        | _ => 0xFFFFFFFF
      cpDone (setCrcCtx sup ⟨k, bit ra 4, preset⟩) s
  | 1 =>
    if rb.toNat = 0 ∨ 4096 < rb.toNat then .trap s causeCpfault
    else match readBytes sup ra.toNat rb.toNat s with
    | none => .trap s causeCpfault
    | some (s, bs) => cpDone (fun d => setCrcCtx sup (crcFeed (crcCtx sup d) bs) d) s
  | _ => .ok s (crcResult (crcCtx sup s.dev))

/-! CP3, the hasher -/

/-- The two words of a 64-bit value. -/
def words64 (v : BitVec 64) : List Word := [v.extractLsb' 32 32, v.extractLsb' 0 32]

def cp3Fn (sup : Bool) (func : Nat) (ra rb : Word) (s : State) : CpRes :=
  match func with
  | 0 =>
    if canWrite sup rb.toNat 2 = false then .trap s causeCpfault
    else match readEpc sup ra.toNat s with
    | none => .trap s causeCpfault
    | some (s, epc) =>
      if s.dev.dmk.key.isNone then
        let (d, ws) := drawFrees 2 s.dev
        cpDone id (writeWords sup rb.toNat ws { s with dev := d })
      else cpDone id (writeWords sup rb.toNat (words64 (pseudonym s.dev s.dev.dmk.epoch epc)) s)
  | 1 =>
    (match s.dev.dmk.key with
     | none =>
       let (d, ws) := drawFrees 4 s.dev
       cpDone (fun d => { d with dmk := { d.dmk with epKey := nth 0 ws 0 ++ nth 0 ws 1 ++ nth 0 ws 2 ++ nth 0 ws 3 } }) { s with dev := d }
     | some k => cpDone (fun d => { d with dmk := { d.dmk with epKey := epochKey k ra } }) s)
  | _ =>
    match readWords sup ra.toNat 1 s, readBytes sup rb.toNat 16 s with
    | some (_, ws), some (_, key) =>
      let n := (nth 0 ws 0).toNat
      if 0x40000 < n ∨ rb.toNat % 4 ≠ 0 ∨ canWrite sup (rb.toNat + 16) 2 = false then .trap s causeCpfault
      else (match readBytes sup (ra.toNat + 4) n s with
        | none => .trap s causeCpfault
        | some (s, msg) =>
          let h := sipHash (le64 (key.take 8)) (le64 (key.drop 8)) msg
          cpDone id (writeWords sup (rb.toNat + 16) (words64 (leValue h)) s))
    | _, _ => .trap s causeCpfault

/-! All ports (R387) -/

/-- Function codes of a port, and those user mode may use. -/
def cpCodes (port : Nat) : Nat := match port with | 0 => 9 | 1 => 5 | _ => 3
def cpUser (port func : Nat) : Bool :=
  match port with
  | 0 => func == 6
  | 1 => func == 1 || func == 2
  | 2 => true
  | _ => func != 1

/-- A function of a port with the rights of the mode; SEQ must be ON for CP0 to act. -/
def cpFn (port func : Nat) (rdv ra rb : Word) (s : State) : CpRes :=
  let sup := (coreIn s.dev).sup
  if cpCodes port ≤ func then .trap s causeIllegal
  else if !sup && !cpUser port func then .trap s causePriv
  else match port with
  | 0 => if domOn s.dev 7 then cp0Fn sup func rdv ra rb s else cpDone id s
  | 1 => cp1Fn sup func ra rb s
  | 2 => cp2Fn sup func ra rb s
  | _ => cp3Fn sup func ra rb s

/-- A CP instruction: rd takes the port's result. -/
def cpInstr (port func : Nat) (rd ra rb : BitVec 5) (s : State) : Out :=
  instr 4 (fun s =>
    let k := coreIn s.dev
    match cpFn port func (k.get rd) (k.get ra) (k.get rb) s with
    | .ok s v => { s with dev := writeRd 4 rd v s.dev }
    | .trap s cause => { s with dev := trapHere cause s.dev }) s

end Sys2Proof.Machine
end

