-- ==== Sys2Proof/Machine/Applet.lean ====
section
/-! DEFINITION. Firmware's services to the applet, and the Comb record filter (R396-R400). -/
namespace Sys2Proof.Machine

/-- Argument `n` of a service: p0 to p5. -/
def svcArg (d : Dev) (n : Nat) : Word := (coreIn d).get (BitVec.ofNat 5 (24 + n))

/-- Service `n` of the applet's main flow is to be carried out. -/
def appletService (n : Nat) (f : Dev → Dev) (d : Dev) : Dev :=
  if d.cpu.apl.run && d.cpu.apl.filter.isNone && inService d n then f d else d

/-- A service of the flow that runs, main or filter, ends. -/
def flowReturn (p0 p1 : Option Word) (d : Dev) : Dev := setCore ((coreIn d).serviceEnd p0 p1) d

/-- A service whose arguments the manual gives no result for: p0 is open. -/
def serviceOpen (d : Dev) : Dev :=
  let (w, d) := drawFree d
  serviceReturn (some w) none d

def setApl (a : Applet) (d : Dev) : Dev := { d with cpu := { d.cpu with apl := a } }

/-- YIELD (R397). -/
def execYield (t : Nat) (s : State) : Out := s.run fun d =>
  appletService 0 (serviceReturn none none) (tick t d)

/-- WAIT_EVENT (R397): mask and timer are kept, and an event that has come already ends it. -/
def execWaitEvent (t : Nat) (s : State) : Out := s.run fun d =>
  appletService 1 (fun d =>
    let tmr := if bit (svcArg d 0) 1 then some (d.now + us (svcArg d 1).toNat) else none
    appletWake (setApl { d.cpu.apl with waiting := some (svcArg d 0, tmr) } d)) (tick t d)

/-- WAIT_EVENT_TIMER (R397). -/
def execWaitEventTimer (t : Nat) (s : State) : Out := s.run fun d => appletWake (tick t d)

/-- CMD_GET (R397, R398): the oldest command's block is copied; with none pending the results are open. -/
def execCmdGet (t : Nat) (s : State) : Out := s.run fun d =>
  appletService 2 (fun d =>
    let a := d.cpu.apl
    match a.cmds with
    | [] =>
      let (w, d) := drawFree d
      let (v, d) := drawFree d
      serviceReturn (some w) (some v) d
    | tag :: rest =>
      let block := match findOp d tag with | none => [] | some o => o.block
      let ws := block.take (svcArg d 1).toNat
      let addr := (svcArg d 0).toNat
      serviceReturn (some (nw tag)) (some (nw ws.length))
        (appletStore addr ws (setApl { a with cmds := rest, taken := a.taken ++ [tag] } d))) (tick t d)

/-- CMD_REPLY (R397, R398): the final REPLY of an APPLET_CMD with its result words. -/
def execCmdReply (t : Nat) (s : State) : Out := s.run fun d =>
  appletService 3 (fun d =>
    let a := d.cpu.apl
    let tag := (svcArg d 0).toNat
    let status := fld (svcArg d 1) 7 0
    let n := (svcArg d 3).toNat
    if (a.cmds ++ a.taken).contains tag && decide (n ≤ 250) then
      match readWords false (svcArg d 2).toNat n { s with dev := d } with
      | none => serviceOpen d
      | some (_, ws) =>
        let d := setApl { a with cmds := a.cmds.filter (· ≠ tag), taken := a.taken.filter (· ≠ tag) } d
        serviceReturn (some 0) none (endOp tag status (if status = 0 then .done else .failed) ws d)
    else serviceOpen d) (tick t d)

/-- APPLET_POST (R345, R354, R397): an applet record. -/
def execAppletPost (t : Nat) (s : State) : Out := s.run fun d =>
  appletService 4 (fun d =>
    let ring := (svcArg d 0).toNat
    let type := (svcArg d 1).toNat
    let n := (svcArg d 3).toNat
    if 4 ≤ ring ∧ ring ≤ 31 ∧ 0x980 ≤ type ∧ type ≤ 0x9FF ∧ 1 ≤ n ∧ n ≤ 254 then
      match readWords false (svcArg d 2).toNat n { s with dev := d } with
      | none => serviceOpen d
      | some (_, ws) =>
        let (d, ok) := offer ring type ws d
        serviceReturn (some (if ok then 0 else 1)) none d
    else serviceOpen d) (tick t d)

/-- The exchange block (R398): EPC descriptor, then words with the host frame buffer, the reply descriptor and the
aerial. -/
structure XchgBlock where
  epc : List Bool
  buffer : Nat
  desc : Nat
  aerial : Nat
  deriving DecidableEq, Repr

def readXchg (a : Nat) (s : State) : Option XchgBlock :=
  match readEpc false a s with
  | none => none
  | some (s, epc) =>
    match readWords false (a + 4 + 4 * ((epc.length + 31) / 32)) 3 s with
    | none => none
    | some (_, ws) =>
      let x : XchgBlock := ⟨epc, (nth 0 ws 0).toNat, (nth 0 ws 1).toNat, (nth 0 ws 2).toNat⟩
      if 16 ≤ epc.length ∧ 32 ≤ x.buffer ∧ x.buffer ≤ 63 ∧ 4 ≤ x.desc ∧ x.desc ≤ 14 ∧ x.aerial ≤ 15 then some x else none

/-- The access block of an exchange with the defaults of R202: its buffer and its reply descriptor follow the target. -/
def xchgBlock (x : XchgBlock) : List Word :=
  [put 29 28 3 ||| put 27 24 3 ||| put 23 21 2 ||| putB 20 true ||| put 15 0 20000,
   put 24 16 x.epc.length ||| put 11 8 x.aerial ||| 1, 0] ++ packBits 16 x.epc ++ [put 5 0 x.buffer ||| put 11 8 x.desc]

/-- TAG_XCHG (R202, R203, R209, R398): under the tag of the APPLET_CMD taken last, an access operation acquires the tag and
sends the buffer; the applet waits for its end. -/
def execTagXchg (t : Nat) (s : State) : Out := s.run fun d =>
  appletService 5 (fun d =>
    let a := d.cpu.apl
    match a.taken.getLast?, readXchg (svcArg d 0).toNat { s with dev := d } with
    | some tag, some x =>
      (match findOp d tag with
       | none => serviceOpen d
       | some o =>
         let o' := { o with opcode := 0x409, st := .queued, pend := .none, block := xchgBlock x, need := 3, progress := 0 }
         match ownRefusal d o' with
         | some st => serviceReturn (some (nw st)) (some 0) d
         | none =>
           tryStart tag (updOp tag (fun _ => o') (setApl { a with xchg := some ⟨tag, svcArg d 1, o.block⟩ } d)))
    | _, _ => serviceOpen d) (tick t d)

/-- TIME_SERVICE (R397, R400). -/
def execTimeService (t : Nat) (s : State) : Out := s.run fun d =>
  let d := tick t d
  if d.cpu.apl.run && inService d 6 then flowReturn (some (cycLo d.tb.cyc)) (some (timePhaseWord d)) d else d

/-! The filter (R400) -/

/-- FILTER_CALL (R384, R400): the oldest record that waits is passed to the filter, in windows above the flow it preempts.
How the entry receives the record is open: c0 and c1 are free. -/
def execFilterCall (t : Nat) (s : State) : Out := s.run fun d =>
  let d := tick t d
  let a := d.cpu.apl
  match a.fq with
  | [] => d
  | item :: rest =>
    if filterOn d && a.filter.isNone && coreRuns d then
      let (v, d) := drawFree d
      let (w, d) := drawFree d
      let c := coreIn d
      let back := c.save
      let c := (c.enterWindow c.pc).enterWindow c.pc
      let c := { c with pc := a.fentry, sup := false, nest := false, inton := true }
      let c := ((c.put 7 0x1003FFF8).put 8 v).put 9 w
      let budget := max 1 (fld (reg d Reg.CORE_APL_CFG) 15 8)
      setApl { a with fq := rest, filter := some ⟨item, d.now + us budget, back⟩ } (setCore c d)
    else d

/-- The filter call ends: the core goes back to the flow it preempted. -/
def filterLeave (f : FilterCall) (d : Dev) : Dev :=
  setApl { d.cpu.apl with filter := none } (setCore ((coreIn d).restore f.back) d)

/-- FILTER_RET (R397, R400): the record is dropped, or written with the words after its header as the filter left them. -/
def execFilterRet (t : Nat) (words : Option (List Word)) (s : State) : Out := s.run fun d =>
  let d := tick t d
  match d.cpu.apl.filter with
  | none => d
  | some f =>
    if d.cpu.apl.run && inService d 7 then
      let p0 := svcArg d 0
      let (w, d) := if 1 < p0.toNat then drawFree d else (p0, d)
      let d := filterLeave f d
      if bit w 0 then count Reg.CORE_APL_CNT 31 16 1 d
      else
        let body := match words with
          | none => f.item.body
          | some ws => if ws.length = f.item.body.length then ws else f.item.body
        recordFinal { f.item with body := body } d
    else d

/-- FILTER_BUDGET_EXPIRY (R400): the call is abandoned and the record written as it stood. -/
def execFilterBudgetExpiry (t : Nat) (s : State) : Out := s.run fun d =>
  let d := tick t d
  match d.cpu.apl.filter with
  | none => d
  | some f =>
    if f.deadline ≤ d.now then
      recordFinal f.item (event Reg.CORE_EVENT 5 (count Reg.CORE_APL_CNT 15 0 1 (filterLeave f d)))
    else d

end Sys2Proof.Machine
end

