-- ==== Sys2Proof/Machine/Seq.lean ====
section
/-! DEFINITION. The commands of the twill sequencer: fetches, waits, actions, gates, abort points, frame ends and turns
(R142-R171). -/
namespace Sys2Proof.Machine

/-! Steps (R147-R158) -/

/-- Thread `n` has acted on the radio, or a window of the measuring chain has opened or closed: a noise measurement ends with
no update (R39). An action that is held has not acted. -/
def noiseAfter (n : Nat) (old d : Dev) : Dev :=
  let act := stepAct (thr old n).word
  let acted := 0x10 ≤ act ∧ act ≤ 0x14 ∧ thr d n ≠ thr old n ∧ (thr d n).st ≠ .held
  if acted ∨ d.uhf.move ≠ old.uhf.move ∨ d.uhf.carrier ≠ old.uhf.carrier
      ∨ (chain d (noiseChain d)).win ≠ (chain old (noiseChain d)).win then noiseStop d
  else d

/-- Runs of calibration that a receive or HF action stops in its tick (R436): those of a chain whose window it opens, and of
the DC offset for HF. -/
def calStopFor (hf : Bool) (d : Dev) : Dev :=
  let hit := d.cal.run.any fun r =>
    (hf && decide (r.id = 3)) || (!hf && decide (r.id = 1 ∨ r.id = 4) && d.chA.win.isSome)
      || (!hf && decide (r.id = 5 ∨ r.id = 6) && d.chB.win.isSome)
  if hit then calStop d else d

/-- A slot command of a round is held at the slot gates into the next window (R185). -/
def cutRace (n : Nat) (d : Dev) : Dev :=
  let x := thr d n
  let b := stepArg x.word / 32 % 64
  if n = 0 ∧ x.st = .held ∧ (x.gate = some .cut ∨ x.gate = some .slot) ∧ stepExs x.word ∧ stepAct x.word = 0x13
      ∧ 2 ≤ b ∧ b ≤ 5 ∧ d.gen2.rstate = 2 ∧ d.gen2.cutRace = false then
    setSw 3 true (event Reg.GEN2_EVENT 2 { d with gen2 := { d.gen2 with cutRace := true } })
  else d

/-- Thread `n` issues its step at tick `t` when its wait is over and the step passes the test of the row;
a doorbell it rings may wake the applet (R398). A SLOT wait that is over begins a window of the thread's operation (R340). -/
def stepRow (t n ext : Nat) (p : DWord → Bool) (d : Dev) : Dev :=
  let d := tick t d
  let d := if stepWk (thr d n).word = 4 ∧ p (thr d n).word = true ∧ (waitOver d n).isSome then firstWindow n d else d
  appletWake (cutRace n (noiseAfter n d (threadStep n (issueIf n ext p) d)))

/-- Test of a row for an action. -/
def isAct (a : Nat) (w : DWord) : Bool := stepAct w == a

/-- The issue of the step takes a reading of the world, which the row of its action brings: the rows of the waits leave it to
that row (log entry 91). -/
def brings (w : DWord) : Bool := isAct 0x34 w || (isAct 0x30 w && stepArg w % 4 != 0)

/-- STEP_FETCH (R145, R149, R153, R167, R340): a thread fetches its step; an abort point of an operation is met. -/
def execStepFetch (t th : Nat) (ecc : EccRead) (s : State) : Out := s.run fun d =>
  let d := tick t d
  let x := thr d th
  if th < 4 ∧ x.st = .waiting ∧ x.toFetch ∧ x.fetchAt ≤ t then
    threadStep th (fun d => abortPoint th (fetchStep th ecc d)) d
  else d

/-- WAIT_TIME_EXPIRY (R147, R149): a DELAY or AFTER wait is over and the step issues. -/
def execWaitTimeExpiry (t th : Nat) (s : State) : Out := s.run fun d =>
  stepRow t th 0 (fun w => (stepWk w == 1 || stepWk w == 2) && !brings w) d

/-- A flag wait of thread `n` has ended by its timeout. -/
def flagTimedOut (d : Dev) (n : Nat) : Bool :=
  (stepWk (thr d n).word == 3 || stepWk (thr d n).word == 5) && (match waitOver d n with | none => false | some e => e.timeout)
def flagCame (d : Dev) (n : Nat) : Bool :=
  (stepWk (thr d n).word == 3 || stepWk (thr d n).word == 5) && (match waitOver d n with | none => false | some e => !e.timeout)

/-- WAIT_FLAG_TRUE (R147, R149): the flag of a FLAG or FLAGA wait has been sampled true. -/
def execWaitFlagTrue (t th : Nat) (s : State) : Out := s.run fun d =>
  let d := tick t d
  if flagCame d th then stepRow t th 0 (fun w => !brings w) d else d

/-- WAIT_FLAG_TIMEOUT (R147, R149): a flag wait ends by its timeout; TIMEOUT is set. -/
def execWaitFlagTimeout (t th : Nat) (s : State) : Out := s.run fun d =>
  let d := tick t d
  if flagTimedOut d th then stepRow t th 0 (fun w => !brings w) d else d

/-- WAIT_SLOT (R32, R149, R340): a SLOT wait takes its slot; the window of an operation begins. -/
def execWaitSlot (t th : Nat) (s : State) : Out := s.run fun d =>
  let d := tick t d
  if stepWk (thr d th).word = 4 ∧ (waitOver d th).isSome then stepRow t th 0 (fun w => !brings w) d else d

/-- SEQ_NOP (R150). -/
def execSeqNop (t th : Nat) (s : State) : Out := s.run (stepRow t th 0 (isAct 0x00))

/-- SEQ_HALT (R76, R150, R153): the thread halts with its end code. -/
def execSeqHalt (t th : Nat) (s : State) : Out := s.run (stepRow t th 0 (isAct 0x01))

/-- SEQ_CALL (R156). -/
def execSeqCall (t th : Nat) (s : State) : Out := s.run (stepRow t th 0 (isAct 0x02))

/-- SEQ_RET (R156). -/
def execSeqRet (t th : Nat) (s : State) : Out := s.run (stepRow t th 0 (isAct 0x03))

/-- LOOP (R150). -/
def execLoop (t th : Nat) (s : State) : Out := s.run (stepRow t th 0 (isAct 0x04))

/-- SETCNT (R150). -/
def execSetcnt (t th : Nat) (s : State) : Out := s.run (stepRow t th 0 (isAct 0x05))

/-- ANCHOR (R150). -/
def execAnchor (t th : Nat) (s : State) : Out := s.run (stepRow t th 0 (isAct 0x06))

/-- SIGNAL (R150). -/
def execSignal (t th : Nat) (s : State) : Out := s.run (stepRow t th 0 (isAct 0x07))

/-- SEQ_POST (R158). -/
def execSeqPost (t th : Nat) (s : State) : Out := s.run (stepRow t th 0 (isAct 0x08))

/-- RADIO (R74, R75, R150). -/
def execRadio (t th : Nat) (s : State) : Out := s.run (stepRow t th 0 (isAct 0x10))

/-- HOP (R60, R61, R75). -/
def execHop (t th : Nat) (s : State) : Out := s.run (stepRow t th 0 (isAct 0x11))

/-- AERIAL (R71, R72). -/
def execAerial (t th : Nat) (s : State) : Out := s.run (stepRow t th 0 (isAct 0x12))

/-- TXF (R151, R174, R175, R185): the frame of a buffer goes out, past its gates. -/
def execTxf (t th : Nat) (s : State) : Out := s.run (stepRow t th 0 (isAct 0x13))

/-- PWRADJ (R64, R150). -/
def execPwradj (t th : Nat) (s : State) : Out := s.run (stepRow t th 0 (isAct 0x14))

/-- RXOPEN (R114, R152, R177, R436). -/
def execRxopen (t th : Nat) (s : State) : Out := s.run fun d => calStopFor false (stepRow t th 0 (isAct 0x20) d)

/-- SEQ_RXCLOSE (R127, R152). -/
def execSeqRxclose (t th : Nat) (s : State) : Out := s.run (stepRow t th 0 (isAct 0x21))

/-- Runs an HF row: an issue stops a run of the DC offset calibration (R436). -/
def hfRow (t n ext a : Nat) (d : Dev) : Dev :=
  let d := tick t d
  let due := (waitOver d n).isSome && isAct a (thr d n).word && decide (n < 4)
  stepRow t n ext (isAct a) (if due then calStopFor true d else d)

/-- HFFIELD (R245, R247): the field, past its gates; `extLevel` is what the external-field check measures. A HELD one is
tried again. -/
def execHffield (t th : Nat) (extLevel : Nat) (s : State) : Out := s.run fun d =>
  if th < 4 ∧ (thr d th).st = .held ∧ isAct 0x30 (thr d th).word then
    let d := calStopFor true (tick t d)
    threadStep th (fun d => if abortHere th d then abortTake th d
      else if stageOk d (th + 1) then actGate th extLevel (stageMark (th + 1) d) else d) d
  else hfRow t th extLevel 0x30 d

/-- HFTX (R251). -/
def execHftx (t th : Nat) (s : State) : Out := s.run (stepRow t th 0 (isAct 0x31))

/-- HFRX (R253, R254). -/
def execHfrx (t th : Nat) (s : State) : Out := s.run (hfRow t th 0 0x32)

/-- HFCLOSE (R150). -/
def execHfclose (t th : Nat) (s : State) : Out := s.run (stepRow t th 0 (isAct 0x33))

/-- GATE_PASS (R35, R82, R151, R152): a HELD action is tried at its gates again. -/
def execGatePass (t th : Nat) (s : State) : Out := s.run fun d =>
  let d := tick t d
  let d' := cutRace th (calStopFor false (noiseAfter th d (threadStep th (fun d => if stageOk d (th + 1) then regate th (stageMark (th + 1) d) else d) d)))
  let hf := (thr d th).st = .held && [0x30, 0x32, 0x34].contains (stepAct (thr d th).word) && (thr d' th).st ≠ .held
  if hf then calStopFor true d' else d'

/-- RXOPENs and hops held in TX are tried again (R75, R152). -/
def releaseTxHeld (d : Dev) : Dev :=
  [0, 1, 2].foldl (fun d n => if (thr d n).gate = some .rx then threadStep n (regate n) d else d) d

/-- TX_FRAME_END (R75, R85, R155): the last symbol of a UHF frame ends; the radio is in CW_HOLD and held actions go on. -/
def execTxFrameEnd (t : Nat) (s : State) : Out := s.run fun d =>
  let d := tick t d
  if d.uhf.st = .tx ∧ d.uhf.move = none then
    let d := { d with uhf := { d.uhf with st := .cwHold }, seq := { d.seq with txEnd := true, txEndAt := some d.now } }
    opsSettle (calStopFor false (releaseTxHeld (cancResume true (cancResume false d))))
  else d

/-- ABORT_TAKE_HOLD (R159, R161): a pending suspend or cancel takes hold at the abort point the thread stands at. -/
def execAbortTakeHold (t th : Nat) (s : State) : Out := s.run fun d =>
  let d := tick t d
  if th < 4 ∧ abortHere th d then threadStep th (abortTake th) d else d

/-! Turns (R36, R162-R165, R366, R369) -/

/-- µs of a number of fine ticks, rounded up, in 16 bits. -/
def latUs (n : Nat) : Nat := min 0xFFFF ((n + 159) / 160)

/-- A WAITING thread fetches its step again from the new table (R164). -/
def turnRefetch (d : Dev) : Dev :=
  (List.range 4).foldl (fun d n => if (thr d n).st = .waiting then
    updThr n (fun x => { x with toFetch := true, fetchAt := d.now }) d else d) d

/-- What a round uses has changed: link, session, separator setting, or a buffer of it (R173). Firmware's buffers are alike in both sets
when it is asked. -/
def roundChanged (old new : CfgSet) : Bool :=
  cfgOf old Reg.GEN2_LINK != cfgOf new Reg.GEN2_LINK
    || fld (cfgOf old Reg.GEN2_QUERY) 5 4 != fld (cfgOf new Reg.GEN2_QUERY) 5 4
    || bit (cfgOf old Reg.RXD_SEP_CFG) 0 != bit (cfgOf new Reg.RXD_SEP_CFG) 0
    || old.fb.filter (fun e => e.1 < 256) != new.fb.filter (fun e => e.1 < 256)

/-- Seeds of aerials whose EN or TRIM has changed are invalid (R89). -/
def turnSeeds (old : CfgSet) (d : Dev) : Dev :=
  seedsDrop (fun _ a _ => cfgOf old (Reg.UHF_AER_0 + a) != aerReg d a) d

/-- Blanking inputs are judged by the new map and polarity (R94); `was0` and `was1` say which were active. -/
def turnBlank (was0 was1 : Bool) (d : Dev) : Dev :=
  let d := if was0 && !blankLevel d false then blankExtend false d else d
  blankFollow (if was1 && !blankLevel d true then blankExtend true d else d)

/-- The grant is judged by the new polarity (R93). -/
def turnGrant (was : Bool) (d : Dev) : Dev := if was && !gntOn d then grantFell d else d

/-- A residual canceller that the turn disables holds r at 0 (R108, R116); a running learn interval keeps its end (log entry
100). -/
def turnDrc (d : Dev) : Dev :=
  let go := fun (ch : Bool) (d : Dev) =>
    if bit (cfg d (chReg ch 0x0B)) 0 then d else setChain ch { chain d ch with ri := 0, rq := 0, learnEnd := none } d
  go true (go false d)

/-- Operations that were to end NO_CHANNEL go on when the list in force holds a valid entry (R61). -/
def turnChannels (d : Dev) : Dev :=
  if anyChannel d then
    (d.ops.filter fun o => opLive o && decide (o.failAs = some 0x24)).foldl (fun d o =>
      askThreads o.tag .none (updOp o.tag (fun o => { o with failAs := none, pend := .none }) d)) d
  else d

/-- All set-paired content changes roles in one tick (R163-R166, R366). -/
def turnSwap (d : Dev) : Dev :=
  let d := fwAlike (drcLatch true (drcLatch false d))
  let old := activeSet d
  let was0 := blankLevel d false
  let was1 := blankLevel d true
  let gnt := gntOn d
  let (new, bad) := chanSweep (shadowSet d)
  let d := setShadow new d
  let d := { d with sel := !d.sel }
  let d := if bad then event Reg.UHF_EVENT 9 d else d
  let changed := roundChanged old new
  let d := if changed ∧ roundRuns d then setSw 3 true { d with gen2 := { d.gen2 with stale := true } } else d
  let d := (d.ops.filter fun o => opLive o && decide (o.st = .running)).foldl (fun d o => opFollow changed o d) d
  let d := if linkValid (cfg d Reg.GEN2_LINK) then d else event Reg.GEN2_EVENT 4 d
  let d := retake (turnGrant gnt d)
  turnChannels (turnReserves (turnBlank was0 was1 (turnDrc (turnSeeds old (turnRefetch d)))))

/-- Every thread is turn-ready (R162, R163). -/
def allReady (d : Dev) : Bool := (List.range 4).all (turnReady d)

/-- TURN_COMMIT (R157, R163, R369): at or after T0 with every thread turn-ready, the turn commits, ahead of every action of its
tick. -/
def execTurnCommit (t : Nat) (s : State) : Out := s.run fun d =>
  let d := tick t d
  match d.seq.turn with
  | none => d
  | some a =>
    match a.t0 with
    | none => d
    | some t0 =>
      if a.armed ∧ t0 ≤ t ∧ allReady d = true ∧ d.seq.stage = 0 then
        let d := turnSwap { d with seq := { d.seq with turn := none } }
        let d := { d with sys := { d.sys with turns := d.sys.turns + 1, turnCyc := d.tb.cyc, turnTick := some d.now } }
        let d := event Reg.SEQ_EVENT 5 (setReg Reg.SEQ_TURN (put 15 0 (latUs (d.now - t0))) d)
        endShort 0x002 a.tag 0x00 .done d
      else d

/-- `SEQ_TURN_CFG.TMO` in fine ticks (R169). -/
def turnTmo (d : Dev) : Nat := us (max 1000 (fld (reg d Reg.SEQ_TURN_CFG) 15 0))

/-- TURN_ABANDON (R165): a turn not committed within TMO of T0 is abandoned. -/
def execTurnAbandon (t : Nat) (s : State) : Out := s.run fun d =>
  let d := tick t d
  match d.seq.turn with
  | none => d
  | some a =>
    match a.t0 with
    | none => d
    | some t0 =>
      if a.armed ∧ t0 + turnTmo d ≤ t then
        let block := natOfBits ((List.range 4).map fun i => !turnReady d (3 - i))
        let d := setReg Reg.SEQ_TURN (put 31 24 0x26 ||| put 23 20 block ||| put 15 0 (latUs (d.now - t0))) d
        endShort 0x002 a.tag 0x26 .failed (event Reg.SEQ_EVENT 6 (fwAlike { d with seq := { d.seq with turn := none } }))
      else d

/-- TAB_DATA_H_ACCESS (R166): one access of a reader to the high half of the table port. -/
def execTabDataHAccess (t : Nat) (r : Reader) (shadow : Bool) (wr : Option Word) (s : State) : Out :=
  .next (regAccess t r shadow Reg.SEQ_TAB_DATA_H wr s)

end Sys2Proof.Machine
end

