-- ==== Sys2Proof/Machine/Uhf.lean ====
section
/-! DEFINITION. The commands of the UHF transmit side: channel list, dwell, PA, couplers, radio transitions, lock,
canceller, coexistence and blanking (R58-R102). -/
namespace Sys2Proof.Machine

/-- CHAN_DATA_WRITE (R59, R89): one write of the channel-list port. -/
def execChanDataWrite (t : Nat) (r : Reader) (shadow : Bool) (v : Word) (s : State) : Out :=
  .next (regAccess t r shadow Reg.UHF_CHAN_DATA (some v) s)

/-- UHF_CHAN_DATA_READ (R98): one read of the channel-list port. -/
def execUhfChanDataRead (t : Nat) (r : Reader) (shadow : Bool) (s : State) : Out :=
  .next (regAccess t r shadow Reg.UHF_CHAN_DATA none s)

/-- DWELL_EXPIRY (R62): the carrier-on time since the last hop reaches `UHF_DWELL_MAX`. -/
def execDwellExpiry (t : Nat) (s : State) : Out := s.run fun d =>
  let d := tick t d
  let m := fld (cfg d Reg.UHF_DWELL_MAX) 15 0
  if m ≠ 0 ∧ 1000 * m ≤ dwellUs d ∧ d.uhf.dwell = false then event Reg.UHF_EVENT 7 { d with uhf := { d.uhf with dwell := true } }
  else d

/-- PA_LIM (R63): the supply comes to limit the PA, or limits it no longer. -/
def execPaLim (t : Nat) (lim : Bool) (s : State) : Out := s.run fun d =>
  let d := tick t d
  if domOn d 8 = false ∨ d.uhf.paLim = lim then d
  else
    let d := { d with uhf := { d.uhf with paLim := lim } }
    if lim then event Reg.UHF_EVENT 8 d else d

/-- Replaces the REFL flag of a port. -/
def setRefl (p v : Bool) (d : Dev) : Dev :=
  if p then { d with uhf := { d.uhf with reflB := v } } else { d with uhf := { d.uhf with reflA := v } }

/-- REFL_DETECT (R66, R67, R101): a coupler average of the port that carries RF, in 0.125 dB steps above -20 dBm; `cw` is the
forward level over the last 16 us of unmodulated carrier, when the average ends with as much of it. -/
def execReflDetect (t : Nat) (port : Bool) (fwd ref : Nat) (cw : Option Nat) (s : State) : Out := s.run fun d =>
  let d := tick t d
  if d.uhf.carrier ∧ d.uhf.port = port then
    let d := match cw with
      | none => d
      | some l => if d.uhf.st ≠ .tx ∧ d.uhf.carrierAt + us 16 ≤ t then
          { d with uhf := { d.uhf with fwdMeas := CMap.set (fun _ => none) d.uhf.fwdMeas d.uhf.aerial (some ⟨min 4095 l, d.uhf.power, d.uhf.trim⟩) } }
        else d
    let f := min 4095 fwd
    let r := min 4095 ref
    let a := if port then Reg.UHF_CPL_B_FWD else Reg.UHF_CPL_A_FWD
    let d := setReg (a + 1) (0x8000 ||| nw r) (setReg a (0x8000 ||| nw f) d)
    let rl := fld (cfg d Reg.UHF_CPL_CFG) 13 8
    let was := if port then d.uhf.reflB else d.uhf.reflA
    if 240 ≤ f ∧ (f : Int) - r < 8 * rl then
      (if was then d else event Reg.UHF_EVENT 0 (setRefl port true d))
    else if 8 * (rl + 1 : Int) ≤ (f : Int) - r then setRefl port false d
    else d
  else d

/-- A canceller that started from a seed still searches: a hop is complete when it has converged (R75). -/
def seedWaits (d : Dev) : Bool := [false, true].any fun ch => (canc d ch).seeded && decide ((canc d ch).st = .acq)

/-- What the target of a completed transition means: the carrier and its modulation, lock, cancellers and chains. -/
def moveArrive (m : Move) (d : Dev) : Dev :=
  let d := { d with uhf := { d.uhf with st := m.target, move := none
                                        lock := d.uhf.lock && decide (m.target ≠ .sleep ∧ m.target ≠ .standby) } }
  let d := if m.target.hasCarrier ∧ d.uhf.carrier = false then carrierOn d else d
  let d := if m.hop.isSome ∧ m.target = .cwHold ∧ seedWaits d then
      { d with uhf := { d.uhf with move := some { moveTo .cwHold (d.now + 640) none with seeded := true } } } else d
  let d := if m.target = .tx then cancPause true (cancPause false d) else cancResume true (cancResume false d)
  markWindows (chainsFollow d)

/-- RADIO_TRANSITION_DONE (R74, R75, R86, R453): a transition completes; a ramp-up checks PA bias and switch read-back. After the
ramp-up of a hop that started from a seed the radio moves on for its convergence, at most 4 us. -/
def execRadioTransitionDone (t : Nat) (biasOk readbackOk : Bool) (s : State) : Out := s.run fun d =>
  let d := tick t d
  match d.uhf.move with
  | none => d
  | some m =>
    if m.waitLock ∨ t < m.done then d
    else
      let d := if m.seeded then { d with uhf := { d.uhf with move := none } } else moveArrive m d
      if m.ramp ∧ readbackOk = false then raiseFault (if d.uhf.port then 0x19 else 0x18) (blkPort d.uhf.port) d.uhf.aerial d
      else if m.ramp ∧ biasOk = false then raiseFault 0x11 blkPa 0 d
      else d

/-- Fine ticks from now to the end of thread U's window: none when the current slot is not selected. -/
def windowLeft (d : Dev) : Nat :=
  if inSlot d 0 then
    let p := phaseAt d d.now
    let l := p / 1024
    puToQ d.tb.period (1024 * (l + windowSlots d 0 (maskFull d 0) l 1600 1) - p) / 256
  else 0

/-- The exchange still needs the carrier: a frame in the air, a transition with carrier, or a window open (R77). -/
def carrierNeeded (d : Dev) : Bool :=
  decide (d.uhf.st = .tx) || (d.uhf.move.any fun m => m.target.hasCarrier) || d.chA.win.isSome || d.chB.win.isSome

/-- WINDOW_END_RAMPDOWN (R77, R93): 4 us before the end of thread U's window the carrier ramps down. -/
def execWindowEndRampdown (t : Nat) (s : State) : Out := s.run fun d =>
  let d := tick t d
  if windowLeft d ≤ us 4 then
    let emits := d.uhf.carrier || (d.uhf.move.any fun m => m.ramp)
    if emits then
      let d := if carrierNeeded d then
          fieldLossCause 1 (coexDrop false false (closeAllWindows false { d with uhf := { d.uhf with exchange := false } }))
        else d
      let d := if fld (cfg d Reg.UHF_RADIO_CFG) 5 4 = 2 then startMove .standby d else fallBack d
      coexDrop false true (chainsFollow d)
    else coexDrop false true d
  else d

/-- LOCK_LOST (R78, R79): the synthesiser loses lock with the carrier on. -/
def execLockLost (t : Nat) (s : State) : Out := s.run fun d =>
  let d := tick t d
  if d.uhf.carrier ∧ d.uhf.lock then
    let d := event Reg.UHF_EVENT 2 { d with uhf := { d.uhf with lock := false, exchange := false } }
    let d := rampDownFast (carrierCut d)
    raiseFault 0x10 blkSynth 0 (fieldLossCause 3 d)
  else d

/-- The run in progress is suspended (R80). -/
def calHold (d : Dev) : Dev :=
  { d with cal := { d.cal with run := d.cal.run.map fun r => { r with held := true } } }

/-- The NCOs take the frequency of the entry in use at the instant of lock (R107). -/
def ncoAtLock (d : Dev) : Dev :=
  let c := activeSet d
  let d := { d with uhf := { d.uhf with freq := chanFreq c (fld (chanEntry c (d.uhf.entry.getD 0)) 11 0) } }
  ncoTake true (ncoTake false d)

/-- LOCK_ACQUIRED (R32, R80, R82, R91, R92, R107): a calibration that owns the synthesiser is suspended for a held request; the
synthesiser locks, the ramp-up takes its settings (R65), and a held exchange is tested again at this instant; outside thread
U's slots or with the grant gone no ramp-up starts and the radio rests in SYNTH_ON. -/
def execLockAcquired (t : Nat) (s : State) : Out := s.run fun d =>
  let d := tick t d
  let d := if d.uhf.heldAt.isSome ∧ calOwnsSynth d then calHold d else d
  match d.uhf.move with
  | none => if d.uhf.lock then threadStep 0 (regate 0) d else d
  | some m =>
    if m.waitLock then
      let d := calApply 2 0 26 d
      let d := ncoAtLock { d with uhf := { d.uhf with lock := true, heldAt := none
                                                      hopAt := none } }
      let from_ := if m.ramp then rampFrom d d.now else d.now
      let d := { d with uhf := { d.uhf with move := some { m with waitLock := false, takeAt := from_, done := from_ + m.rest } } }
      let d := if m.ramp then takeCarrier d else d
      let d := if m.rest = 0 ∨ (m.ramp ∧ (inSlot d 0 = false ∨ (coexGated d 0 && !gntCounts d && !d.uhf.exchange) = true)) then
          chainsFollow { d with uhf := { d.uhf with st := .synthOn, move := none } }
        else d
      threadStep 0 (regate 0) d
    else d

/-- Lock hold of R80 in fine ticks. -/
def lockHold (d : Dev) : Nat := us (max 100 (fld (cfg d Reg.UHF_LOCK_HOLD) 15 0))

/-- A transition that waits for lock no longer raises the carrier: the radio is to rest in SYNTH_ON. -/
def moveTame (d : Dev) : Dev :=
  { d with uhf := { d.uhf with hopEntry := none, hopListen := false
                               move := d.uhf.move.map fun m => if m.waitLock then { m with target := .synthOn, rest := 0, ramp := false, hop := none } else m } }

/-- The RF request held at the lock gate has waited for the lock hold without lock, or behind a calibration (R80, R83). -/
def heldExpire (d : Dev) : Dev :=
  match d.uhf.heldAt with
  | none => d
  | some a =>
    if a + lockHold d ≤ d.now ∧ (d.uhf.lock = false ∨ calOwnsSynth d = true) then
      let d := coexDrop false false (moveTame (event Reg.UHF_EVENT 1 { d with uhf := { d.uhf with heldAt := none, exchange := false } }))
      if (thr d 0).st = .held ∧ (thr d 0).gate = some .lock then refuse 0 0x20 d else d
    else d

/-- A HOP that has passed and finds no lock in time (R80): a thread U that runs shows the status. -/
def hopExpire (d : Dev) : Dev :=
  match d.uhf.hopAt with
  | none => d
  | some a =>
    if a + lockHold d ≤ d.now ∧ d.uhf.lock = false then
      let d := coexDrop false false (moveTame (event Reg.UHF_EVENT 1 { d with uhf := { d.uhf with hopAt := none, exchange := false } }))
      if thrRuns (thr d 0) then updThr 0 (fun t => { t with refused := true, code := 0x20 }) d else d
    else d

/-- LOCK_HOLD_EXPIRY (R80, R83): no lock in time; the request ends SYNTH_NOT_READY with no RF. -/
def execLockHoldExpiry (t : Nat) (s : State) : Out := s.run fun d => heldExpire (hopExpire (tick t d))

/-- CAL_RESUME (R81): the suspended calibration goes on outside thread U's windows with no request held. -/
def execCalResume (t : Nat) (s : State) : Out := s.run fun d =>
  let d := tick t d
  if inSlot d 0 = false ∧ d.uhf.heldAt = none then
    { d with cal := { d.cal with run := d.cal.run.map fun r => { r with held := false } } }
  else d

/-- A learn interval of the residual canceller begins (R108). -/
def drcLearn (ch : Bool) (d : Dev) : Dev :=
  let w := cfg d (chReg ch 0x0B)
  if chainSampling (chain d ch) && bit w 0 then
    let d := drcLatch ch d
    setChain ch { chain d ch with learnEnd := some (d.now + 40 * fld w 15 8) } d
  else d

/-- CANC_CONVERGED (R75, R85, R87, R108): a searching canceller has come to a vector while its updates run; it has converged when
the residual at its ADC, in dBm at the port, is no higher than THR. A hop that waits for its seeded convergence is complete. -/
def execCancConverged (t : Nat) (chain : Bool) (wi wq : BitVec 10) (residual : Int) (s : State) : Out := s.run fun d =>
  let d := tick t d
  let c := canc d chain
  if c.st = .acq ∧ cancFree d chain ∧ residual ≤ toSigned 8 (fld (cfg d Reg.UHF_CANC_CFG) 15 8) then
    let d := drcLearn chain (setCanc chain { c with st := .track, wi := wi, wq := wq, ok := true, acqAcc := acqTicks d c, acqSince := none } d)
    if d.uhf.move.any Move.seeded ∧ seedWaits d = false then { d with uhf := { d.uhf with move := none } } else d
  else d

/-- CANC_TIMEOUT (R88): the search has run for TMO without convergence; it goes on. -/
def execCancTimeout (t : Nat) (chain : Bool) (s : State) : Out := s.run fun d =>
  let d := tick t d
  let c := canc d chain
  if c.st = .acq ∧ c.failed = false ∧ us (fld (cfg d Reg.UHF_CANC_CFG) 23 16) ≤ acqTicks d c then
    event Reg.UHF_EVENT (if chain then 4 else 3) (setCanc chain { c with failed := true } d)
  else d

/-- CANC_DATA_ACCESS (R89): one access of a reader to the seed port. -/
def execCancDataAccess (t : Nat) (r : Reader) (wr : Option Word) (s : State) : Out :=
  .next (regAccess t r false Reg.UHF_CANC_DATA wr s)

/-- SEED_CLEAR (R89): a 1 written to `UHF_CANC_IDX.CLR` invalidates every seed. -/
def execSeedClear (t : Nat) (r : Reader) (s : State) : Out :=
  .next (regAccess t r false Reg.UHF_CANC_IDX (some (0x80000000 ||| reg s.dev Reg.UHF_CANC_IDX)) s)

/-! Coexistence (R91-R93) -/

/-- Tick at which a SLOT wait of thread `n` ends: TIME pu after the start of the slot it takes, the present one if it was fetched
no later than that slot began, else the first selected slot to come (R147, R149). -/
def slotIssue (d : Dev) (n : Nat) : Option Nat :=
  let p := phaseAt d d.now
  let l := p / 1024
  let time := min 1023 (stepTime (thr d n).word)
  let at_ := fun (k : Nat) => 1024 * (l + k) + time
  let taken := fun (k : Nat) => k != 0 || (decide (d.tb.slot = some (buildingSlot d l) ∧ (thr d n).fetchAt ≤ d.tb.slotTick ∧ p ≤ at_ 0))
  ((List.range 1601).find? fun k => slotSel d n l k && taken k).map fun k => d.now + puTicksOf d (at_ k - p)
where
  /-- Fine ticks of a number of pu. -/
  puTicksOf (d : Dev) (pu : Nat) : Nat := puToQ d.tb.period pu / 256

/-- Instant of issue of a step that waits for a time (R91). -/
def issueAt (d : Dev) (n : Nat) : Option Nat :=
  let t := thr d n
  let w := t.word
  if t.st ≠ .waiting ∨ t.toFetch then none
  else match stepWk w with
  | 1 => some (max (t.fetchAt + 1) (t.fetchAt + stepTicksOf w))
  | 2 => some (max (t.fetchAt + 1) (t.anchor + stepTicksOf w))
  | 4 => if tbValid d then slotIssue d n else none
  | _ => none

/-- Raises COEX_REQ for a thread whose gated action is LEAD or less away (R91). -/
def coexLead (n : Nat) (d : Dev) : Dev :=
  let w := (thr d n).word
  let lead := us (fld (cfg d Reg.UHF_COEX_CFG) 15 8)
  match issueAt d n with
  | none => d
  | some i =>
    if actGated d w && !listenHop d w && coexFor d n w && !(coexReq (n == 3) d).req && decide (i ≤ d.now + lead) then
      coexRequest (n == 3) (max i ((thr d n).fetchAt + lead)) (bit w 3 && (stepAct w == 0x13 || stepAct w == 0x31)) d
    else d

/-- COEX_REQ_LEAD (R91, R93): LEAD before a planned start COEX_REQ rises. -/
def execCoexReqLead (t : Nat) (s : State) : Out := s.run fun d =>
  coexLead 3 (coexLead 0 (tick t d))

/-- COEX_GRANT (R91): COEX_GNT comes to its active level; held actions are tried again; without VIO_A it reads as no
grant (R410). -/
def execCoexGrant (t : Nat) (s : State) : Out := s.run fun d =>
  let d := tick t d
  if d.pmu.vioA = false then d
  else threadStep 3 (regate 3) (threadStep 0 (regate 0) { d with uhf := { d.uhf with gntPin := !bit (cfg d Reg.UHF_COEX_CFG) 5, gntOff := none } })

/-- A thread held for the grant alone ends COEX_DENIED when its hold is over (R83, R91). -/
def grantExpire (n : Nat) (d : Dev) : Dev :=
  let th := thr d n
  let hold := us (fld (cfg d Reg.UHF_COEX_CFG) 31 16)
  if th.st = .held ∧ th.gate = some .lock ∧ coexFor d n th.word ∧ gntCounts d = false ∧ (coexReq (n == 3) d).planned + hold ≤ d.now
      ∧ (n = 3 ∨ d.uhf.lock) then
    let d := event Reg.UHF_EVENT 5 d
    let d := if n = 0 then { d with uhf := { d.uhf with heldAt := none, exchange := false } } else d
    refuse n 0x21 (coexDrop (n == 3) false d)
  else d

/-- COEX_HOLD_EXPIRY (R83, R91): no grant within HOLD of the planned start. -/
def execCoexHoldExpiry (t : Nat) (s : State) : Out := s.run fun d =>
  grantExpire 3 (grantExpire 0 (tick t d))

/-- COEX_WITHDRAW (R92). -/
def execCoexWithdraw (t : Nat) (s : State) : Out := s.run fun d => coexWithdraw (tick t d)

/-! Blanking (R94) -/

/-- BLANK_INPUT (R94): a blanking input changes; its extension runs from the end of its active level. -/
def execBlankInput (t : Nat) (which level : Bool) (s : State) : Out := s.run fun d =>
  let d := tick t d
  let was := blankLevel d which
  let d := setBlank which { blankIn d which with level := level } d
  blankFollow (if was ∧ blankLevel d which = false then blankExtend which d else d)

/-- BLANK_EXT_EXPIRY (R94): the extension of an input ends. -/
def execBlankExtExpiry (t : Nat) (which : Bool) (s : State) : Out := s.run fun d =>
  let d := tick t d
  if (if which then d.uhf.blank1.extEnd else d.uhf.blank0.extEnd) ≤ t ∧ blankLevel d which = false then blankFollow d else d

/-- PA_BUCK (R453): the PA buck leaves its target with the carrier on. -/
def execPaBuck (t : Nat) (s : State) : Out := s.run fun d =>
  let d := tick t d
  if d.uhf.carrier then raiseFault 0x12 blkPa 0 d else d

end Sys2Proof.Machine
end

