-- ==== Sys2Proof/Machine/PmuRows.lean ====
section
/-! DEFINITION. The commands of power domains and supplies (R408-R426). -/
namespace Sys2Proof.Machine

/-- PMU_MODE_WRITE (R413, R414): one write of `PMU_MODE`. -/
def execPmuModeWrite (t : Nat) (r : Reader) (v : Word) (s : State) : Out :=
  .next (regAccess t r false Reg.PMU_MODE (some v) s)

/-- A domain that enters stops a run that uses it; the run is discarded (R436). -/
def calStopEntry (n : Nat) (d : Dev) : Dev :=
  if d.cal.run.any (fun r => (calDomains r.id).contains n || n == 12) then calStop d else d

/-- ENTRY_STAGE_DONE (R416-R420, R436): a stage of entry completes; a run of calibration ends for a domain that quiesces. -/
def execEntryStageDone (t : Nat) (dom : Fin 14) (s : State) : Out := s.run fun d =>
  let d := tick t d
  let n := dom.val
  let quiesces := match (Sys2Proof.Machine.dom d n).pos with | .entering _ 1 _ => true | _ => false
  entryStage n (if quiesces then calStopEntry n d else d)

/-- QUIESCE_TIMEOUT (R417). -/
def execQuiesceTimeout (t : Nat) (dom : Fin 14) (s : State) : Out := s.run fun d => entryRefuse dom.val (tick t d)

/-- WAKE_STAGE_DONE (R293, R422, R434): a stage of a wake reaches its ready signal; calibrations with no valid set become
pending when their domains first come ON, and firmware that has come up reports the mailbox. -/
def execWakeStageDone (t : Nat) (dom : Fin 14) (s : State) : Out :=
  let d := wakeStage dom.val (tick t s.dev)
  .next (mboxScanDue { s with dev := calOrder.foldl (fun d i => if calFirst d i then calPend i 1 d else d) d })

/-- AT_WAKE (R421): the cycle named by `PMU_WAKE_AT` starts while AT_EN is 1; it fires once per arming. -/
def execAtWake (t : Nat) (s : State) : Out := s.run fun d =>
  let d := tick t d
  if bit (reg d Reg.PMU_CFG) 8 ∧ stampL d = reg d Reg.PMU_WAKE_AT then
    event Reg.PMU_EVENT 7 (wakeByMask 6 Reg.PMU_WAKE_TIME (clearBit Reg.PMU_CFG 8 d))
  else d

/-- The inputs of VIO_A read as inactive (R410): no grant, no blanking. -/
def vioALost (d : Dev) : Dev :=
  let c := cfg d Reg.UHF_BLANK_CFG
  let was0 := blankLevel d false
  let was1 := blankLevel d true
  let gnt := gntOn d
  let d := { d with pmu := { d.pmu with vioA := false } }
  let d := if was0 then { d with uhf := { d.uhf with blank0 := { d.uhf.blank0 with extEnd := d.now + fld c 23 16 } } } else d
  let d := if was1 then { d with uhf := { d.uhf with blank1 := { d.uhf.blank1 with extEnd := d.now + fld c 31 24 } } } else d
  let d := blankFollow d
  if gnt then grantFell d else d

/-- VIO_CHANGE (R409, R410, R453): a rail crosses its level; a fall is recorded as VIO_LOSS. -/
def execVioChange (t : Nat) (railB up : Bool) (s : State) : Out := s.run fun d =>
  let d := tick t d
  let was := if railB then d.pmu.vioB else d.pmu.vioA
  if up = was then d
  else if up then
    (if railB then { d with pmu := { d.pmu with vioB := true } } else blankFollow { d with pmu := { d.pmu with vioA := true } })
  else
    let d := if railB then { d with pmu := { d.pmu with vioB := false } } else vioALost d
    recordFault 0x09 blkPmu 0 0 (event Reg.PMU_EVENT (if railB then 6 else 5) d)

/-- RF is emitted: a carrier on or ramping up, the HF field, or a ping (R411). -/
def emitting (d : Dev) : Bool :=
  d.uhf.carrier || d.uhf.move.any (fun m => m.ramp) || decide (d.hf.field ≠ 0) || decide (d.now < d.hf.pingEnd)

/-- VPA_CHANGE (R409, R411): VPA_IN crosses its level; a fall while the device emits is VPA_LOSS. -/
def execVpaChange (t : Nat) (up : Bool) (s : State) : Out := s.run fun d =>
  let d := tick t d
  if up = d.pmu.vpa then d
  else
    let d := { d with pmu := { d.pmu with vpa := up } }
    if up then d
    else
      let d := event Reg.PMU_EVENT 4 d
      if emitting d then raiseFault 0x08 blkPmu 0 d else d

end Sys2Proof.Machine
end

