-- ==== Sys2Proof/Machine/CalRows.lean ====
section
/-! DEFINITION. The commands of calibration and ageing (R431-R450). -/
namespace Sys2Proof.Machine

/-! Triggers (R433, R434) -/

/-- Temperature moved too far from its last run (R434). -/
def calTempDue (d : Dev) (i : Nat) : Bool :=
  calAuto d i && !calGoing d i && (match (calOf d i).lastTemp with | none => false | some t => calMoved d t)

/-- TEMP_SAMPLE (R433, R434, R440): with the core in service ON, the highest of the four sensors is shown; calibrations
become pending, and a change of 1 degC forms the codes again. -/
def execTempSample (t : Nat) (temp : Int) (s : State) : Out := s.run fun d =>
  let d := tick t d
  if domOn d (coreDom d) then
    let d := { d with cal := { d.cal with temp := temp } }
    let d := calOrder.foldl (fun d i => if calTempDue d i then calPend i 0 d else d) d
    if 4 ≤ (temp - d.cal.formed).natAbs then calFormAll d else d
  else d

/-! Start of a run (R435, R442) -/

/-- Instances of a CAL_RUN that runs. -/
def calCmdTodo (d : Dev) : List Nat :=
  match d.cal.cmd with
  | none => []
  | some c => if (findOp d c.tag).any (fun o => opLive o && decide (o.st = .running)) then c.todo else []

/-- It is to run: pending, or named by a CAL_RUN. -/
def calWanted (d : Dev) (i : Nat) : Bool := (calOf d i).pend || (calCmdTodo d).contains i

/-- Threads that use the domains of an instance (R435). -/
def calThreads (i : Nat) : List Nat :=
  match i with
  | 3 => [3]
  | 4 => [0, 1]
  | 6 => [0, 2]
  | 5 => [0, 2]
  | 2 => [0]
  | _ => [0, 1]

/-- No RF is emitted, no RF request is held, and neither safe state nor fence keeps calibrations from running. -/
def calQuiet (d : Dev) : Bool := !emitting d && d.uhf.heldAt.isNone && !d.svc.safe && !outOfService d blkCal && d.cal.run.isNone

/-- A run of it may start now (R435). -/
def calMay (d : Dev) (i : Nat) : Bool :=
  calWanted d i && (calDomains i).all (domOn d) && fitsGap d (calThreads i) (calTime i)

/-- Firmware requests ON for CAL and notes its former request (R435). -/
def calRequest (d : Dev) : Dev :=
  let x := dom d 12
  let d := { d with cal := { d.cal with former := some (d.cal.former.getD x.mode) } }
  requestMode 12 0 d

/-- A run of an instance starts: one of the receive filter bandwidth invalidates its chain's seeds (R89). -/
def calStart (i : Nat) (d : Dev) : Dev :=
  let d := if i = 1 ∨ i = 5 then seedsDrop (fun ch _ _ => ch == decide (i = 5)) d else d
  { d with cal := { d.cal with run := some ⟨i, false⟩ } }

/-- CAL_RUN_START (R435): the first instance in run order that may start does; CAL is requested ON first. -/
def execCalRunStart (t : Nat) (s : State) : Out := s.run fun d =>
  let d := opsSettle (tick t d)
  if calQuiet d then
    match calOrder.find? (calMay d) with
    | none => d
    | some i => if domOn d 12 then calStart i d else calRequest d
  else d

/-! End of a run (R437-R443) -/

/-- `CAL_TOL` of an instance. -/
def calTol (d : Dev) (i : Nat) : Nat := fld (reg d Reg.CAL_TOL) (4 * calBit i + 3) (4 * calBit i)

/-- Largest difference of two runs; runs of different shape never agree. -/
def calDiff (a b : List Int) : Nat :=
  if a.length = b.length then ((a.zip b).map fun p => (p.1 - p.2).natAbs).foldl max 0 else 0xFFFF

/-- Mean of two agreeing runs (R438). -/
def calMean (a b : List Int) : List Int := (a.zip b).map fun p => divEven (p.1 + p.2) 2

/-- Best spare a run could bring within range: the highest SNR, the lowest number among equals (R432). -/
def goodSpare (d : Dev) (ch : Bool) (bad : BitVec 18) : Option Nat :=
  ((List.range 18).filter fun s => !(activeNext d ch).getLsbD s && !(retiredOf d ch).contains s && !bad.getLsbD s).foldl
    (fun b s => match b with
      | none => some s
      | some p => if sliceSnr d ch p < sliceSnr d ch s then some s else some p) none

/-- Active slices out of range give way to spares (R432). -/
def calSlices (ch : Bool) (bad : BitVec 18) (d : Dev) : Dev :=
  (List.range 18).foldl (fun d s =>
    if (activeNext d ch).getLsbD s && bad.getLsbD s then
      match goodSpare d ch bad with
      | none => d
      | some p => setChain ch { chain d ch with nextActive := some ((activeNext d ch ||| sliceBit p) &&& ~~~ sliceBit s) } d
    else d) d

/-- SNR of the 18 slices of a chain as measured (R444). -/
def calSnr (ch : Bool) (snr : List Nat) (d : Dev) : Dev :=
  ((List.range 18).zip snr).foldl (fun d p =>
    { d with cal := { d.cal with snr := CMap.set (fun _ => 0) d.cal.snr ((if ch then 18 else 0) + p.1) (putB 15 true ||| put 7 0 p.2) } }) d

/-- Active slices below `CAL_MARGIN.SLICE_THR` raise SLICE_x, or NOSPARE_x with no spare left (R453). -/
def calSliceFaults (ch : Bool) (d : Dev) : Dev :=
  ((List.range 18).filter fun s => (activeNext d ch).getLsbD s && decide (sliceSnr d ch s < fld (reg d Reg.CAL_MARGIN) 7 0)).foldl
    (fun d s =>
      if (bestSpare d ch).isSome && decide ((retiredOf d ch).length < 2) then raiseFault (if ch then 0x21 else 0x20) (blkRx ch) s d
      else recordFault (if ch then 0x23 else 0x22) (blkRx ch) s 0 d) d

/-- Word 5 of the CAL record (R443). -/
def calInfo (d : Dev) (i : Nat) (m : CalMeasure) (codes : List Int) : Word :=
  match calBit i with
  | 0 => m.info
  | 1 => put 13 8 (nth 0 codes 1).toNat ||| put 5 0 (nth 0 codes 0).toNat
  | 2 => d.cal.crystal
  | 3 => put 23 16 (nth 0 codes 1).toNat ||| put 7 0 (nth 0 codes 0).toNat
  | _ => put 17 0 (activeNext d (decide (i = 6))).toNat

/-- CAL record (R443). -/
def calRecord (i : Nat) (failed : Bool) (set runs reason diff : Nat) (info : Word) (d : Dev) : Dev :=
  writeRecord 5 0x0801 [put 31 24 (if failed then 1 else 0) ||| put 23 20 (calIdCode i) ||| put 19 16 set ||| put 15 8 runs ||| put 7 0 reason,
    stampL d, stampH d, put 31 16 (min 0xFFFF diff) ||| put 15 0 (ofInt d.cal.temp).toNat, info] d

/-- REASON of the CAL record. -/
def calReason (d : Dev) (i : Nat) : Nat := if (calCmdTodo d).contains i then 2 else (calOf d i).reason

/-- A calibration has been judged: it is no longer pending, but for a request made while it ran (R434). -/
def calJudged (i : Nat) (failed : Bool) (d : Dev) : Dev :=
  let c := calOf d i
  setCal i { c with pend := c.again, again := false, failed := failed, accepted := c.accepted || !failed, reason := 0
                    runs := 0, disagree := 0, prev := none, lastTemp := some d.cal.temp } d

/-- The CAL_RUN that named it counts it, and ends with its last one (R340, R442). -/
def calCmdJudged (i : Nat) (failed : Bool) (d : Dev) : Dev :=
  match d.cal.cmd with
  | none => d
  | some c =>
    if (calCmdTodo d).contains i then
      let m := putB (calBit i) true
      let c := { c with todo := c.todo.filter (fun j => j ≠ i), okMask := if failed then c.okMask else c.okMask ||| m
                        failMask := if failed then c.failMask ||| m else c.failMask }
      let d := updOp c.tag (fun o => { o with progress := o.progress + 1 }) { d with cal := { d.cal with cmd := some c } }
      match findOp d c.tag with
      | none => d
      | some o => if c.todo = [] then doneOp o [c.okMask, c.failMask] d else progressRecord o d
    else d

/-- CAL goes back to its former request when nothing is pending (R435). -/
def calRest (d : Dev) : Dev :=
  if d.cal.inst.all (fun c => !c.pend) && d.cal.cmd.isNone then
    match d.cal.former with
    | none => d
    | some m => requestMode 12 m { d with cal := { d.cal with former := none } }
  else d

/-- Acceptance (R437-R443): `codes` is the mean of the two agreeing runs. -/
def calAccept (i : Nat) (m : CalMeasure) (codes : List Int) (diff : Nat) (d : Dev) : Dev :=
  let c := calOf d i
  let reason := calReason d i
  let kept := m.storeOk && !fenced d blkKeep
  let k := calBand d.cal.temp
  let d := if i = 4 ∨ i = 6 then calSlices (decide (i = 6)) m.badSlices (calSnr (decide (i = 6)) m.snr d) else d
  let d := if i = 2 ∧ d.tb.st = .locked then { d with cal := { d.cal with crystal := m.info } } else d
  let d := if kept then
      let d := keepWrite (520 + 8 * i + k)
        (setCal i { c with sets := upd CalSet.reset c.sets k ⟨true, d.cal.temp, codes, setCrc d.cal.temp codes⟩ } d)
      setCal i { calOf d i with next := calForm d i } d
    else setCal i { c with next := some codes } d
  let d := retake d
  let d := if kept then d else event Reg.CAL_EVENT 2 d
  let d := if m.storeOk then d else raiseFault 0x44 blkKeep 0 d
  let d := setReg Reg.CAL_LAST (stampL d) (count Reg.CAL_COUNT 31 16 1 (event Reg.CAL_EVENT 0 d))
  let d := { d with cal := { d.cal with lastId := calIdCode i } }
  let d := calRecord i false (if kept then k else 0xF) (c.runs + 1) reason diff (calInfo d i m codes) d
  let d := calCmdJudged i false (calJudged i false d)
  if i = 4 ∨ i = 6 then calSliceFaults (decide (i = 6)) d else d

/-- The third disagreeing attempt (R437): FAILED; the codes in force stay. -/
def calFail (i : Nat) (m : CalMeasure) (diff : Nat) (d : Dev) : Dev :=
  let c := calOf d i
  let d := count Reg.CAL_COUNT 15 0 1 (event Reg.CAL_EVENT 1 d)
  let d := calRecord i true 0xF (c.runs + 1) (calReason d i) diff (calInfo d i m m.codes) d
  recordFault 0x50 blkCal 0 0 (calCmdJudged i true (calJudged i true d))

/-- A run has ended: compared with the run before it (R437). -/
def calJudge (i : Nat) (m : CalMeasure) (d : Dev) : Dev :=
  let c := calOf d i
  match c.prev with
  | none => setCal i { c with prev := some m.codes, runs := c.runs + 1 } d
  | some p =>
    let diff := calDiff p m.codes
    if diff ≤ calTol d i then calAccept i m (calMean p m.codes) diff d
    else if 2 ≤ c.disagree then calFail i m diff d
    else setCal i { c with prev := some m.codes, runs := c.runs + 1, disagree := c.disagree + 1 } d

/-- CAL_RUN_DONE (R437-R443): the run in progress ends and is judged. -/
def execCalRunDone (t : Nat) (m : CalMeasure) (s : State) : Out := s.run fun d =>
  let d := tick t d
  match d.cal.run with
  | none => d
  | some r => if r.held then d else calRest (calJudge r.id m { d with cal := { d.cal with run := none } })

/-! Age (R444-R448) -/

/-- Terms of the exponential series at `x` in units of 2^-60, from term `n` on. -/
def expTerms (x : Nat) : Nat → Nat → Nat → Nat
  | 0, _, _ => 0
  | fuel + 1, n, term => term + expTerms x fuel (n + 1) (term * x / 2 ^ 60 / (n + 1))

/-- Stress of one hour at a die temperature in 0.25 degC, in units of 2^-48 h:
exp(8,123.5 x (1/378.15 - 1/(T + 273.15))) (R445). -/
def stressHour (temp : Int) : Nat :=
  let kelvin := max 1 (25 * temp + 27315).toNat
  let a := 812350 * 2 ^ 60 / 37815
  let b := 812350 * 2 ^ 60 / kelvin
  if b ≤ a then expTerms (a - b) 80 0 (2 ^ 60) / 2 ^ 12
  else if 40 * 2 ^ 60 < b - a then 0
  else 2 ^ 108 / max 1 (expTerms (b - a) 200 0 (2 ^ 60))

/-- AGE_HOUR (R445): an hour's stress is counted and kept. -/
def execAgeHour (t : Nat) (s : State) : Out := s.run fun d =>
  let d := tick t d
  keepWrite 516 { d with cal := { d.cal with hours := d.cal.hours + stressHour d.cal.temp } }

/-- Quotient rounded up. -/
def ceilDiv (a b : Nat) : Nat := (a + b - 1) / b

/-- SNR codes of the active slices of a chain. -/
def activeSnr (d : Dev) (ch : Bool) : List Nat := ((List.range 18).filter fun s => (chain d ch).active.getLsbD s).map (sliceSnr d ch)

/-- Mean period of the last 24 h of LOCKED operation against 50 or 60 Hz, whichever is nearer, in 0.01 ppm (R444); none before any
LOCKED cycle. `total` thirds of a period of 1/256 tick are compared with those of `n` nominal ones. -/
def xoDev (hist : List Nat) : Option Int :=
  let n := hist.length
  let total : Int := 3 * (hist.foldl (· + ·) 0 : Nat)
  let nominal : Nat := if (total - n * 2457600000).natAbs ≤ (total - n * 2048000000).natAbs then 2457600000 else 2048000000
  if n = 0 then none else some (divEven ((total - n * nominal) * 100000000) (n * nominal))

/-- What a re-plan finds (R444): its measurement, the crystal's drift since the first re-plan in 0.01 ppm, and the writes to the
most-written record area of the keeping store and the mailbox. -/
structure AgeFound where
  ro : Nat
  pa : Int
  hf : Int
  xo : Int
  fram : Nat

/-- Writes to the most-written record area. -/
def mostWritten (d : Dev) (g : Tagm) : Nat := (d.svc.writes ++ g.writes).foldl (fun m e => max m e.2) 0

/-- The monitors at a re-plan; the crystal's drift stays as shown while there is no LOCKED cycle to measure. -/
def ageFound (d : Dev) (g : Tagm) (m : AgeMeasure) : AgeFound :=
  let xo := match xoDev d.cal.lockHist with
    | none => (reg d Reg.CAL_AGE_XO).toInt
    | some x => x - d.cal.xoRef.getD x
  ⟨m.ro, m.pa, m.hf, xo, mostWritten d g⟩

/-- Margins by the rules of R446, before they are held: FBB, RBB, VRET in 10 mV, HEAD, HFHEAD, GFLOOR. -/
def planBias (m : AgeFound) : Nat × Nat × Nat := (40 + m.ro / 2500, 60 - m.ro / 5000, 55 + m.ro / 10000)
def planHead300 (m : AgeFound) : Nat := 30 + 10 * ceilDiv m.pa.toNat 25
def planHf (m : AgeFound) : Nat := 50 + 5 * ceilDiv m.hf.natAbs 50
def planFloor (m : AgeFound) : Nat := 2 + ceilDiv m.xo.natAbs 500

/-- A rule reached its limit, or the gain loss passes 1.75 dB (R446). -/
def planLimit (m : AgeFound) : Bool :=
  let (f, r, v) := planBias m
  decide (60 ≤ f ∨ r ≤ 40 ∨ 65 ≤ v ∨ 100 ≤ planHead300 m ∨ 175 < m.pa ∨ 150 ≤ planHf m ∨ 16 ≤ planFloor m)

/-- `PMU_BIAS` after a re-plan: no margin moves back. -/
def planBiasWord (d : Dev) (m : AgeFound) : Word :=
  let w := reg d Reg.PMU_BIAS
  let (f, r, v) := planBias m
  put 23 16 (max (fld w 23 16) (min 60 f)) ||| put 15 8 (min (fld w 15 8) (max 40 r)) ||| put 7 0 (max (fld w 7 0) (min 65 v))

/-- Slice threshold (R446): the median of the active slices less RDROP, never below 52 dB. -/
def planThr (d : Dev) : Nat :=
  if d.cal.snr = [] then fld (reg d Reg.CAL_MARGIN) 7 0
  else min 0xFF (max 208 (Config.sliceMedian (activeSnr d false) (activeSnr d true) - fld (reg d Reg.CAL_REPLAN) 7 0))

/-- `CAL_MARGIN` after a re-plan. -/
def planMarginWord (d : Dev) (m : AgeFound) : Word :=
  let w := reg d Reg.CAL_MARGIN
  put 29 24 (max (fld w 29 24) (min 16 (planFloor m))) ||| put 23 16 (max (fld w 23 16) (min 100 (planHead300 m)))
    ||| put 15 8 (max (fld w 15 8) (min 150 (planHf m))) ||| put 7 0 (max (fld w 7 0) (planThr d))

/-- A re-plan is due: after a power-up of CAL, or INTERVAL hours after the last (R446). -/
def planDue (d : Dev) : Bool :=
  d.cal.replanUp || decide (d.cal.replanAt + max 1 (fld (reg d Reg.CAL_REPLAN) 23 16) * 576000000000 ≤ d.now)

/-- The monitors are shown (R444). -/
def showAge (m : AgeFound) (d : Dev) : Dev :=
  setReg Reg.CAL_AGE_FRAM (putB 31 (decide (10 ^ 12 < m.fram)) ||| put 30 0 (min 0x7FFFFFFF (m.fram / 1024)))
    (setReg Reg.CAL_AGE_XO (ofInt m.xo)
      (setReg Reg.CAL_AGE_PA (put 31 16 (ofInt m.hf).toNat ||| put 15 0 (ofInt m.pa).toNat)
        (setReg Reg.CAL_AGE_RO (nw m.ro) d)))

/-- A re-plan (R446-R448). -/
def replan (m : AgeFound) (d : Dev) : Dev :=
  let cause : Nat := if d.cal.replanUp then 1 else 0
  let d := showAge m { d with cal := { d.cal with
    replanUp := false, replanAt := d.now, xoRef := d.cal.xoRef.or (xoDev d.cal.lockHist) } }
  let bias := reg d Reg.PMU_BIAS
  let marg := reg d Reg.CAL_MARGIN
  let bias' := planBiasWord d m
  let marg' := planMarginWord d m
  let ne := fun (hi lo : Nat) => fld marg hi lo != fld marg' hi lo
  let d := setReg Reg.CAL_MARGIN marg' (setReg Reg.PMU_BIAS bias' d)
  let d := if ne 23 16 || fld bias 23 16 != fld bias' 23 16 then calPend 0 3 d else d
  let d := if ne 7 0 then calPend 6 3 (calPend 4 3 d) else d
  let d := if ne 29 24 then turnReserves d else d
  let lim := planLimit m
  let d := event Reg.CAL_EVENT 3 d
  let d := writeRecord 5 0x0802 [put 31 24 cause ||| putB 16 (bias != bias') ||| putB 17 (ne 23 16) ||| putB 18 (ne 15 8)
      ||| putB 19 (ne 7 0) ||| putB 20 (ne 29 24) ||| putB 0 lim, stampL d, stampH d, nw m.ro,
      put 31 16 (ofInt m.hf).toNat ||| put 15 0 (ofInt m.pa).toNat, ofInt m.xo, bias', marg'] d
  if lim then recordFault 0x51 blkCal 0 0 (event Reg.CAL_EVENT 4 d) else d

/-- REPLAN (R446-R448): with AGE_EN at 1, CAL ON and no calibration running, a re-plan that is due is made. -/
def execReplan (t : Nat) (m : AgeMeasure) (s : State) : Out := s.run fun d =>
  let d := tick t d
  if bit (reg d Reg.CAL_CTRL) 8 && domOn d 12 && d.cal.run.isNone && planDue d then replan (ageFound d s.tagm m) d else d

/-- CAL_SNR_DATA_READ (R449): the SNR of the slice at the pointer, which moves on. -/
def execCalSnrDataRead (t : Nat) (r : Reader) (s : State) : Out :=
  .next (regAccess t r false Reg.CAL_SNR_DATA none s)

end Sys2Proof.Machine
end

