-- ==== Sys2Proof/Machine/CombRows.lean ====
section
/-! DEFINITION. The commands of the Comb and Damask that no instruction makes: the background sweep, row sparing, dumps,
epochs and a sweep that waits for room (R225-R244). -/
namespace Sys2Proof.Machine

/-- The sweep runs while MEM_COMB and CORE_M are ON (R230) and COMB is not fenced; it waits at a row that is being copied. -/
def sweepRuns (d : Dev) : Bool :=
  domOn d 5 && domOn d (coreDom d) && !fenced d 0x05 &&
    (match d.comb.sparing with | none => true | some (b, e) => b != d.comb.pos / 8 || decide (e ≤ d.now))

/-- SWEEP_VISIT (R230, R234, R235): the background sweep visits the next cell, SWEEP_RATE of them in a mains cycle; a COMB_SWEEP in progress takes its next
bucket. -/
def execSweepVisit (t : Nat) (s : State) : Out := s.run fun d =>
  let d := tick t d
  if sweepRuns d ∧ visitsLeft d ≠ 0 then
    let d := visitCount d
    let c := d.comb.pos
    let d := if d.comb.retired.contains (c / 8) then d else combVisit c d
    sweepStep { d with comb := { d.comb with pos := (c + 1) % 131072 } }
  else d

/-- The home cell that a cell belongs to. -/
def cellOwner (d : Dev) (c : Nat) : Option Nat :=
  if cellHome d c then some c else (homeCells d).find? fun h => (cellChain d h).contains c

/-- A tag whose data is lost: its cells are freed with a LOST record (R236). -/
def cellLose (c : Nat) (d : Dev) : Dev :=
  match cellOwner d c with
  | none => d
  | some h => lostRecord h (cellFree h d)

/-- A row with an uncorrectable error, or with SPARE_THR corrected ones, is copied to a spare row, or retired when none is
left (R236). -/
def rowSpare (b : Nat) (uncor : List Nat) (d : Dev) : Dev :=
  let d := uncor.foldl (fun d i => cellLose (8 * b + i % 8) d) d
  if 0 < d.comb.spares then
    let d := { d with comb := { d.comb with spares := d.comb.spares - 1, sparing := some (b, d.now + 256), fixes := CMap.del d.comb.fixes b } }
    raiseFault 0x40 blkComb b (event Reg.COMB_EVENT 3 d)
  else
    let d := (List.range 8).foldl (fun d i => cellLose (8 * b + i) d) d
    let d := { d with comb := { d.comb with retired := d.comb.retired ++ [b], fixes := CMap.del d.comb.fixes b } }
    raiseFault 0x41 blkComb b (event Reg.COMB_EVENT 4 d)

/-- ROW_SPARE (R236): ECC errors in a bucket's row: a corrected one when no cell is uncorrectable. -/
def execRowSpare (t bucket : Nat) (uncor : List Nat) (s : State) : Out := s.run fun d =>
  let d := tick t d
  let d := match d.comb.sparing with
    | some (_, e) => if e ≤ t then { d with comb := { d.comb with sparing := none } } else d
    | none => d
  if 16384 ≤ bucket ∨ d.comb.retired.contains bucket ∨ domOn d 5 = false ∨ fenced d 0x05 then d
  else if uncor.isEmpty then
    let n := CMap.get (fun _ => 0) d.comb.fixes bucket + 1
    let d := count Reg.COMB_ECC 15 0 1 { d with comb := { d.comb with fixes := CMap.set (fun _ => 0) d.comb.fixes bucket n } }
    if max 1 (fld (reg d Reg.COMB_CFG) 11 8) ≤ n then rowSpare bucket [] d else d
  else rowSpare bucket uncor (count Reg.COMB_ECC 31 16 uncor.length d)

/-- COMB_DUMP_READ (R235): one read of a reader at the dump port. -/
def execCombDumpRead (t : Nat) (r : Reader) (s : State) : Out := .next (regAccess t r false Reg.COMB_DUMP_DATA none s)

/-- EPOCH_ADVANCE (R48, R238): the whole epochs that have elapsed advance E, with one EPOCH record. -/
def execEpochAdvance (t : Nat) (s : State) : Out := s.run fun d =>
  let d := tick t d
  let len := epochLen d * 9600000000
  let n := (t - d.dmk.since) / len
  if 0 < n ∧ domOn d (coreDom d) then
    epochRecord false <| keepWrite 517 { d with dmk := { d.dmk with epoch := d.dmk.epoch + nw n, since := d.dmk.since + n * len } }
  else d

/-- DMK_CFG_WRITE (R240): one write of `COMB_DMK_CFG`. -/
def execDmkCfgWrite (t : Nat) (r : Reader) (v : Word) (s : State) : Out :=
  .next (regAccess t r false Reg.COMB_DMK_CFG (some v) s)

/-- SWEEP_ROOM_WAIT_END (R235): a sweep that waits at a bucket boundary goes on when its ring has room. -/
def execSweepRoomWaitEnd (t : Nat) (s : State) : Out := s.run fun d =>
  let d := tick t d
  if domOn d 5 then sweepStep d else d

end Sys2Proof.Machine
end

