-- ==== Sys2Proof/Machine/Commands.lean ====
section
/-! DEFINITION. The commands that packets carry, one for each opcode and each action or mode the table names (R330-R342). -/
namespace Sys2Proof.Machine

/-- PACKET_TAKE (R331): firmware takes the next packet and serves it. -/
def execPacketTake (t : Nat) (s : State) : Out :=
  let s := hostRun { s with dev := tick t s.dev }
  .next (if fwTakes s.dev then packetTake s else s)

/-- NOP (R340): an OK REPLY. -/
def execCmdNop (t : Nat) (p : Packet) (s : State) : Out := .next (command t 0x000 p s)

/-- GET_INFO (R340). -/
def execGetInfo (t : Nat) (p : Packet) (s : State) : Out := .next (command t 0x001 p s)

/-- SET_TURN (R163, R165, R369): a turn is armed; the REPLY follows the commit. -/
def execSetTurn (t : Nat) (p : Packet) (s : State) : Out := .next (command t 0x002 p s)

/-- SUSPEND (R338). -/
def execSuspend (t : Nat) (p : Packet) (s : State) : Out := .next (command t 0x003 p s)

/-- RESUME (R338). -/
def execResume (t : Nat) (p : Packet) (s : State) : Out := .next (command t 0x004 p s)

/-- CANCEL (R338). -/
def execCancel (t : Nat) (p : Packet) (s : State) : Out := .next (command t 0x005 p s)

/-- QUERY_OP (R340). -/
def execQueryOp (t : Nat) (p : Packet) (s : State) : Out := .next (command t 0x006 p s)

/-- DATA (R333): further words of a block. -/
def execData (t : Nat) (p : Packet) (s : State) : Out := .next (command t 0x007 p s)

/-- TIME_READ (R340): six timebase words of one fine tick. -/
def execTimeRead (t : Nat) (p : Packet) (s : State) : Out := .next (command t 0x100 p s)

/-- LISTEN (R340): a scan of channel entries is accepted. -/
def execListen (t : Nat) (p : Packet) (s : State) : Out := .next (command t 0x200 p s)

/-- INVENTORY (R172, R340): a campaign is accepted. -/
def execInventory (t : Nat) (p : Packet) (s : State) : Out := .next (command t 0x300 p s)

/-- SELECT_SET (R178, R340): a Select frame is written between rounds. -/
def execSelectSet (t : Nat) (p : Packet) (s : State) : Out := .next (command t 0x301 p s)

/-- TAG_READ (R201, R341): an access operation is accepted. -/
def execTagRead (t : Nat) (p : Packet) (s : State) : Out := .next (command t 0x400 p s)

/-- TAG_WRITE (R201, R341): an access operation is accepted. -/
def execTagWrite (t : Nat) (p : Packet) (s : State) : Out := .next (command t 0x401 p s)

/-- TAG_BLOCKWRITE (R201, R341): an access operation is accepted. -/
def execTagBlockwrite (t : Nat) (p : Packet) (s : State) : Out := .next (command t 0x402 p s)

/-- TAG_BLOCKERASE (R201, R341): an access operation is accepted. -/
def execTagBlockerase (t : Nat) (p : Packet) (s : State) : Out := .next (command t 0x403 p s)

/-- TAG_LOCK (R201, R341): an access operation is accepted. -/
def execTagLock (t : Nat) (p : Packet) (s : State) : Out := .next (command t 0x404 p s)

/-- TAG_KILL (R201, R341): an access operation is accepted. -/
def execTagKill (t : Nat) (p : Packet) (s : State) : Out := .next (command t 0x405 p s)

/-- TAG_PERMALOCK (R201, R341): an access operation is accepted. -/
def execTagPermalock (t : Nat) (p : Packet) (s : State) : Out := .next (command t 0x406 p s)

/-- TAG_UNTRACEABLE (R201, R341): an access operation is accepted. -/
def execTagUntraceable (t : Nat) (p : Packet) (s : State) : Out := .next (command t 0x407 p s)

/-- TAG_AUTH (R201, R341): an access operation is accepted. -/
def execTagAuth (t : Nat) (p : Packet) (s : State) : Out := .next (command t 0x408 p s)

/-- HF_CAMPAIGN (R262, R340). -/
def execHfCampaign (t : Nat) (p : Packet) (s : State) : Out := .next (command t 0x500 p s)

/-- HF_APDU (R266, R340): a block-protocol command is accepted. -/
def execHfApdu (t : Nat) (p : Packet) (s : State) : Out := .next (command t 0x501 p s)

/-- HF_RELEASE (R266, R340): the card session ends. -/
def execHfRelease (t : Nat) (p : Packet) (s : State) : Out := .next (command t 0x502 p s)

/-- MBOX_READ (R289, R296). -/
def execMboxRead (t : Nat) (p : Packet) (s : State) : Out := .next (command t 0x601 p s)

/-- MBOX_WRITE (R290, R296). -/
def execMboxWrite (t : Nat) (p : Packet) (s : State) : Out := .next (command t 0x602 p s)

/-- COMB_SWEEP_REPORT (R235): a sweep with ACTION 0. -/
def execCombSweepReport (t : Nat) (p : Packet) (s : State) : Out := .next (command t 0x700 (fixW0 26 24 0 p) s)

/-- COMB_SWEEP_PURGE (R235): a sweep with ACTION 1. -/
def execCombSweepPurge (t : Nat) (p : Packet) (s : State) : Out := .next (command t 0x700 (fixW0 26 24 1 p) s)

/-- COMB_SWEEP_DEPART (R235): a sweep with ACTION 2. -/
def execCombSweepDepart (t : Nat) (p : Packet) (s : State) : Out := .next (command t 0x700 (fixW0 26 24 2 p) s)

/-- COMB_SWEEP_PIN (R235): a sweep with ACTION 3. -/
def execCombSweepPin (t : Nat) (p : Packet) (s : State) : Out := .next (command t 0x700 (fixW0 26 24 3 p) s)

/-- COMB_SWEEP_UNPIN (R235): a sweep with ACTION 4. -/
def execCombSweepUnpin (t : Nat) (p : Packet) (s : State) : Out := .next (command t 0x700 (fixW0 26 24 4 p) s)

/-- COMB_SWEEP_LINK (R235): a sweep with ACTION 5. -/
def execCombSweepLink (t : Nat) (p : Packet) (s : State) : Out := .next (command t 0x700 (fixW0 26 24 5 p) s)

/-- COMB_LOOKUP (R235, R340). -/
def execCombLookup (t : Nat) (p : Packet) (s : State) : Out := .next (command t 0x701 p s)

/-- DAMASK_KEY_LOAD (R239): DAMASK_KEY with MODE 0. -/
def execDamaskKeyLoad (t : Nat) (p : Packet) (s : State) : Out := .next (command t 0x710 (fixW0 2 0 0 p) s)

/-- DAMASK_KEY_GENERATE (R239): DAMASK_KEY with MODE 1. -/
def execDamaskKeyGenerate (t : Nat) (p : Packet) (s : State) : Out := .next (command t 0x710 (fixW0 2 0 1 p) s)

/-- DAMASK_KEY_MARK_NX (R239): DAMASK_KEY with MODE 2. -/
def execDamaskKeyMarkNx (t : Nat) (p : Packet) (s : State) : Out := .next (command t 0x710 (fixW0 2 0 2 p) s)

/-- DAMASK_KEY_EXPORT (R239): DAMASK_KEY with MODE 3. -/
def execDamaskKeyExport (t : Nat) (p : Packet) (s : State) : Out := .next (command t 0x710 (fixW0 2 0 3 p) s)

/-- DAMASK_KEY_ERASE (R239): DAMASK_KEY with MODE 4. -/
def execDamaskKeyErase (t : Nat) (p : Packet) (s : State) : Out := .next (command t 0x710 (fixW0 2 0 4 p) s)

/-- DAMASK_EPOCH (R238). -/
def execDamaskEpoch (t : Nat) (p : Packet) (s : State) : Out := .next (command t 0x711 p s)

/-- CAL_RUN (R442). -/
def execCalRun (t : Nat) (p : Packet) (s : State) : Out := .next (command t 0x800 p s)

/-- ONLINE_TEST (R466). -/
def execOnlineTest (t : Nat) (p : Packet) (s : State) : Out := .next (command t 0x801 p s)

/-- SERVICE_FENCE (R468): SERVICE with action 0. -/
def execServiceFence (t : Nat) (p : Packet) (s : State) : Out := .next (command t 0x802 (fixW0 3 0 0 p) s)

/-- SERVICE_UNFENCE (R468): SERVICE with action 1. -/
def execServiceUnfence (t : Nat) (p : Packet) (s : State) : Out := .next (command t 0x802 (fixW0 3 0 1 p) s)

/-- SERVICE_RETIRE (R468): SERVICE with action 2. -/
def execServiceRetire (t : Nat) (p : Packet) (s : State) : Out := .next (command t 0x802 (fixW0 3 0 2 p) s)

/-- LEAVE_SAFE (R468): SERVICE with action 3. -/
def execLeaveSafe (t : Nat) (p : Packet) (s : State) : Out := .next (command t 0x802 (fixW0 3 0 3 p) s)

/-- ENTER_SAFE (R468): SERVICE with action 4. -/
def execEnterSafe (t : Nat) (p : Packet) (s : State) : Out := .next (command t 0x802 (fixW0 3 0 4 p) s)

/-- LEDGER_READ (R464). -/
def execLedgerRead (t : Nat) (p : Packet) (s : State) : Out := .next (command t 0x803 p s)

/-- IMAGE_COMMIT (R403). -/
def execImageCommit (t : Nat) (p : Packet) (s : State) : Out := .next (command t 0x900 p s)

/-- APPLET_START (R396). -/
def execAppletStart (t : Nat) (p : Packet) (s : State) : Out := .next (command t 0x901 p s)

/-- APPLET_STOP (R396). -/
def execAppletStop (t : Nat) (p : Packet) (s : State) : Out := .next (command t 0x902 p s)

/-- SWAP_CORE (R405). -/
def execSwapCore (t : Nat) (p : Packet) (s : State) : Out := .next (command t 0x903 p s)

/-- APPLET_CMD (R398). -/
def execAppletCmd (t : Nat) (p : Packet) (s : State) : Out := .next (command t 0x904 p s)

end Sys2Proof.Machine
end

