-- ==== Sys2Proof/Machine/Coproc.lean ====
section
/-! DEFINITION. The coprocessor instructions and the customer instructions (R387-R392). -/
namespace Sys2Proof.Machine

/-- TSTART (R144, R387). -/
def execTstart (rd ra rb : BitVec 5) (s : State) : Out := cpInstr 0 0 rd ra rb s

/-- THALT (R144, R387). -/
def execThalt (rd ra rb : BitVec 5) (s : State) : Out := cpInstr 0 1 rd ra rb s

/-- TPATCH (R166, R387). -/
def execTpatch (rd ra rb : BitVec 5) (s : State) : Out := cpInstr 0 2 rd ra rb s

/-- SWFLAG (R157, R387). -/
def execSwflag (rd ra rb : BitVec 5) (s : State) : Out := cpInstr 0 3 rd ra rb s

/-- ABREQ (R159, R387). -/
def execAbreq (rd ra rb : BitVec 5) (s : State) : Out := cpInstr 0 4 rd ra rb s

/-- TRESUME (R160, R387). -/
def execTresume (rd ra rb : BitVec 5) (s : State) : Out := cpInstr 0 5 rd ra rb s

/-- CONDRD (R154, R387). -/
def execCondrd (rd ra rb : BitVec 5) (s : State) : Out := cpInstr 0 6 rd ra rb s

/-- LOGPOP (R158, R387). -/
def execLogpop (rd ra rb : BitVec 5) (s : State) : Out := cpInstr 0 7 rd ra rb s

/-- DOORBELL (R158, R387). -/
def execDoorbell (rd ra rb : BitVec 5) (s : State) : Out := cpInstr 0 8 rd ra rb s

/-- CP1_PLACE (R227, R229, R387). -/
def execCp1Place (rd ra rb : BitVec 5) (s : State) : Out := cpInstr 1 0 rd ra rb s

/-- CP1_LOOKUP (R227, R387). -/
def execCp1Lookup (rd ra rb : BitVec 5) (s : State) : Out := cpInstr 1 1 rd ra rb s

/-- CP1_CELLRD (R235, R387). -/
def execCp1Cellrd (rd ra rb : BitVec 5) (s : State) : Out := cpInstr 1 2 rd ra rb s

/-- CP1_SWEEP (R230, R235, R387). -/
def execCp1Sweep (rd ra rb : BitVec 5) (s : State) : Out := cpInstr 1 3 rd ra rb s

/-- CP1_FREE (R226, R387). -/
def execCp1Free (rd ra rb : BitVec 5) (s : State) : Out := cpInstr 1 4 rd ra rb s

/-- CP2_CRCINIT (R387). -/
def execCp2Crcinit (rd ra rb : BitVec 5) (s : State) : Out := cpInstr 2 0 rd ra rb s

/-- CP2_CRCFEED (R387). -/
def execCp2Crcfeed (rd ra rb : BitVec 5) (s : State) : Out := cpInstr 2 1 rd ra rb s

/-- CP2_CRCRD (R387). -/
def execCp2Crcrd (rd ra rb : BitVec 5) (s : State) : Out := cpInstr 2 2 rd ra rb s

/-- CP3_PSEUD (R237, R387). -/
def execCp3Pseud (rd ra rb : BitVec 5) (s : State) : Out := cpInstr 3 0 rd ra rb s

/-- CP3_EPKEY (R237, R387). -/
def execCp3Epkey (rd ra rb : BitVec 5) (s : State) : Out := cpInstr 3 1 rd ra rb s

/-- CP3_SIPHASH (R387). -/
def execCp3Siphash (rd ra rb : BitVec 5) (s : State) : Out := cpInstr 3 2 rd ra rb s

/-! Customer instructions (R388-R392) -/

/-- How a micro-program ends: with the value of rd, or in a trap and its address where it has one. -/
inductive UcRes where
  | done (s : State) (rd : Word)
  | trap (s : State) (cause : Nat) (tval : Option Word)

/-- The operands of a customer instruction and its temporaries. -/
structure UcRegs where
  rd : Word
  ra : Word
  rb : Word
  imm : Word
  t : List Word

/-- Value of an operand code (R389); none for 11 to 15. -/
def ucOperand (r : UcRegs) (k : Nat) (code : Nat) : Option Word :=
  match code with
  | 0 => some 0
  | 1 => some r.rd
  | 2 => some r.ra
  | 3 => some r.rb
  | 8 => some r.imm
  | 9 => some (nw k)
  | 10 => some (ofInt (toSigned 16 k))
  | c => if c < 8 then some (nth 0 r.t (c - 4)) else none

/-- A destination takes a value (R389): discard, rd, t0 to t3. -/
def ucDest (r : UcRegs) (dst : Nat) (v : Word) : UcRegs :=
  if dst = 1 then { r with rd := v } else if 4 ≤ dst then { r with t := upd 0 r.t (dst - 4) v } else r

/-- The operations that compute a value (R390). -/
def ucAlu (op : Nat) (r : UcRegs) (a b : Word) : Option Word :=
  match op with
  | 0x01 => some (a + b)
  | 0x02 => some (a - b)
  | 0x03 => some (a &&& b)
  | 0x04 => some (a ||| b)
  | 0x05 => some (a ^^^ b)
  | 0x06 => some (a <<< (b.toNat % 32))
  | 0x07 => some (a >>> (b.toNat % 32))
  | 0x08 => some (a.sshiftRight (b.toNat % 32))
  | 0x09 => some (a.rotateLeft (b.toNat % 32))
  | 0x0A => some (a * b)
  | 0x0B => some (mulhu a b)
  | 0x0C => some (minS a b)
  | 0x0D => some (maxS a b)
  | 0x0E => some (minU a b)
  | 0x0F => some (maxU a b)
  | 0x10 => some (clz a)
  | 0x11 => some (popc a)
  | 0x12 => some (if nth 0 r.t 3 ≠ 0 then a else b)
  | 0x13 => some (sltu a b)
  | _ => none

/-- What a micro-op does: the machine and registers after it, or its trap. -/
inductive UcStep where
  | next (s : State) (r : UcRegs)
  | trap (s : State) (cause : Nat) (tval : Option Word)

/-- Sizes of the loads and stores (R390). -/
def ucSize (op : Nat) : Nat := match op with | 0x14 => 4 | 0x15 => 2 | 0x16 => 1 | 0x17 => 4 | 0x18 => 2 | _ => 1

/-- The effect of a micro-op with its operands' values (R390, R391). -/
def ucAct (sup : Bool) (w : BitVec 48) (dst : Nat) (a b : Word) (r : UcRegs) (s : State) : UcStep :=
  let op := fld w 46 42
  let addr := a + ofInt (toSigned 16 (fld w 15 0))
  if op = 0x00 ∨ op = 0x1B ∨ op = 0x1C then .next s r
  else if 0x14 ≤ op ∧ op ≤ 0x16 then
    (match accessTrap sup false (ucSize op) addr false with
     | some cause => .trap s cause (some addr)
     | none =>
       let (s, v) := loadDatum sup false (ucSize op) addr s
       .next s (ucDest r dst v))
  else if 0x17 ≤ op ∧ op ≤ 0x19 then
    (match accessTrap sup true (ucSize op) addr false with
     | some cause => .trap s cause (some addr)
     | none => .next (storeDatum sup (ucSize op) addr b s) r)
  else if op = 0x1A then
    (match cpFn (fld w 29 28) (fld w 27 19) r.rd a b s with
     | .ok s v => .next s (ucDest r dst v)
     | .trap s cause => .trap s cause none)
  else match ucAlu op r a b with
  | some v => .next s (ucDest r dst v)
  | none => .trap s causeIllegal none

/-- A micro-branch is taken (R390). -/
def ucTaken (w : BitVec 48) (a : Word) : Bool :=
  (fld w 46 42 == 0x1B && a == 0) || (fld w 46 42 == 0x1C && a != 0)

/-- Runs a micro-program from micro-op `i`; `fuel` is the number it may still execute (R391, R392). -/
def ucRun (sup : Bool) (entry : Nat → BitVec 48) (len : Nat) : Nat → Nat → UcRegs → State → UcRes
  | 0, _, _, s => .trap s causeUcode none
  | fuel + 1, i, r, s =>
    let w := entry i
    let dst := fld w 41 38
    match ucOperand r (fld w 15 0) (fld w 37 34), ucOperand r (fld w 15 0) (fld w 33 30) with
    | some a, some b =>
      if dst = 2 ∨ dst = 3 ∨ 8 ≤ dst then .trap s causeIllegal none
      else match ucAct sup w dst a b r s with
      | .trap s cause tval => .trap s cause tval
      | .next s r =>
        if bit w 47 then .done s r.rd
        else if len ≤ i then .trap s causeUcode none
        else if ucTaken w a then
          (if len < fld w 3 0 then .trap s causeUcode none else ucRun sup entry len fuel (fld w 3 0) r s)
        else ucRun sup entry len fuel (i + 1) r s
    | _, _ => .trap s causeIllegal none

/-- CUS (R388-R392): a decode entry that is not enabled is ILLEGAL, one for supervisor mode PRIV in user mode; rd takes its
value only when the program completes. -/
def execCus (sel : Fin 16) (rd ra rb imm : BitVec 5) (ecc : Bool) (s : State) : Out :=
  instr 4 (fun s =>
    let k := coreIn s.dev
    let e := decWord k sel.val
    if bit e 31 = false then { s with dev := trapHere causeIllegal s.dev }
    else if bit e 30 && !k.sup then { s with dev := trapHere causePriv s.dev }
    else if ecc then { s with dev := trapHere causeEcc s.dev }
    else
      let r : UcRegs := ⟨k.get rd, k.get ra, k.get rb, imm.zeroExtend 32, [0, 0, 0, 0]⟩
      match ucRun k.sup (fun i => csWord k ((fld e 15 8 + i) % 256)) (fld e 3 0) 64 0 r s with
      | .trap s cause none => { s with dev := trapHere cause s.dev }
      | .trap s cause (some a) => { s with dev := trapAt cause a s.dev }
      | .done s v => if (coreIn s.dev).pc = k.pc then { s with dev := writeRd 4 rd v s.dev } else s) s

end Sys2Proof.Machine
end

