-- ==== Sys2Proof/Machine/Cpu.lean ====
section
/-! DEFINITION. The instructions of the Adeara core but those of the coprocessors and the customer instructions, and interrupt
entry (R375-R395). -/
namespace Sys2Proof.Machine

/-! Registers and immediates (R377-R379) -/

/-- ADD (R377, R379). -/
def execAdd (c : Bool) (rd ra rb : BitVec 5) (s : State) : Out := aluInstr c rd (fun k => k.get ra + k.get rb) s

/-- SUB (R377, R379). -/
def execSub (c : Bool) (rd ra rb : BitVec 5) (s : State) : Out := aluInstr c rd (fun k => k.get ra - k.get rb) s

/-- AND (R377, R379). -/
def execAnd (c : Bool) (rd ra rb : BitVec 5) (s : State) : Out := aluInstr c rd (fun k => k.get ra &&& k.get rb) s

/-- OR (R377, R379). -/
def execOr (c : Bool) (rd ra rb : BitVec 5) (s : State) : Out := aluInstr c rd (fun k => k.get ra ||| k.get rb) s

/-- XOR (R377). -/
def execXor (rd ra rb : BitVec 5) (s : State) : Out := aluInstr false rd (fun k => k.get ra ^^^ k.get rb) s

/-- SHL (R377). -/
def execShl (rd ra rb : BitVec 5) (s : State) : Out := aluInstr false rd (fun k => shiftBy 0 (k.get ra) (k.get rb)) s

/-- SHR (R377). -/
def execShr (rd ra rb : BitVec 5) (s : State) : Out := aluInstr false rd (fun k => shiftBy 1 (k.get ra) (k.get rb)) s

/-- SRA (R377). -/
def execSra (rd ra rb : BitVec 5) (s : State) : Out := aluInstr false rd (fun k => shiftBy 2 (k.get ra) (k.get rb)) s

/-- SLT (R377). -/
def execSlt (rd ra rb : BitVec 5) (s : State) : Out := aluInstr false rd (fun k => slt (k.get ra) (k.get rb)) s

/-- SLTU (R377). -/
def execSltu (rd ra rb : BitVec 5) (s : State) : Out := aluInstr false rd (fun k => sltu (k.get ra) (k.get rb)) s

/-- MIN (R377). -/
def execMin (rd ra rb : BitVec 5) (s : State) : Out := aluInstr false rd (fun k => minS (k.get ra) (k.get rb)) s

/-- MAX (R377). -/
def execMax (rd ra rb : BitVec 5) (s : State) : Out := aluInstr false rd (fun k => maxS (k.get ra) (k.get rb)) s

/-- MINU (R377). -/
def execMinu (rd ra rb : BitVec 5) (s : State) : Out := aluInstr false rd (fun k => minU (k.get ra) (k.get rb)) s

/-- MAXU (R377). -/
def execMaxu (rd ra rb : BitVec 5) (s : State) : Out := aluInstr false rd (fun k => maxU (k.get ra) (k.get rb)) s

/-- MOV (R377, R379). -/
def execMov (c : Bool) (rd ra : BitVec 5) (s : State) : Out := aluInstr c rd (fun k => k.get ra) s

/-- MUL (R377). -/
def execMul (rd ra rb : BitVec 5) (s : State) : Out := aluInstr false rd (fun k => k.get ra * k.get rb) s

/-- MULH (R377). -/
def execMulh (rd ra rb : BitVec 5) (s : State) : Out := aluInstr false rd (fun k => mulh (k.get ra) (k.get rb)) s

/-- MULHU (R377). -/
def execMulhu (rd ra rb : BitVec 5) (s : State) : Out := aluInstr false rd (fun k => mulhu (k.get ra) (k.get rb)) s

/-- DIV (R377, R379). -/
def execDiv (rd ra rb : BitVec 5) (s : State) : Out := aluInstr false rd (fun k => divS (k.get ra) (k.get rb)) s

/-- DIVU (R377, R379). -/
def execDivu (rd ra rb : BitVec 5) (s : State) : Out := aluInstr false rd (fun k => divU (k.get ra) (k.get rb)) s

/-- REM (R377, R379). -/
def execRem (rd ra rb : BitVec 5) (s : State) : Out := aluInstr false rd (fun k => remS (k.get ra) (k.get rb)) s

/-- REMU (R377, R379). -/
def execRemu (rd ra rb : BitVec 5) (s : State) : Out := aluInstr false rd (fun k => remU (k.get ra) (k.get rb)) s

/-- CLZ (R377). -/
def execClz (rd ra : BitVec 5) (s : State) : Out := aluInstr false rd (fun k => clz (k.get ra)) s

/-- POPC (R377). -/
def execPopc (rd ra : BitVec 5) (s : State) : Out := aluInstr false rd (fun k => popc (k.get ra)) s

/-- ADDI (R377, R379). -/
def execAddi (c : Bool) (rd ra : BitVec 5) (imm : BitVec 14) (s : State) : Out := aluInstr c rd (fun k => k.get ra + imm14 imm) s

/-- ANDI (R377). -/
def execAndi (rd ra : BitVec 5) (imm : BitVec 14) (s : State) : Out := aluInstr false rd (fun k => k.get ra &&& imm14 imm) s

/-- ORI (R377). -/
def execOri (rd ra : BitVec 5) (imm : BitVec 14) (s : State) : Out := aluInstr false rd (fun k => k.get ra ||| imm14 imm) s

/-- XORI (R377). -/
def execXori (rd ra : BitVec 5) (imm : BitVec 14) (s : State) : Out := aluInstr false rd (fun k => k.get ra ^^^ imm14 imm) s

/-- SHLI (R377, R379). -/
def execShli (c : Bool) (rd ra : BitVec 5) (imm : BitVec 14) (s : State) : Out := aluInstr c rd (fun k => shiftBy 0 (k.get ra) (imm14 imm)) s

/-- SHRI (R377, R379). -/
def execShri (c : Bool) (rd ra : BitVec 5) (imm : BitVec 14) (s : State) : Out := aluInstr c rd (fun k => shiftBy 1 (k.get ra) (imm14 imm)) s

/-- SRAI (R377). -/
def execSrai (rd ra : BitVec 5) (imm : BitVec 14) (s : State) : Out := aluInstr false rd (fun k => shiftBy 2 (k.get ra) (imm14 imm)) s

/-- SLTI (R377). -/
def execSlti (rd ra : BitVec 5) (imm : BitVec 14) (s : State) : Out := aluInstr false rd (fun k => slt (k.get ra) (imm14 imm)) s

/-- SLTIU (R377). -/
def execSltiu (rd ra : BitVec 5) (imm : BitVec 14) (s : State) : Out := aluInstr false rd (fun k => sltu (k.get ra) (imm14 imm)) s

/-- LUI: imm19 times 2^13 (R377). -/
def execLui (rd : BitVec 5) (imm : BitVec 19) (s : State) : Out := aluInstr false rd (fun _ => imm.zeroExtend 32 <<< 13) s

/-- LI: imm19 sign-extended (R377-R379). -/
def execLi (c : Bool) (rd : BitVec 5) (imm : BitVec 19) (s : State) : Out := aluInstr c rd (fun _ => imm.signExtend 32) s

/-! Loads and stores (R376) -/

/-- LDW (R376, R385, R386). -/
def execLdw (c : Bool) (rd ra : BitVec 5) (imm : BitVec 14) (ecc : Bool) (s : State) : Out := loadInstr c 4 true rd ra imm ecc s

/-- LDH (R376, R385, R386). -/
def execLdh (rd ra : BitVec 5) (imm : BitVec 14) (ecc : Bool) (s : State) : Out := loadInstr false 2 true rd ra imm ecc s

/-- LDHU (R376, R385, R386). -/
def execLdhu (rd ra : BitVec 5) (imm : BitVec 14) (ecc : Bool) (s : State) : Out := loadInstr false 2 false rd ra imm ecc s

/-- LDB (R376, R385, R386). -/
def execLdb (rd ra : BitVec 5) (imm : BitVec 14) (ecc : Bool) (s : State) : Out := loadInstr false 1 true rd ra imm ecc s

/-- LDBU (R376, R385, R386). -/
def execLdbu (rd ra : BitVec 5) (imm : BitVec 14) (ecc : Bool) (s : State) : Out := loadInstr false 1 false rd ra imm ecc s

/-- STW (R376, R399). -/
def execStw (c : Bool) (rd ra : BitVec 5) (imm : BitVec 14) (s : State) : Out := storeInstr c 4 rd ra imm s

/-- STH (R376, R399). -/
def execSth (rd ra : BitVec 5) (imm : BitVec 14) (s : State) : Out := storeInstr false 2 rd ra imm s

/-- STB (R376, R399). -/
def execStb (rd ra : BitVec 5) (imm : BitVec 14) (s : State) : Out := storeInstr false 1 rd ra imm s

/-! Branches and jumps (R377-R382) -/

/-- BEQ (R377). -/
def execBeq (ra rb : BitVec 5) (off : BitVec 14) (s : State) : Out := branchInstr false off (fun k => decide (k.get ra = k.get rb)) s

/-- BNE (R377). -/
def execBne (ra rb : BitVec 5) (off : BitVec 14) (s : State) : Out := branchInstr false off (fun k => decide (k.get ra ≠ k.get rb)) s

/-- BLT (R377). -/
def execBlt (ra rb : BitVec 5) (off : BitVec 14) (s : State) : Out := branchInstr false off (fun k => decide ((k.get ra).toInt < (k.get rb).toInt)) s

/-- BGE (R377). -/
def execBge (ra rb : BitVec 5) (off : BitVec 14) (s : State) : Out := branchInstr false off (fun k => decide ((k.get rb).toInt ≤ (k.get ra).toInt)) s

/-- BLTU (R377). -/
def execBltu (ra rb : BitVec 5) (off : BitVec 14) (s : State) : Out := branchInstr false off (fun k => decide ((k.get ra).toNat < (k.get rb).toNat)) s

/-- BGEU (R377). -/
def execBgeu (ra rb : BitVec 5) (off : BitVec 14) (s : State) : Out := branchInstr false off (fun k => decide ((k.get rb).toNat ≤ (k.get ra).toNat)) s

/-- BZ (R378, R379). -/
def execBz (c : Bool) (ra : BitVec 5) (off : BitVec 14) (s : State) : Out := branchInstr c off (fun k => decide (k.get ra = 0)) s

/-- BNZ (R378, R379). -/
def execBnz (c : Bool) (ra : BitVec 5) (off : BitVec 14) (s : State) : Out := branchInstr c off (fun k => decide (k.get ra ≠ 0)) s

/-- J (R377, R379). -/
def execJ (c : Bool) (off : BitVec 24) (s : State) : Out :=
  instr (instrLen c) (fun s => { s with dev := jumpTo (target (coreIn s.dev).pc (instrLen c) (off.signExtend 32)) s.dev }) s

/-- CALL (R381, R382). -/
def execCall (off : BitVec 24) (s : State) : Out := callTo (fun k => target k.pc 4 (off.signExtend 32)) s

/-- CALLR (R381, R382): through the register as the caller sees it. -/
def execCallr (ra : BitVec 5) (s : State) : Out := callTo (fun k => k.get ra) s

/-- JR (R377). -/
def execJr (ra : BitVec 5) (s : State) : Out := instr 4 (fun s => { s with dev := jumpTo ((coreIn s.dev).get ra) s.dev }) s

/-- RET (R381, R382): to the address in k7, back one window; at DEPTH 1 it traps FILL. -/
def execRet (c : Bool) (s : State) : Out :=
  instr (instrLen c) (fun s =>
    let k := coreIn s.dev
    if k.depth ≤ 1 then { s with dev := trapHere causeFill s.dev }
    else { s with dev := setCore { k with pc := nth 0 k.w ((16 * k.win + 15) % 256), win := (k.win + 15) % 16, depth := k.depth - 1 } s.dev }) s

/-! System (R382-R385, R394) -/

/-- RTT (R384). -/
def execRtt (s : State) : Out := supInstr (fun s => { s with dev := setCore (coreIn s.dev).rtt s.dev }) s

/-- WAIT (R394, R395): in user mode it acts as YIELD; with an interrupt pending it retires; else entries start and the core
stops fetching. -/
def execWait (t : Nat) (irq : Bool) (s : State) : Out :=
  instr 4 (fun s =>
    let d := advance 4 (tick t s.dev)
    if !(coreIn d).sup || irq then { s with dev := d }
    else { s with dev := serveEntries (setCore { coreIn d with st := .wait } d) }) s

/-- CSRRD (R383). -/
def execCsrrd (rd csr : BitVec 5) (s : State) : Out :=
  instr 4 (fun s =>
    let n := csr.toNat
    if !(coreIn s.dev).sup && decide (n ≠ 0 ∧ n ≠ 1 ∧ n ≠ 7) then { s with dev := trapHere causePriv s.dev }
    else match csrRead s.dev n with
    | none => { s with dev := trapHere causeIllegal s.dev }
    | some v => { s with dev := writeRd 4 rd v s.dev }) s

/-- CSRWR (R383). -/
def execCsrwr (ra csr : BitVec 5) (s : State) : Out :=
  supInstr (fun s =>
    match csrWrite s.dev csr.toNat ((coreIn s.dev).get ra) with
    | none => { s with dev := trapHere causeIllegal s.dev }
    | some c => { s with dev := advance 4 (setCore c s.dev) }) s

/-- FENCE (R377): accesses complete in order on this one core. -/
def execFence (s : State) : Out := instr 4 (fun s => { s with dev := advance 4 s.dev }) s

/-- The window stack has failed its frame (R382): the applet stops on DACCESS when the frame is an applet's, and firmware
records FW_CHECK otherwise. -/
def windowFail (d : Dev) : Dev :=
  let c := coreIn d
  let d := advance 4 (setCore { c with h := upd 0 c.h 0 1 } d)
  if c.nest = false then d
  else if bit c.tstate 0 then raiseFault 0x32 (blkCore d) 0 d
  else appletTrapStop causeDaccess c.tra d

/-- Windowed registers of a frame, stored from a word index of data SRAM or loaded from it. -/
def frameStore (win i : Nat) (d : Dev) : Dev :=
  let c := coreIn d
  let m := (List.range 16).foldl (fun m k => memSet m (i + k) (nth 0 c.w ((16 * win + k) % 256))) d.cpu.dsram
  { d with cpu := { d.cpu with dsram := m } }
def frameLoad (win i : Nat) (d : Dev) : Dev :=
  let c := coreIn d
  setCore { c with w := (List.range 16).foldl (fun w k => upd 0 w ((16 * win + k) % 256) (memW d.cpu.dsram (i + k))) c.w } d

/-- The 64 bytes of a frame lie in data SRAM. -/
def frameIn (a : Word) : Bool := decide (0x10000000 ≤ a.toNat ∧ a.toNat + 64 ≤ 0x10040000)

/-- WSPILL (R382). -/
def execWspill (s : State) : Out :=
  supInstr (fun s =>
    let d := s.dev
    let c := coreIn d
    if c.wsp.toNat < c.wlim.toNat + 64 then { s with dev := windowFail d }
    else
      let a := c.wsp - 64
      if frameIn a = false then { s with dev := trapAt causeDaccess a d }
      else
        let d := frameStore ((c.win + 2) % 16) ((a.toNat - 0x10000000) / 4) d
        let c := coreIn d
        { s with dev := advance 4 (setCore { c with wsp := a, depth := c.depth - 1, h := upd 0 c.h 0 0 } d) }) s

/-- WFILL (R382). -/
def execWfill (s : State) : Out :=
  supInstr (fun s =>
    let d := s.dev
    let c := coreIn d
    if c.wsp = c.wtop then { s with dev := windowFail d }
    else if frameIn c.wsp = false then { s with dev := trapAt causeDaccess c.wsp d }
    else
      let d := frameLoad ((c.win + 15) % 16) ((c.wsp.toNat - 0x10000000) / 4) d
      let c := coreIn d
      { s with dev := advance 4 (setCore { c with wsp := c.wsp + 64, depth := c.depth + 1, h := upd 0 c.h 0 0 } d) }) s

/-- Services the flow that runs may ask for (R397, R400): a filter only TIME and FILTER_RET, the main flow 0 to 6. -/
def serviceAllowed (d : Dev) (n : Nat) : Bool :=
  match d.cpu.apl.filter with
  | none => decide (n ≤ 6)
  | some _ => decide (n = 6 ∨ n = 7)

/-- TRAP (R384-R386, R397): the handler is entered with the service number; a number the applet may not name stops it. -/
def execTrap (imm : BitVec 14) (s : State) : Out :=
  instr 4 (fun s =>
    let k := coreIn s.dev
    let d := coreTrap causeTrap (imm.zeroExtend 32) (k.pc + 4) s.dev
    if !k.sup && !k.nest && !serviceAllowed s.dev imm.toNat then { s with dev := appletTrapStop causeTrap k.pc d }
    else { s with dev := d }) s

/-- INTERRUPT_ENTRY (R384, R385): an interrupt is taken at an instruction boundary while INTON is 1. -/
def execInterruptEntry (t : Nat) (cause : Fin 16) (s : State) : Out := s.run fun d =>
  let d := tick t d
  let k := coreIn d
  if coreRuns d && k.inton then
    let (w, d) := drawFree d
    setCore (k.trapEnter (16 + cause.val) w k.pc) d
  else d

end Sys2Proof.Machine
end

