-- ==== Sys2Proof/Machine/Gen2.lean ====
section
/-! DEFINITION. The commands of the Gen2 inventory: the slot log as firmware reads it, with the Q algorithm, and the
frame-buffer port (R172-R200). -/
namespace Sys2Proof.Machine

/-! Slot-log entries (R158, R184) -/

def entryThread (e : List Word) : Nat := fld (nth 0 e 0) 31 30
def entryCode (e : List Word) : Nat := fld (nth 0 e 0) 7 0
def entryOutcome (e : List Word) : Nat := fld (nth 0 e 2) 3 0
def entryRec (e : List Word) : Bool := bit (nth 0 e 3) 2
def entryNest (e : List Word) : Nat := fld (nth 0 e 3) 1 0

/-- The counter of R197 an entry belongs to: SING, REC, COLL, EMPTY, MISS, OTHER at 0x530 on. -/
def entryCount (e : List Word) (d : Dev) : Dev :=
  let add := fun (k : Nat) (d : Dev) => count (0x530 + k) 31 0 1 d
  match entryCode e, entryOutcome e with
  | 0x01, _ => let d := add 0 d; if entryRec e then add 1 d else d
  | 0x02, 3 => add 2 d
  | 0x03, 7 => add 3 d
  | 0x04, _ => add 4 d
  | _, _ => add 5 d

/-- What an entry adds to qfp in sixteenths, and whether tags remain (R187). -/
def qStep (alg : Word) (overrun : Bool) (e : List Word) : Int × Bool :=
  match entryCode e with
  | 0x01 => if entryRec e then ((fld alg 15 12 * (entryNest e - 1) : Nat), true) else (0, false)
  | 0x02 => if entryOutcome e = 3 then ((if entryNest e = 2 then fld alg 7 4 else fld alg 11 8 : Nat), true) else (0, true)
  | 0x03 =>
    if entryOutcome e = 6 then ((fld alg 19 16 : Nat), true)
    else if overrun then (0, false) else (- (fld alg 3 0 : Int), false)
  | 0x04 => (0, true)
  | _ => (0, false)

/-- qfp, QNEXT and the software flags SW0 and SW1 after an entry (R187). -/
def qUpdate (e : List Word) (d : Dev) : Dev :=
  let alg := cfg d Reg.GEN2_QALG
  let g := d.gen2
  let slot := g.sent.headD ⟨g.q, g.fslot, [], 0⟩
  let (k, remains) := qStep alg (decide (2 ^ slot.q ≤ slot.fslot)) e
  let qfp := max (16 * (qMin d : Int)) (min (16 * (qMax d : Int)) (g.qfp + k))
  let hy : Int := fld alg 23 20
  let up := decide (16 * (g.qnext : Int) + 8 + hy ≤ qfp ∧ g.qnext < qMax d)
  let down := decide (qfp ≤ 16 * (g.qnext : Int) - 8 - hy ∧ qMin d < g.qnext)
  { d with gen2 := { g with qfp := qfp, remain := g.remain || remains
                            qnext := if up then g.qnext + 1 else if down then g.qnext - 1 else g.qnext } }

/-- SW0 and SW1 by QNEXT against Q; at the last slot of a frame SW2 for a redraw or SW3 to close (R187, R189). -/
def steer (frameEnd : Bool) (d : Dev) : Dev :=
  let g := d.gen2
  let d := setSw 1 (decide (g.qnext < g.q)) (setSw 0 (decide (g.q < g.qnext)) d)
  if frameEnd then
    (if !g.remain then setSw 3 true d else if g.qnext = g.q then setSw 2 true d else d)
  else d

/-- PC and EPC of a reply to ACK; of a truncated one (R178), whose PC the tag does not send, the PC is free and the EPC holds the bits
sent. -/
def replyTag (bits : List Bool) (d : Dev) : (Nat × List Bool) × Dev :=
  if (truncLen d).isSome then
    let (w, d) := drawFree d
    ((fld w 15 0, (bits.drop 5).take (bits.length - 21)), d)
  else
    let pc := natOfBits (bits.take 16)
    ((pc, (bits.drop 16).take (16 * (pc / 2048))), d)

/-- The tag of an 0x01 entry goes into the Comb, with its RSSI and phase codes (R184, R227); codes that the command does
not carry are free. -/
def placeTag (slot : SlotRec) (read : Option TagRead) (d : Dev) : Dev :=
  let ((pc, epc), d) := replyTag slot.frame d
  let (rssi, phase, d) := match read with
    | some r => (r.rssi.toNat, r.phase.toNat, d)
    | none => let (w, d) := drawFree d; (fld w 7 0, fld w 15 8, d)
  (combPlace epc (nw pc) slot.aerial rssi phase (recordSlot d) d).1

/-- Result words of an inventory after an entry: singulated, recovered, collided, empty (R340). -/
def entryResult (e : List Word) (res : List Word) : List Word :=
  let add := fun (k : Nat) (res : List Word) => upd 0 res k (nth 0 res k + 1)
  match entryCode e, entryOutcome e with
  | 0x01, _ => let r := add 0 res; if entryRec e then add 1 r else r
  | 0x02, 3 => add 2 res
  | 0x03, 7 => add 3 res
  | _, _ => res

/-- The round closes (R173, R185, R190): flags clear, buffers follow the session in force, and the next Query is patched. -/
def roundClose (d : Dev) : Dev :=
  let d := event Reg.GEN2_EVENT 1 d
  let d := if d.gen2.stale then { d with gen2 := { d.gen2 with qfp := 16 * (qStart d : Nat), stale := false } } else d
  let d := setSw 3 false (setSw 2 false (setSw 1 false (setSw 0 false { d with gen2 := { d.gen2 with cutRace := false } })))
  roundPatch (nextTarget d) (fwTruncated (fwInventoryBuffers d))

/-- An entry of the inventory thread (R184-R190). -/
def inventoryEntry (o : Op) (e : List Word) (read : Option TagRead) (d : Dev) : Dev :=
  let slot := d.gen2.sent.headD ⟨d.gen2.q, d.gen2.fslot, [], 0⟩
  let d := qUpdate e (entryCount e d)
  let d := { d with gen2 := { d.gen2 with sent := d.gen2.sent.tail } }
  if entryCode e = 0x10 then selectsDue (roundClose d)
  else
    let res := entryResult e o.res
    let d := updOp o.tag (fun o => { o with res := res, progress := nth 0 res 0 }) d
    let d := if entryCode e = 0x01 then placeTag slot read { d with gen2 := { d.gen2 with singulated := true } } else d
    let frameEnd := decide (entryCode e ≠ 0x05 ∧ slot.fslot + 1 = 2 ^ slot.q ∧ slot.fslot < d.gen2.fslot)
    let d := steer frameEnd d
    if d.gen2.cutRace || d.gen2.stale then setSw 3 true d else d

/-- An entry of a LISTEN: the level of the next entry of its mask; after the last the operation is DONE (R340). -/
def listenEntry (o : Op) (d : Dev) : Dev :=
  let mask : Nat := (nth 0 o.block 1).toNat + 2 ^ 32 * (nth 0 o.block 2).toNat
  let entries := (List.range 64).filter mask.testBit
  let lvl := reg d (chReg (bit (nth 0 o.block 0) 4) 0x10)
  let res := o.res ++ [put 31 26 (nth 0 entries o.res.length) ||| (lvl &&& 0x83FF)]
  let o := { o with res := res, progress := nw res.length }
  let d := updOp o.tag (fun _ => o) d
  if entries.length ≤ res.length then doneOp o res d else d

/-- SLOT_LOG_ENTRY (R158, R187-R190): firmware takes the oldest entry of the slot log. -/
def execSlotLogEntry (t : Nat) (read : Option TagRead) (s : State) : Out := s.run fun d =>
  let d := tick t d
  match d.seq.log with
  | [] => d
  | e :: rest =>
    let d := { d with seq := { d.seq with log := rest } }
    match (thr d (entryThread e)).op.bind (findOp d) with
    | none => d
    | some o =>
      if o.opcode = 0x300 then (if entryThread e = 0 then inventoryEntry o e read d else d)
      else if o.opcode = 0x200 ∧ opLive o then listenEntry o d
      else d

/-- FB_DATA_ACCESS (R174, R178): one access of a reader to the frame-buffer port. -/
def execFbDataAccess (t : Nat) (r : Reader) (shadow : Bool) (wr : Option Word) (s : State) : Out :=
  .next (regAccess t r shadow Reg.GEN2_FB_DATA wr s)

end Sys2Proof.Machine
end

