-- ==== Sys2Proof/Machine/Hf.lean ====
section
/-! DEFINITION. The commands of the HF reader and of low-power card detection (R245-R275). -/
namespace Sys2Proof.Machine

/-! Low-power card detection (R268-R271) -/

/-- DET rises (R271): event, counter, HF_DETECT record, LPCD wake, and the campaigns that wait for it start. -/
def lpcdDetRise (dist : Nat) (d : Dev) : Dev :=
  let d := count Reg.HF_LPCD_CNT 31 24 1 (event Reg.HF_EVENT 5 { d with hf := { d.hf with det := true } })
  let d := writeRecord (fld (cfg d Reg.HF_CFG) 12 8) 0x0502
    [put 31 24 dist ||| put 23 17 (recordSlot d), stampL d, stampH d] d
  let d := wakeByMask 5 Reg.PMU_WAKE_LPCD d
  (d.ops.filter fun o => opLive o && decide (o.st = .queued) && untriggered o).foldl (fun d o =>
    tryStart o.tag (updOp o.tag (fun o => { o with trig := true }) d)) d

/-- The baseline word of a ping (R275). -/
def baseWord (amp phase : Nat) : Word := putB 31 true ||| put 23 12 phase ||| put 11 0 amp

/-- The baseline after a ping of distance `dist` (R270), with DET as it was before the ping. -/
def pingBase (amp phase dist : Nat) (det : Bool) (d : Dev) : Dev :=
  let b := reg d Reg.HF_LPCD_BASE
  let trk := fld (reg d Reg.HF_LPCD_CFG) 27 24
  if d.hf.rebase then setReg Reg.HF_LPCD_BASE (baseWord amp phase) { d with hf := { d.hf with rebase := false } }
  else if !det && bit b 31 && decide (dist ≤ lpcdLow d) && trk != 0 then
    setReg Reg.HF_LPCD_BASE (putB 31 true ||| (Config.lpcdTrack b amp phase trk &&& 0x00FFFFFF)) d
  else d

/-- What a ping of distance `dist` says of a card (R269): a candidate, a confirmation, or the fall of DET. -/
def pingJudge (confirming : Bool) (dist : Nat) (d : Dev) : Dev :=
  let hit := decide (fld (reg d Reg.HF_LPCD_THR) 15 8 ≤ dist)
  if d.hf.det then (if dist ≤ lpcdLow d then { d with hf := { d.hf with det := false } } else d)
  else
    match confirming, d.hf.confirm with
    | true, some n =>
      if hit then
        (if n ≤ 1 then lpcdDetRise dist { d with hf := { d.hf with confirm := none } }
         else { d with hf := { d.hf with confirm := some (n - 1) } })
      else count Reg.HF_LPCD_CNT 7 0 1 (event Reg.HF_EVENT 4 { d with hf := { d.hf with confirm := none } })
    | _, none =>
      if hit then
        (if fld (reg d Reg.HF_LPCD_CFG) 30 28 = 0 then lpcdDetRise dist d
         else { d with hf := { d.hf with confirm := some (fld (reg d Reg.HF_LPCD_CFG) 30 28) } })
      else d
    | _, _ => d

/-- A confirming ping that is skipped confirms nothing (R269). -/
def confirmSkipped (confirming : Bool) (d : Dev) : Dev :=
  if confirming ∧ d.hf.confirm.isSome then
    count Reg.HF_LPCD_CNT 7 0 1 (event Reg.HF_EVENT 4 { d with hf := { d.hf with confirm := none } })
  else d

/-- The ping unit can run: HF not OFF, HF and LPCD not fenced, no safe state (R423, R451, R458). -/
def pingUnit (d : Dev) : Bool :=
  (match (dom d 11).pos with | .off => false | _ => true) && !outOfService d blkHf && !outOfService d blkLpcd && !d.svc.safe

/-- One ping sequence (R268-R271). -/
def pingRun (confirming : Bool) (p : Ping) (d : Dev) : Dev :=
  if !pingUnit d || decide (d.hf.field ≠ 0) || d.hf.win.isSome then d
  else
    let ext := decide (fld (cfg d Reg.HF_RX_CFG) 25 16 ≤ p.ext)
    let d := calApply 2 27 28 { d with hf := { d.hf with pingEnd := d.now + us 21, ext := ext } }
    if ext then confirmSkipped confirming (count Reg.HF_LPCD_CNT 15 8 1 d)
    else if d.pmu.vpa = false then raiseFault 0x08 blkPmu 0 d
    else if p.oscOk = false then raiseFault 0x29 blkLpcd 0 d
    else if p.blanked ∨ pathBlanked d 2 then confirmSkipped confirming (count Reg.HF_LPCD_CNT 23 16 1 d)
    else
      let amp := p.amp.toNat
      let phase := p.phase.toNat
      let dist := pingD amp phase (reg d Reg.HF_LPCD_BASE)
      let det := d.hf.det
      let d := { d with hf := { d.hf with pingOff := d.now + us 20 } }
      let d := setReg Reg.HF_LPCD_LAST (put 31 24 dist ||| put 23 12 phase ||| put 11 0 amp) d
      pingJudge confirming dist (pingBase amp phase dist det d)

/-- `HF_LPCD_CFG.INT` in fine ticks; below 10 ms acts as 10 (R275). -/
def pingInterval (d : Dev) : Nat := us (1000 * max 10 (fld (reg d Reg.HF_LPCD_CFG) 11 0))

/-- LPCD_PING (R268): the ping interval is over. -/
def execLpcdPing (t : Nat) (ping : Ping) (s : State) : Out := s.run fun d =>
  let d := tick t d
  if bit (reg d Reg.HF_LPCD_CFG) 31 ∧ (d.hf.lastPing = 0 ∨ d.hf.lastPing + pingInterval d ≤ d.now) ∧ d.hf.confirm = none then
    pingRun false ping { d with hf := { d.hf with lastPing := d.now } }
  else d

/-- LPCD_CONFIRM_PING (R269): 5 ms after the ping before it, a candidate is tried again. -/
def execLpcdConfirmPing (t : Nat) (ping : Ping) (s : State) : Out := s.run fun d =>
  let d := tick t d
  if d.hf.confirm.isSome ∧ d.hf.pingEnd + us 4979 ≤ d.now then pingRun true ping d else d

/-- HFPING (R268-R271): thread H makes one ping at once, and goes on by its result; with the field on it is refused. -/
def execHfping (t th : Nat) (ping : Ping) (s : State) : Out := s.run fun d =>
  let d := tick t d
  match waitOver d th with
  | none => d
  | some e =>
    if th = 3 ∧ isAct 0x34 (thr d th).word then
      let p := calStopFor true (if abortHere th d then d else pingRun false ping d)
      if (thr p th).st = .waiting then appletWake (noiseAfter th d (threadStep th (seqIssue th 0 e) p)) else p
    else d

/-- REBASE (R270): a write of `HF_LPCD_CTRL` with REBASE at 1. -/
def execRebase (t : Nat) (r : Reader) (s : State) : Out := .next (regAccess t r false Reg.HF_LPCD_CTRL (some 1) s)

/-! Frame memory and receive pages (R251, R253) -/

/-- HF_FB_DATA_ACCESS (R251): one access of the HF frame memory port. -/
def execHfFbDataAccess (t : Nat) (r : Reader) (shadow : Bool) (wr : Option Word) (s : State) : Out :=
  .next (regAccess t r shadow Reg.HF_FB_DATA wr s)

/-- HF_RX_DATA_READ (R253): one read of the receive page port. -/
def execHfRxDataRead (t : Nat) (r : Reader) (s : State) : Out := .next (regAccess t r false Reg.HF_RX_DATA none s)

/-! Frames and windows (R253-R259) -/

/-- HF_TX_END (R254, R255): the last modulated bit of a frame ends; an HFRX held for it opens its window. -/
def execHfTxEnd (t : Nat) (s : State) : Out := s.run fun d =>
  let d := tick t d
  if d.hf.txBusy then
    let d := { d with hf := { d.hf with txBusy := false, txEnd := true, txEndAt := some d.now } }
    if (thr d 3).gate = some .rx then threadStep 3 (regate 3) d else d
  else d

/-- The window accepts a start of frame now (R254). -/
def hfAccepts (w : HfWin) (d : Dev) : Bool :=
  !w.shut && (match d.hf.txEndAt with | none => true | some e => decide (e + us 20 ≤ d.now))
    && (match w.tmo with | none => true | some e => decide (d.now ≤ e))

/-- Changes the open window. -/
def updHfWin (f : HfWin → HfWin) (d : Dev) : Dev := { d with hf := { d.hf with win := d.hf.win.map f } }

/-- HF_START_OF_FRAME (R254, R256): a start of frame is found; `erased` says that the framing fails. With neither, only
subcarrier energy is seen. -/
def execHfStartOfFrame (t : Nat) (framed erased : Bool) (s : State) : Out := s.run fun d =>
  let d := tick t d
  match d.hf.win with
  | none => d
  | some w =>
    if hfAccepts w d then
      updHfWin (fun w => { w with sof := w.sof || framed || erased, erased := w.erased || erased
                                  energy := w.energy || !(framed || erased) }) d
    else d

/-- Writes received bits to the receive page of the window, from bit 31 of its word 0 (R253). -/
def hfStore (bits : List Bool) (d : Dev) : Dev :=
  let base := if d.hf.page then 128 else 0
  let ws := (packBits 129 bits).take 128
  { d with hf := { d.hf with rx := (ws.zipIdx).foldl (fun m p => memSet m (base + p.2) p.1) d.hf.rx } }

/-- HF_FRAME_DECODED (R250, R253, R255): the decoder has decided the last bit of a card's frame; `raw` is what it decided, with the
parity of Type A and the CRC-16. An erased bit leaves HF_DEC_VALID at 0. -/
def execHfFrameDecoded (t : Nat) (raw : List Bool) (erased : Bool) (s : State) : Out := s.run fun d =>
  let d := tick t d
  match d.hf.win with
  | none => d
  | some w =>
    if w.decided = false ∧ (w.sof = true ∨ hfAccepts w d = true) then
      let (bits, bad) := if bit w.desc 24 then hfData d.hf.split raw else (raw, false)
      let good := (hfCrcGood (fld w.desc 31 28) bits || !bit w.desc 25) && !bad
      let d := hfStore bits { d with seq := { d.seq with hfFrameEnd := some (d.now - Config.hfDecodeLatency w.desc) } }
      let d := updHfWin (fun w => { w with sof := true, nbits := min 4095 bits.length, parBad := w.parBad || bad
                                           erased := w.erased || erased, decided := !erased, good := good && !erased }) d
      if erased then d else { d with hf := { d.hf with decValid := true, crcOk := good } }
    else d

/-- HF_COLL (R255): both halves of a bit carry modulation; for Type A and ISO/IEC 15693 only. -/
def execHfColl (t : Nat) (pos : Nat) (s : State) : Out := s.run fun d =>
  let d := tick t d
  match d.hf.win with
  | none => d
  | some w =>
    let p := fld w.desc 31 28
    if (p = 0 ∨ p = 3) ∧ w.coll = false ∧ (w.sof = true ∨ hfAccepts w d = true) then
      updHfWin (fun w => { w with coll := true, cpos := min 4095 pos, sof := true }) { d with hf := { d.hf with coll := true } }
    else d

/-- HF_WINDOW_TMO (R254): the wait is over with no start of frame; the window accepts none any more. -/
def execHfWindowTmo (t : Nat) (s : State) : Out := s.run fun d =>
  let d := tick t d
  match d.hf.win with
  | none => d
  | some w =>
    if w.sof = false ∧ (match w.tmo with | none => false | some e => decide (e ≤ d.now)) = true then
      updHfWin (fun w => { w with shut := true }) d
    else d

/-- Fine ticks to the end of thread H's window: none when the current slot is not selected. -/
def hfWindowLeft (d : Dev) : Nat :=
  if inSlot d 3 then
    let p := phaseAt d d.now
    let l := p / 1024
    puToQ d.tb.period (1024 * (l + windowSlots d 3 (maskFull d 3) l 1600 1) - p) / 256
  else 0

/-- The field stays on past a window's end (R248). -/
def hfKeeps (d : Dev) : Bool := bit (cfg d Reg.HF_CFG) 3 && d.hf.cardActive

/-- HF_WINDOW_END (R248, R259): 2 us before the end of thread H's window the field ramps down, unless a card keeps it or an
exchange runs on as an overrun. -/
def execHfWindowEnd (t : Nat) (s : State) : Out := s.run fun d =>
  let d := tick t d
  let left := hfWindowLeft d
  if left ≤ us 2 ∧ d.hf.field ≠ 0 ∧ d.hf.overrun = none then
    if d.hf.field = 1 ∧ (d.hf.txBusy = true ∨ d.hf.win.isSome = true ∨ hfExs d.hf.ac = false) then
      event Reg.HF_EVENT 2
        { d with hf := { d.hf with overrun := some (d.now + left + us (1000 * fld (cfg d Reg.HF_ISO4_CFG) 31 24)) } }
    else if d.hf.field = 1 ∧ hfKeeps d = true then d
    else hfFieldLost d
  else if left ≤ us 2 ∧ d.hf.field = 0 then coexDrop true true d
  else d

/-- HF_OVERRUN_EXPIRY (R259): an overrun reaches OVR_MAX; a command of the block protocol ends CARD_TIMEOUT. -/
def execHfOverrunExpiry (t : Nat) (s : State) : Out := s.run fun d =>
  let d := tick t d
  match d.hf.overrun with
  | none => d
  | some e =>
    if e ≤ d.now then
      let d := hfFieldOff (hfCloseWin false d)
      match hfOp d with
      | none => d
      | some o => if o.opcode = 0x501 then failOp o 0x37 d else d
    else d

/-- The exchange that overran its window is complete (R259): the field goes off unless a card keeps it. -/
def overrunDone (d : Dev) : Dev :=
  match d.hf.overrun with
  | none => d
  | some _ =>
    let d := { d with hf := { d.hf with overrun := none } }
    if inSlot d 3 || hfKeeps d then d else hfFieldOff d

/-! Firmware's choices (R260-R267) -/

def updAc (f : AcState → AcState) (d : Dev) : Dev := { d with hf := { d.hf with ac := f d.hf.ac } }

/-- Outcome and data bits of the last window closed, the bits from its receive page (R253, R256). -/
def hfOut (d : Dev) : Nat := fld (reg d Reg.HF_RESULT) 3 0
def hfReply (d : Dev) : List Bool :=
  let r := reg d Reg.HF_RESULT
  unpackBits (fld r 15 4) ((List.range 128).map fun i => memW d.hf.rx ((if bit r 16 then 128 else 0) + i))

/-- Bytes of the reply ahead of its CRC-16. -/
def hfBody (d : Dev) : List Nat := hfRead d.hf.ac.proto 512 ((hfReply d).take ((hfReply d).length - 16))

/-- ID bytes in words, first byte in [31:24], zero-padded (R263). -/
def byteWords (bs : List Nat) : List Word := packBits (bs.length + 1) (bs.flatMap (bitsOf 8))

/-- A card is activated (R262, R263): its HF_CARD record, and the campaign counts it. A Type A card is ACTIVE from its SAK on, a Type B
card from its ATTRIB on (R248). -/
def acCard (o : Op) (id : List Nat) (info : Word) (iso4 : Bool) (d : Dev) : Dev :=
  let a := d.hf.ac
  let id := id.take 12
  let (d, wrote) := offer (fld (cfg d Reg.HF_CFG) 12 8) 0x0501
    ([put 31 28 a.proto ||| put 27 24 id.length ||| put 23 17 (recordSlot d) ||| putB 16 iso4, stampL d, stampH d, info]
      ++ byteWords id) d
  let d := if wrote then event Reg.HF_EVENT 0 d else d
  let d := { d with hf := { d.hf with cardActive := decide (a.proto = 0) || decide (a.step = .attrib) } }
  updOp o.tag (fun o => { o with progress := o.progress + 1, res := [o.progress + 1] }) d

/-- The card is in the block protocol, with the parameters it offers (R264): `HF_ISO4_STAT`. The campaign begins no loop while it is
(log entry 109). -/
def acActivate (o : Op) (fwi fsci sfgi : Nat) (d : Dev) : Dev :=
  hfNext o { d.hf.ac with step := .hold }
    (setReg Reg.HF_ISO4_STAT (put 31 28 fwi ||| put 27 24 fsci ||| put 23 20 sfgi ||| put 19 16 (hfCid d) ||| 1) d)

/-- FWI, FSCI and SFGI of an ATS (R264); without TB(1) FWI is 4 and SFGI 0, without T0 FSCI is 2. None for an invalid one. -/
def atsFields (bs : List Nat) : Option (Nat × Nat × Nat) :=
  match bs with
  | [] => none
  | [tl] => if tl = 1 then some (4, 2, 0) else none
  | tl :: t0 :: rest =>
    let ta := if t0.testBit 4 then 1 else 0
    let tb := t0.testBit 5
    let n := ta + (if tb then 1 else 0) + (if t0.testBit 6 then 1 else 0)
    if tl ≠ bs.length ∨ rest.length < n ∨ 128 ≤ t0 then none
    else if tb then some (nth 0 rest ta / 16 % 16, t0 % 16, nth 0 rest ta % 16) else some (4, t0 % 16, 0)

/-- The loop ends; the campaign's next protocol follows (R260). -/
def acLoopEnd (o : Op) (d : Dev) : Dev :=
  hfNext o (hfLoop (hfTurn o d.hf.ac.proto) d d.hf.ac) { d with hf := { d.hf with cardActive := false } }

/-- A further iteration at a cascade level with these known bits; after ITER of them the loop ends (R261). -/
def acAgain (o : Op) (known : List Bool) (d : Dev) : Dev :=
  let a := d.hf.ac
  if max 1 (fld (cfg d Reg.HF_AC_CFG) 23 16) ≤ a.iter + 1 then acLoopEnd o d
  else hfNext o { a with step := .anticoll, iter := a.iter + 1, known := known } d

/-- A pass of slots is over (R260): Type B repeats with twice the slots, JIS repeats, 15693 takes a stacked mask. -/
def acPassEnd (o : Op) (d : Dev) : Dev :=
  let a := d.hf.ac
  let again := a.dirty && decide (a.repeats < fld (cfg d Reg.HF_AC_CFG) 11 8)
  match a.proto, a.stack with
  | 2, _ => if again then hfNext o { a with step := .reqb, slot := 0, dirty := false, repeats := a.repeats + 1, slots := min 16 (2 * a.slots) } d
            else acLoopEnd o d
  | 3, m :: rest => hfNext o { a with step := .inventory, slot := 0, known := m, stack := rest } d
  | 5, _ => if again then hfNext o { a with step := .polling, slot := 0, dirty := false, repeats := a.repeats + 1 } d else acLoopEnd o d
  | _, _ => acLoopEnd o d

/-- The next slot of the pass (R260). -/
def acSlotNext (o : Op) (d : Dev) : Dev :=
  let a := d.hf.ac
  let step : HfStep := match a.proto with | 2 => .reqb | 3 => .inventory | _ => .listen
  if a.slot + 1 < (if a.proto = 3 then tagSlots a.known else a.slots) then hfNext o { a with step := step, slot := a.slot + 1 } d
  else acPassEnd o d

/-- The slot was not clean (R260): 15693 stacks its mask extended by the slot number, the others note it. -/
def acSlotBad (o : Op) (d : Dev) : Dev :=
  acSlotNext o (updAc (fun a =>
    if a.proto = 3 then (if tagSlots a.known = 1 then a else { a with stack := (a.known ++ (bitsOf 4 a.slot).reverse) :: a.stack })
    else { a with dirty := true }) d)

/-- ANTICOLLISION (R261): the bits known grow to a collision's place, with PICK at it; a whole level is selected. -/
def acAnticoll (o : Op) (d : Dev) : Dev :=
  let a := d.hf.ac
  let bits := hfReply d
  let full := a.known ++ bits
  if hfOut d = 2 then acAgain o (a.known ++ bits.take (fld (reg d Reg.HF_RESULT) 31 20) ++ [bit (cfg d Reg.HF_AC_CFG) 0]) d
  else if hfOut d = 1 ∧ full.length = 40 ∧ (hfRead 0 5 full).foldl (· ^^^ ·) 0 = 0 then hfNext o { a with step := .select, known := full } d
  else acAgain o [] d

/-- SELECT (R260, R262): its SAK leads to the next cascade level, or the card is whole. -/
def acSelect (o : Op) (d : Dev) : Dev :=
  let a := d.hf.ac
  match hfOut d, hfBody d with
  | 1, sak :: _ =>
    let id := (hfRead 0 5 a.known).take 4
    if sak.testBit 2 ∧ a.level < 3 then
      hfNext o { a with step := .anticoll, level := a.level + 1, iter := 0, known := [], uid := a.uid ++ id.drop 1 } d
    else
      let d := acCard o (a.uid ++ id) (a.info ||| put 7 0 sak) (sak.testBit 5) d
      hfNext o { a with step := if hfIso4 o ∧ sak.testBit 5 then .rats else .hlta, tries := 0 } d
  | _, _ => acAgain o [] d

/-- RATS (R264, R266): an ATS opens the block protocol, an invalid one ends the operation; with none the card is halted. -/
def acRats (o : Op) (d : Dev) : Dev :=
  let a := d.hf.ac
  if hfOut d = 1 then
    match atsFields (hfBody d) with
    | some (fwi, fsci, sfgi) => acActivate o fwi fsci sfgi d
    | none => failOp o 0x38 d
  else if a.tries < fld (cfg d Reg.HF_ISO4_CFG) 6 4 then hfNext o { a with tries := a.tries + 1 } d
  else hfNext o { a with step := .hlta } d

/-- A slot of Type B (R260): an ATQB leads to ATTRIB, or is reported and halted. -/
def acAtqb (o : Op) (d : Dev) : Dev :=
  let a := d.hf.ac
  let bs := hfBody d
  if hfOut d = 1 ∧ 12 ≤ bs.length ∧ nth 0 bs 0 = 0x50 then
    let info := put 23 16 (nth 0 bs 9) ||| put 15 8 (nth 0 bs 10) ||| put 7 0 (nth 0 bs 11)
    let iso := (nth 0 bs 10).testBit 0
    let id := (bs.drop 1).take 4
    if hfIso4 o ∧ iso = true then hfNext o { a with step := .attrib, uid := id, info := info } d
    else hfNext o { a with step := .hltb, uid := id } (acCard o id info iso d)
  else if hfOut d = 3 ∨ hfOut d = 4 then acSlotBad o d
  else acSlotNext o d

/-- A slot of ISO/IEC 15693 (R260): a UID is reported and its card put to STAY QUIET; a collision is stacked. -/
def acTagSlot (o : Op) (d : Dev) : Dev :=
  let bs := hfBody d
  if hfOut d = 1 ∧ 10 ≤ bs.length then
    let id := (bs.drop 2).take 8
    hfNext o { d.hf.ac with step := .quiet, uid := id } (acCard o id (put 7 0 (nth 0 bs 1)) false d)
  else if hfOut d = 2 ∨ hfOut d = 3 then acSlotBad o d
  else acSlotNext o d

/-- A slot of JIS X 6319-4 (R260): a Polling reply is reported; with none the pass is over. -/
def acPollSlot (o : Op) (d : Dev) : Dev :=
  let bs := hfBody d
  if hfOut d = 1 ∧ 18 ≤ bs.length then
    let info := if 20 ≤ bs.length then put 15 8 (nth 0 bs 18) ||| put 7 0 (nth 0 bs 19) else put 15 0 (fld (nth 0 o.block 1) 31 16)
    acSlotNext o (acCard o ((bs.drop 2).take 8) info false d)
  else if hfOut d = 3 then acSlotBad o d
  else if hfOut d = 6 ∨ hfOut d = 5 then acPassEnd o d
  else acSlotNext o d

/-! The block protocol (R265, R266) -/

/-- HF_DATA records of a response on `HF_CFG.RING` (R263, R266, R349): at most 1,008 bytes each, MORE on every one but the last. -/
def hfDataRecords (o : Op) : Nat → List Nat → Dev → Dev
  | 0, _, d => d
  | fuel + 1, bs, d =>
    let more := decide (1008 < bs.length)
    let part := bs.take 1008
    let d := writeHeld o.tag (fld (cfg d Reg.HF_CFG) 12 8) 0x0503 ((put 22 16 o.tag ||| putB 15 more ||| put 11 0 part.length) :: byteWords part) false d
    if more then hfDataRecords o fuel (bs.drop 1008) d else d

/-- A timeout or a bad block (R266): recovered by R(NAK), within a chain of the card by R(ACK); after RETRY recoveries the card is
deselected and the operation ends with a status. -/
def acRecover (o : Op) (status : Nat) (d : Dev) : Dev :=
  let a := d.hf.ac
  if a.tries < fld (cfg d Reg.HF_ISO4_CFG) 6 4 then hfNext o { a with step := if a.chain then .rack else .rnak, tries := a.tries + 1 } d
  else hfNext o { a with step := .deselect status } d

/-- The block number toggles (R266). -/
def blkToggle (d : Dev) : Dev := setReg Reg.HF_ISO4_STAT (isoStat d ^^^ 2) d

/-- An S(WTX) request (R265). -/
def acWtx (o : Op) (m : Nat) (d : Dev) : Dev :=
  if m = 0 then hfNext o { d.hf.ac with step := .deselect 0x38 } d
  else
    let m := min 59 m
    let d := event Reg.HF_EVENT 3 (setField Reg.HF_ISO4_STAT 15 8 m d)
    hfNext o { d.hf.ac with step := .wtx } { d with hf := { d.hf with wtx := some (min (us 4949000) (fwtTicks d * m)) } }

/-- An I-block of the card (R266, R267): the response grows; its last block completes the command. -/
def acInf (o : Op) (inf : List Nat) (more : Bool) (d : Dev) : Dev :=
  let a := d.hf.ac
  let resp := (a.resp ++ inf).take 4096
  let d := blkToggle d
  if more then hfNext o { a with step := .rack, resp := resp, tries := 0, chain := true } d
  else
    let d := hfDataRecords o 5 resp (updOp o.tag (fun p => { p with progress := p.progress + 1 }) d)
    hfNext o { a with step := .over, resp := resp } d

/-- A block of the card (R265, R266). -/
def acBlock (o : Op) (d : Dev) : Dev :=
  let a := d.hf.ac
  let d := { d with hf := { d.hf with wtx := none } }
  match hfOut d, hfBody d with
  | 1, pcb :: rest =>
    let inf := if pcb.testBit 3 then rest.drop 1 else rest
    let same := decide (pcb % 2 = blkNum d)
    if pcb &&& 0xE2 = 0x02 then
      (if same ∧ apduMore d o a.sent = false then acInf o inf (pcb.testBit 4) d else acRecover o 0x38 d)
    else if pcb &&& 0xF6 = 0xA2 then
      (if same ∧ apduMore d o a.sent = true then
        hfNext o { a with step := .iblock, sent := a.sent + (apduPart d o a.sent).length, tries := 0 } (blkToggle d)
      else if !same && decide (a.tries < fld (cfg d Reg.HF_ISO4_CFG) 6 4) then hfNext o { a with step := .iblock, tries := a.tries + 1 } d
      else acRecover o 0x38 d)
    else if pcb &&& 0xF7 = 0xF2 then acWtx o (nth 0 inf 0 % 64) d
    else acRecover o 0x38 d
  | out, _ => acRecover o (if out = 5 ∨ out = 6 then 0x37 else 0x38) d

/-- Firmware judges the exchange whose end the table has posted, and prepares the next (R260-R267). A campaign whose field has gone
begins a new loop. -/
def acJudge (o : Op) (d : Dev) : Dev :=
  let a := d.hf.ac
  match a.step with
  | .idle => d
  | .over => hfDone o [] d
  | .hold => if bit (isoStat d) 0 then d else acLoopEnd o d
  | .deselect st => failOp o st (acDeselect d)
  | step =>
    if o.opcode = 0x500 ∧ d.hf.field ≠ 1 then hfNext o (hfLoop a.proto d a) d
    else match step with
    | .reqa =>
      if hfOut d = 6 ∨ hfOut d = 5 then acLoopEnd o d
      else
        let bs := hfRead 0 2 (hfReply d)
        hfNext o { a with step := .anticoll, info := put 23 16 (nth 0 bs 1) ||| put 15 8 (nth 0 bs 0) } d
    | .anticoll => acAnticoll o d
    | .select => acSelect o d
    | .hlta => acLoopEnd o d
    | .rats => acRats o d
    | .reqb => acAtqb o d
    | .attrib =>
      if hfOut d = 1 then
        acActivate o (fld a.info 7 4) (fld a.info 15 12) 0 (acCard o a.uid a.info true d)
      else acSlotNext o d
    | .hltb => acSlotNext o d
    | .inventory => acTagSlot o d
    | .quiet => acSlotNext o d
    | .polling => acPollSlot o d
    | .listen => acPollSlot o d
    | _ => acBlock o d

/-- HF_AC_CHOICE (R260-R267): what firmware does for the operation on thread H once its table has posted the end of an exchange. An
overrun whose exchange is complete ends (R259). -/
def execHfAcChoice (t : Nat) (s : State) : Out := s.run fun d =>
  let d := tick t d
  match hfOp d with
  | none => d
  | some o =>
    if d.hf.ac.unitEnd then
      let d := acJudge o (updAc (fun a => { a with unitEnd := false }) d)
      if hfExs d.hf.ac then overrunDone d else d
    else d

/-! Driver (R246, R453) -/

/-- HF_LIM (R246): the supply allows a level, in 0.5 dBm; the driver delivers it where it is below the set level. -/
def execHfLim (t allowed : Nat) (s : State) : Out := s.run fun d =>
  let d := tick t d
  if d.hf.field = 0 then d
  else
    let lim := decide (allowed < d.hf.level)
    let new := lim && !d.hf.lim
    let d := { d with hf := { d.hf with lim := lim, power := min d.hf.level allowed } }
    if new then event Reg.HF_EVENT 6 d else d

/-- HF_DRV (R453): the driver current exceeds 1.2 times that of the set level. -/
def execHfDrv (t : Nat) (s : State) : Out := s.run fun d =>
  let d := tick t d
  if d.hf.field ≠ 0 then hfFieldLost (raiseFault 0x28 blkHf 0 d) else d

end Sys2Proof.Machine
end

