-- ==== Sys2Proof/Machine/Image.lean ====
section
/-! DEFINITION. The commands of the control store, the image port, the boot ROM and the watchdog (R393, R401-R404, R453). -/
namespace Sys2Proof.Machine

/-- UC_DATA_H_WRITE (R393): one write of `CORE_UC_DATA_H`. -/
def execUcDataHWrite (t : Nat) (r : Reader) (v : Word) (s : State) : Out :=
  .next (regAccess t r false Reg.CORE_UC_DATA_H (some v) s)

/-- UC_DATA_H_READ (R393): one read of `CORE_UC_DATA_H`. -/
def execUcDataHRead (t : Nat) (r : Reader) (s : State) : Out := .next (regAccess t r false Reg.CORE_UC_DATA_H none s)

/-- UC_DEC_WRITE (R393): one write of `CORE_UC_DEC_n`. -/
def execUcDecWrite (t : Nat) (r : Reader) (n : Fin 16) (v : Word) (s : State) : Out :=
  .next (regAccess t r false (Reg.CORE_UC_DEC_0 + n.val) (some v) s)

/-- IMG_DATA_WRITE (R401, R402): one word to the image port. -/
def execImgDataWrite (t : Nat) (r : Reader) (v : Word) (s : State) : Out :=
  .next (regAccess t r false Reg.CORE_IMG_DATA (some v) s)

/-- IMG_RESTART (R402): a write of `CORE_IMG_CTRL` with RESTART at 1 and the target unchanged. -/
def execImgRestart (t : Nat) (r : Reader) (s : State) : Out :=
  .next (regAccess t r false Reg.CORE_IMG_CTRL (some (0x80000000 ||| put 1 0 s.dev.cpu.img.target)) s)

/-- IMG_BOOT (R404): a write of `CORE_IMG_CTRL` with BOOT at 1 and the target unchanged. -/
def execImgBoot (t : Nat) (r : Reader) (s : State) : Out :=
  .next (regAccess t r false Reg.CORE_IMG_CTRL (some (0x40000000 ||| put 1 0 s.dev.cpu.img.target)) s)

/-- BOOT_ROM (R326, R404): with the boot strap at 1 the ROM reads the image from flash, checks it and starts firmware; with
it at 0 it waits for the host. -/
def execBootRom (t : Nat) (flash : List Word) (s : State) : Out :=
  let d := tick t s.dev
  .next (if romRuns d && d.sys.flash then mboxScanDue { s with dev := romFlash flash d } else { s with dev := d })

/-- WDOG (R453, R462): the watchdog of the core in service expires while its firmware runs. -/
def execWdog (t : Nat) (s : State) : Out := s.run fun d =>
  let d := tick t d
  if domOn d (coreDom d) && !d.cpu.bootRom && decide ((coreIn d).st ≠ .stopped) then raiseFault 0x30 (blkCore d) 0 d else d

end Sys2Proof.Machine
end

