-- ==== Sys2Proof/Machine/LinkOps.lean ====
section
/-! DEFINITION. A host frame as every frame command serves it: readiness, check word, link status, reply, rings and bulk
targets (R299-R324, R343-R348). -/
namespace Sys2Proof.Machine

/-! Ports (R302, R303, R320, R321) -/

/-- Registers of a port (R327). -/
def linkReg (a : Nat) (b : Bool) : Nat := a + portOffset b

/-- The rail of a port stands (R410). -/
def portRail (d : Dev) (b : Bool) : Bool := if b then d.pmu.vioB else d.pmu.vioA

/-- The port is in slave service: not OFF and not in master mode. -/
def slaveService (d : Dev) (b : Bool) : Bool := !(port d b).off && !(b && d.mst.on)

/-- The port is ready (R303, R410): not while its own test keeps it out of service (R466). -/
def portReady (d : Dev) (b : Bool) : Bool :=
  domOn d (if b then 2 else 1) && slaveService d b && (port d b).bulk.isNone && portRail d b && !outOfService d (if b then 2 else 1)

/-- A frame whose select fell at `fall` is heard: the port was ready then and has been ever since (R303, R318). -/
def portHears (d : Dev) (b : Bool) (fall : Nat) : Bool := portReady d b && decide ((port d b).readyAt ≤ fall)

/-- The reader a port stands for. -/
def portReader (b : Bool) : Reader := if b then .spiB else .spiA

/-- The ready word (R302). -/
def readyWordOf (d : Dev) (b : Bool) : Word :=
  put 31 28 0xA ||| putB 27 (portIrq d b) ||| putB 26 (slaveService d (!b)) ||| put 23 16 (port d b).seq.toNat
    ||| put 15 0 (port d b).epoch.toNat

/-- CRC-32C of a frame's words with the suffix of epoch and sequence number (R304). -/
def frameCrc (epoch : BitVec 16) (seq : BitVec 8) (ws : List Word) : Word :=
  nw (crc32c (ws.flatMap bytesOf ++ [epoch.extractLsb' 8 8, epoch.extractLsb' 0 8, seq]))

/-- Header of a frame (R301). -/
def frameHeader (kind : Nat) (seq : BitVec 8) (field : Nat) : Word := put 31 28 kind ||| put 23 16 seq.toNat ||| put 15 0 field

/-- The last frame of a port as its MISO showed it. -/
def setReply (b : Bool) (ready : Word) (reply : List Word) (s : State) : State :=
  { s with dev := setPort b { port s.dev b with readyWord := ready, reply := reply } s.dev }

/-! Errors in a row (R324) -/

/-- A frame ended bad: ERR_MAX in a row raise ERRS and a fault. -/
def frameBad (b : Bool) (d : Dev) : Dev :=
  let run := (port d b).errRun + 1
  let d := setPort b { port d b with errRun := run } d
  let m := fld (reg d Reg.LINK_CFG) 7 0
  if m ≠ 0 ∧ run = m then
    raiseFault (if b then 0x49 else 0x48) (if b then 2 else 1) 0 (event (linkReg Reg.LINK_A_EVENT b) 7 d)
  else d

/-! Frames (R300, R304-R309) -/

/-- What the serving of a frame answers: its data words, link status and count. -/
structure Served where
  data : List Word
  status : Nat
  count : Nat

/-- Words of a reply (R309). -/
def replyWords (kind : Nat) (epoch : BitVec 16) (seq : BitVec 8) (r : Served) : List Word :=
  let body := [put 31 28 kind ||| put 23 16 seq.toNat ||| put 15 0 r.data.length] ++ r.data
    ++ [put 31 24 r.status ||| put 10 0 r.count]
  body ++ [frameCrc epoch seq body]

/-- A frame that fails its check (R306, R328). -/
def frameRefuse (b seqBad : Bool) (d : Dev) : Dev :=
  frameBad b (count (linkReg Reg.LINK_A_CNT b) 15 8 1 (event (linkReg Reg.LINK_A_EVENT b) (if seqBad then 2 else 1) d))

/-- A frame whose check is good: the sequence number advances and the run of errors ends (R305, R324). -/
def frameGood (b : Bool) (d : Dev) : Dev :=
  let d := count (linkReg Reg.LINK_A_CNT b) 31 16 1 d
  setPort b { port d b with seq := (port d b).seq + 1, errRun := 0 } d

/-- Events of a link status (R328). -/
def statusEvent (b : Bool) (st : Nat) (d : Dev) : Dev :=
  if st = 0x12 ∨ st = 0x13 ∨ st = 0x14 then event (linkReg Reg.LINK_A_EVENT b) 3 d
  else if st = 0x01 then event (linkReg Reg.LINK_A_EVENT b) 5 d
  else d

/-- The select of a frame rises: its changes take effect then (R308). -/
def release (rel : Nat) (s : State) : State := hostRun { s with dev := tick rel s.dev }

/-- One frame from its select fall to its release (R300-R309): `words` are its host part without the CRC word; `serve` is
what it does when its check is good, from the end of the host part on. -/
def frameServe (f : FrameIn) (words : List Word) (serve : State → State × Served) (s : State) : State :=
  let s := hostRun { s with dev := tick f.t s.dev }
  let b := f.port
  release f.rel (
    if !portHears s.dev b f.fall then setReply b 0 [] s
    else
      let p := port s.dev b
      let ready := readyWordOf s.dev b
      let kind := fld (nth 0 words 0) 31 28
      if f.crc ≠ frameCrc p.epoch p.seq words then
        let seqBad := decide (f.seq ≠ p.seq)
        setReply b ready (replyWords kind p.epoch p.seq ⟨[], if seqBad then 0x11 else 0x10, 0⟩)
          { s with dev := frameRefuse b seqBad s.dev }
      else
        let before := s.dev.sys.stage
        let (s, r) := serve { s with dev := frameGood b s.dev }
        if s.dev.sys.stage < before then setReply b ready [] s   -- a soft reset: no reply follows (R374)
        else setReply b ready (replyWords kind p.epoch p.seq r) { s with dev := statusEvent b r.status s.dev })

/-- A frame that ends with a status and does nothing else. -/
def served (st n : Nat) (s : State) : State × Served := (s, ⟨[], st, n⟩)

/-- Aborted frames (R307). -/
def frameAborted (b : Bool) (fall : Nat) (s : State) : State :=
  if portHears s.dev b fall then
    setReply b (readyWordOf s.dev b) []
      { s with dev := frameBad b (count (linkReg Reg.LINK_A_CNT b) 7 0 1 (event (linkReg Reg.LINK_A_EVENT b) 4 s.dev)) }
  else setReply b 0 [] s

/-! Register frames (R310, R311) -/

/-- Words of a register frame that lie past the last address. -/
def wordsPast (a n : Nat) : Nat := a + n - min (a + n) 0x800

/-- Writes successive registers, in ascending order. -/
def writeRun (r : Reader) (sh : Bool) : Nat → List Word → State → State
  | _, [], s => s
  | a, v :: vs, s => writeRun r sh (a + 1) vs (if a < 0x800 then (writeReg r sh a v s).1 else s)

/-- Reads `n` successive registers; words past the last address read 0. -/
def readRun (r : Reader) (sh : Bool) : Nat → Nat → State → State × List Word
  | _, 0, s => (s, [])
  | a, n + 1, s =>
    let (s, v) := if a < 0x800 then readReg r sh a s else (s, 0)
    let (s, vs) := readRun r sh (a + 1) n s
    (s, v :: vs)

/-! Rings through the link (R312-R314, R343-R348) -/

/-- A push of a packet (R312, R343, R356): its room is reserved at the end of the host part, and it is placed at release. -/
def pushPacket (rel n : Nat) (packet : List Word) (s : State) : State × Served :=
  let r := ring s.dev n
  if r.en = false then served 0x14 0 s
  else if packet.length ≤ r.room then (let s := release rel s; { s with dev := ringPlace n packet false s.dev }, ⟨[], 0, 0⟩)
  else ({ s with dev := count (ringReg n 5) 31 16 1 (event (ringReg n 6) 1 s.dev) }, ⟨[], 0x2B, r.room⟩)

/-- Sequence number of a record. -/
def recSeq (r : List Word) : BitVec 8 := (nth 0 r 0).extractLsb' 0 8

/-- An acknowledgement (R314, R344): records freed, or whether it is bad. -/
def ringAck (n : Nat) (seq : BitVec 8) (d : Dev) : Dev × Bool :=
  let r := ring d n
  let h : BitVec 8 := if r.held = 0 then r.nseq else recSeq (nth [] r.recs 0)
  if (seq - h).toNat < r.held then
    let k := (seq - h).toNat + 1
    let words := ((r.recs.take k).map List.length).sum
    (setRing n { r with recs := r.recs.drop k, held := r.held - k, rpos := (r.rpos + words) % max 1 r.cap
                        gapFresh := r.gapFresh && decide (k < r.recs.length) } d, false)
  else if (h - 1 - seq).toNat < 128 then (d, false)
  else (d, true)

/-- Records that fit in `room` words, at most `k`. -/
def recsFit : Nat → Nat → List (List Word) → List (List Word)
  | 0, _, _ => []
  | _, _, [] => []
  | k + 1, room, r :: rs => if r.length ≤ room then r :: recsFit k (room - r.length) rs else []

/-- Records a pull returns (R313, R348): held ones first; an empty ring gives IDLE. -/
def ringReturn (n max : Nat) (d : Dev) : Dev × Served :=
  let r := ring d n
  match r.recs with
  | [] => (d, ⟨[recHeader 0xFFFF 1 (r.nseq - 1)], 0, 0⟩)
  | first :: _ =>
    if max < first.length then (d, ⟨[], 0x03, first.length⟩)
    else
      let out := recsFit 128 max r.recs
      (setRing n { r with held := Nat.max r.held out.length, gapFresh := r.gapFresh && decide (out.length < r.recs.length) } d,
        ⟨out.flatten, 0, 0⟩)

/-- A pull starts the ring's stale time again (R346). -/
def ringPulled (n : Nat) (d : Dev) : Dev :=
  let ms := fld (reg d (ringReg n 5)) 15 0
  setRing n { ring d n with staleAt := if ms = 0 then none else some (d.now + ms * 160000) } d

/-! Bulk (R315-R317, R329) -/

/-- Bits of a bulk transfer: 0 and values above 32,768 act as 32,768. -/
def bulkBits (d : Dev) (b : Bool) : Nat :=
  let x := if b then fld (reg d Reg.LINK_XLEN) 31 16 else fld (reg d Reg.LINK_XLEN) 15 0
  if x = 0 ∨ 32768 < x then 32768 else x
def bulkWords (d : Dev) (b : Bool) : Nat := (bulkBits d b + 31) / 32

/-- Allowed targets: read only, written only, or both; with a shadow address. -/
def bulkTarget (a : Nat) (sh rd : Bool) : Bool :=
  match a with
  | 0x09A => true
  | 0x308 => true
  | 0x489 => true
  | 0x521 => true
  | 0x5E1 => true
  | 0x32C => !sh
  | 0x3D9 => !sh
  | 0x439 => !sh
  | 0x1B4 => !sh
  | 0x5E3 => !sh && rd
  | 0x599 => !sh && rd
  | 0x649 => !sh && rd
  | 0x785 => !sh && !rd
  | _ => false

/-- The last partial word of `k` bits keeps its high bits. -/
def lastMask (bits : Nat) : Word := if bits % 32 = 0 then 0xFFFFFFFF else nw (2 ^ 32 - 2 ^ (32 - bits % 32))

/-- Register word `i` of a bulk transfer: `SEQ_TAB_DATA_L` and `_H` alternate. -/
def bulkAddr (a i : Nat) : Nat := if a = 0x489 then 0x489 + i % 2 else a

/-- Applies the words of a bulk write in order; counts those applied and rejected. -/
def bulkApply (r : Reader) (sh : Bool) (a : Nat) : Nat → List Word → State → State × Nat × Nat
  | _, [], s => (s, 0, 0)
  | i, v :: vs, s =>
    let (s, ok) := writeReg r sh (bulkAddr a i) v s
    let (s, n, m) := bulkApply r sh a (i + 1) vs s
    (s, if ok then n + 1 else n, if ok then m else m + 1)

/-- Reads of a bulk read. -/
def bulkRun (r : Reader) (sh : Bool) (a : Nat) : Nat → Nat → State → State × List Word
  | _, 0, s => (s, [])
  | i, n + 1, s =>
    let (s, v) := readReg r sh (bulkAddr a i) s
    let (s, vs) := bulkRun r sh a (i + 1) n s
    (s, v :: vs)

end Sys2Proof.Machine
end

