-- ==== Sys2Proof/Machine/Link.lean ====
section
/-! DEFINITION. The commands of the host link: frames, wakes, port service and the SPI_B master (R299-R329). -/
namespace Sys2Proof.Machine

/-! Frames -/

/-- Kind-specific field of a register frame (R301). -/
def addrField (shadow : Bool) (addr : BitVec 13) : Nat := (if shadow then 0x8000 else 0) + addr.toNat

/-- REGISTER_WRITE (R301, R306, R308, R311). -/
def execRegisterWrite (f : FrameIn) (shadow : Bool) (addr : BitVec 13) (data : List Word) (s : State) : Out :=
  let h := frameHeader 1 f.seq (addrField shadow addr)
  let n := data.length
  .next (
    if 0x800 ≤ addr.toNat then frameServe f [h] (served 0x14 0) s
    else if n = 0 ∨ 256 < n then frameServe f [h, nw n] (served 0x13 0) s
    else frameServe f (h :: nw n :: data) (fun s =>
      let past := wordsPast addr.toNat n
      (writeRun (portReader f.port) shadow addr.toNat data (release f.rel s), ⟨[], if past = 0 then 0 else 1, past⟩)) s)

/-- REGISTER_READ (R301, R306, R310, R311). -/
def execRegisterRead (f : FrameIn) (shadow : Bool) (addr : BitVec 13) (n : Nat) (s : State) : Out :=
  let h := frameHeader 2 f.seq (addrField shadow addr)
  .next (
    if 0x800 ≤ addr.toNat then frameServe f [h] (served 0x14 0) s
    else if n = 0 ∨ 256 < n then frameServe f [h, nw n] (served 0x13 0) s
    else frameServe f [h, nw n] (fun s =>
      let past := wordsPast addr.toNat n
      let (s, ws) := readRun (portReader f.port) shadow addr.toNat n s
      (s, ⟨ws, if past = 0 then 0 else 1, past⟩)) s)

/-- COMMAND_PUSH (R301, R312). -/
def execCommandPush (f : FrameIn) (ring : Nat) (packet : List Word) (s : State) : Out :=
  let n := packet.length
  let h := frameHeader 3 f.seq (2048 * ring + n % 2048)
  .next (
    if 4 ≤ ring then frameServe f [h] (served 0x14 0) s
    else if n = 0 ∨ 256 < n then frameServe f [h] (served 0x13 0) s
    else frameServe f (h :: packet) (pushPacket f.rel ring packet) s)

/-- RING_PULL (R301, R313, R314, R346, R348): `ack` holds ACK in bit 8 and SEQ below it; `ecc` marks an uncorrectable error
in the ring, which is flushed (R453). -/
def execRingPull (f : FrameIn) (ring max ack : Nat) (ecc : Bool) (s : State) : Out :=
  let h := frameHeader 4 f.seq (2048 * ring + max % 2048)
  let a := putB 31 (ack.testBit 8) ||| put 7 0 ack
  .next (
    if ring < 4 ∨ 32 ≤ ring then frameServe f [h] (served 0x14 0) s
    else if max = 0 then frameServe f [h] (served 0x13 0) s
    else frameServe f [h, a] (fun s =>
      if (Machine.ring s.dev ring).en = false then served 0x14 0 s
      else
        let d := if ecc then raiseFault 0x42 blkRing ring s.dev else s.dev
        let (d, bad) := if ack.testBit 8 then ringAck ring (BitVec.ofNat 8 ack) d else (d, false)
        let (d, r) := ringReturn ring (min 1024 max) (ringPulled ring d)
        ({ s with dev := if bad then event (linkReg Reg.LINK_A_EVENT f.port) 6 d else d }, r)) s)

/-- BULK_WRITE (R301, R315, R316): held whole in the port's buffer; a frame shorter than X bits is aborted. -/
def execBulkWrite (f : FrameIn) (shadow : Bool) (addr : BitVec 13) (data : List Word) (s : State) : Out :=
  let h := frameHeader 5 f.seq (addrField shadow addr)
  let a := addr.toNat
  let n := bulkWords s.dev f.port
  .next (
    if bulkTarget a shadow false = false then frameServe f [h] (served 0x14 0) s
    else if data.length < n then frameAborted f.port f.fall { s with dev := tick f.t s.dev }
    else
      let f := if n < data.length then { f with crc := nth 0 data n } else f
      let ws := data.take n
      frameServe f (h :: ws) (fun s =>
        let s := release f.rel s
        let last := nth 0 ws (n - 1) &&& lastMask (bulkBits s.dev f.port)
        let buf : BulkBuf := { addr := a, shadow := shadow, words := ws.take (n - 1) ++ [last], start := s.dev.now }
        ({ s with dev := setPort f.port { port s.dev f.port with bulk := some buf } s.dev }, ⟨[], 0, 0⟩)) s)

/-- BULK_READ (R301, R315, R317). -/
def execBulkRead (f : FrameIn) (shadow : Bool) (addr : BitVec 13) (s : State) : Out :=
  let h := frameHeader 5 f.seq (0x4000 + addrField shadow addr)
  let a := addr.toNat
  .next (
    if bulkTarget a shadow true = false then frameServe f [h] (served 0x14 0) s
    else frameServe f [h] (fun s =>
      let n := bulkWords s.dev f.port
      let m := lastMask (bulkBits s.dev f.port)
      let (s, ws) := bulkRun (portReader f.port) shadow a 0 n s
      (s, ⟨ws.take (n - 1) ++ [nth 0 ws (n - 1) &&& m], 0, 0⟩)) s)

/-- BULK_APPLY_DONE (R316): the words of a bulk write have gone through the target one by one, one each fine tick. -/
def execBulkApplyDone (t : Nat) (port : Bool) (s : State) : Out :=
  let s := hostRun { s with dev := tick t s.dev }
  match (Machine.port s.dev port).bulk with
  | none => .next s
  | some b => if s.dev.now < b.start + b.words.length then .next s else
    let (s, n, m) := bulkApply (portReader port) b.shadow b.addr 0 b.words s
    let d := setPort port { Machine.port s.dev port with bulk := none, readyAt := s.dev.now } s.dev
    let d := setReg (linkReg Reg.LINK_A_BULK port) (put 31 16 (min 0xFFFF m) ||| put 15 0 (min 0xFFFF n)) d
    .next { s with dev := if m = 0 then d else event (linkReg Reg.LINK_A_EVENT port) 8 d }

/-- FRAME_ABORT (R307, R324): the select rises before the host part is whole. -/
def execFrameAbort (fall t : Nat) (port : Bool) (s : State) : Out :=
  .next (frameAborted port fall { s with dev := tick t s.dev })

/-- Status of a header or count word out of range (R301, R309); none for a frame in range. -/
def malformedStatus (h : Word) (rest : List Word) : Option (Nat × Nat) :=
  let kind := fld h 31 28
  let ring := fld h 15 11
  let low := fld h 10 0
  let c := nth 0 rest 0
  if h = 0x6B2D6B2D then none
  else if fld h 27 24 ≠ 0 ∨ kind = 0 ∨ 5 < kind then some (0x12, 0)
  else if kind ≤ 2 then
    (if fld h 14 11 ≠ 0 then some (0x14, 0)
     else if rest ≠ [] ∧ (fld c 31 9 ≠ 0 ∨ fld c 8 0 = 0 ∨ 256 < fld c 8 0) then some (0x13, 1)
     else none)
  else if kind = 3 then (if 4 ≤ ring then some (0x14, 0) else if low = 0 ∨ 256 < low then some (0x13, 0) else none)
  else if kind = 4 then (if ring < 4 then some (0x14, 0) else if low = 0 then some (0x13, 0) else none)
  else if fld h 13 11 ≠ 0 ∨ bulkTarget low (bit h 15) (bit h 14) = false then some (0x14, 0)
  else none

/-- MALFORMED_FRAME (R301, R306, R309): a header or count word is out of range; the next word is the CRC. -/
def execMalformedFrame (f : FrameIn) (header : Word) (rest : List Word) (s : State) : Out :=
  let header := setFld header 23 16 f.seq.toNat
  match malformedStatus header rest with
  | none => .next { s with dev := tick f.t s.dev }
  | some (st, k) => .next (frameServe f (header :: rest.take k) (served st 0) s)

/-! Wakes (R318-R320) -/

/-- SELECT_WAKE (R318): a select edge wakes its port's link domain, but not from deep state. -/
def execSelectWake (t : Nat) (port : Bool) (s : State) : Out := s.run fun d =>
  let d := tick t d
  let n := if port then 2 else 1
  if deepState d ∨ slaveService d port = false ∨ portRail d port = false ∨ domOn d n = true then d
  else wakeSource (if port then 4 else 3) [n] d

/-- WAGGLE (R319, R320, R323, R325): the port's link domain and those of `PMU_WAKE_WAGGLE` wake; a ready port shows its
ready word. -/
def execWaggle (fall t : Nat) (port : Bool) (s : State) : Out :=
  let s := { s with dev := tick t s.dev }
  let d := s.dev
  if (port && d.mst.on) = true ∨ portRail d port = false then .next s
  else
    let s := if portHears d port fall then setReply port (readyWordOf d port) [] s else setReply port 0 [] s
    let doms := (if port then 2 else 1) :: wakeMask d (reg d Reg.PMU_WAKE_WAGGLE)
    .next { s with dev := wakeSource (if port then 2 else 1) doms s.dev }

/-! Port control (R305, R323, R325, R326) -/

/-- REEPOCH (R305, R328): a write of `LINK_x_CTRL` with REEPOCH at 1 and its other bits as they stand. -/
def execReepoch (t : Nat) (r : Reader) (port : Bool) (s : State) : Out :=
  let a := linkReg Reg.LINK_A_CTRL port
  .next (regAccess t r false a (some (regWord s a ||| 1)) s)

/-- PORT_OFF (R323): a write of OFF. -/
def execPortOff (t : Nat) (r : Reader) (port off : Bool) (s : State) : Out :=
  let a := linkReg Reg.LINK_A_CTRL port
  .next (regAccess t r false a (some ((regWord s a &&& 4) ||| putB 1 off)) s)

/-- MASTER_MODE (R325): a write of `LINK_B_CTRL.MASTER`. -/
def execMasterMode (t : Nat) (r : Reader) (on : Bool) (s : State) : Out :=
  .next (regAccess t r false Reg.LINK_B_CTRL (some ((regWord s Reg.LINK_B_CTRL &&& 2) ||| putB 2 on)) s)

/-- MASTER_TRANSFER (R326): GO is written with the other fields of `LINK_M_CTRL` as they stand. -/
def execMasterTransfer (t : Nat) (r : Reader) (s : State) : Out :=
  .next (regAccess t r false Reg.LINK_M_CTRL (some (regWord s Reg.LINK_M_CTRL ||| 0x80000000)) s)

/-- The bytes received replace those sent from the same positions (R326). -/
def masterBytes (n : Nat) (rx : List Word) (buf : CMap Word) : CMap Word :=
  (List.range 64).foldl (fun m i =>
    if 4 * i < n then
      let k := lastMask (8 * min 4 (n - 4 * i))
      memSet m i ((nth 0 rx i &&& k) ||| (memW m i &&& ~~~ k))
    else m) buf

/-- MASTER_TRANSFER_DONE (R325, R326): the transfer ends; the select rises unless HOLD is 1. -/
def execMasterTransferDone (t : Nat) (rx : List Word) (s : State) : Out := s.run fun d =>
  let d := tick t d
  match d.mst.busy with
  | none => d
  | some e =>
    if e ≤ t then
      let c := reg d Reg.LINK_M_CTRL
      let d := event Reg.LINK_B_EVENT 10
        { d with mst := { d.mst with
          busy := none, low0 := d.mst.low0 && bit c 30, low1 := d.mst.low1 && bit c 30, buf := masterBytes d.mst.out.length rx d.mst.buf } }
      if d.mst.leaving then masterLeave d else d
    else d

/-- LINK_M_DATA_ACCESS (R327): one access of the master buffer port. -/
def execLinkMDataAccess (t : Nat) (r : Reader) (wr : Option Word) (s : State) : Out :=
  .next (regAccess t r false Reg.LINK_M_DATA wr s)

end Sys2Proof.Machine
end

