-- ==== Sys2Proof/Machine/RegRows.lean ====
section
/-! DEFINITION. The register commands of the SYS bank, latched pairs, and the write of any other register (R358-R374). -/
namespace Sys2Proof.Machine

/-- SET_COPY (R368): `SYS_SET_CTRL.COPY` written 1. -/
def execSetCopy (t : Nat) (r : Reader) (s : State) : Out := .next (regAccess t r false Reg.SYS_SET_CTRL (some 1) s)

/-- A SET_TURN that waited for a copy is armed (R368). -/
def turnArm (d : Dev) : Dev :=
  match d.seq.turn with
  | none => d
  | some a => if a.armed then d else
    { d with seq := { d.seq with turn := some { a with armed := true, t0 := if a.slot.isSome then none else some (d.now + 1) } } }

/-- COPY_DONE (R368): the shadow set holds the content of the active set; the pointers keep their values. -/
def execCopyDone (t : Nat) (s : State) : Out := s.run fun d =>
  let d := tick t d
  if d.sys.copyEnd.any fun e => decide (e ≤ d.now) then
    turnArm (event Reg.SYS_EVENT 2 (setShadow (activeSet d) { d with sys := { d.sys with copyEnd := none } }))
  else d

/-- SYS_CTRL_SAFE (R374, R458): a write of `SYS_CTRL` with SAFE at 1. -/
def execSysCtrlSafe (t : Nat) (r : Reader) (v : Word) (s : State) : Out :=
  .next (regAccess t r false Reg.SYS_CTRL (some (v ||| 2)) s)

/-- SOFT_RESET (R374, R477): a write of `SYS_CTRL` with RESET at 1. -/
def execSoftReset (t : Nat) (r : Reader) (v : Word) (s : State) : Out :=
  .next (regAccess t r false Reg.SYS_CTRL (some (v ||| 1)) s)

/-- LATCHED_PAIR_READ (R360): one read of either register of a pair. -/
def execLatchedPairRead (t : Nat) (r : Reader) (addr : BitVec 13) (s : State) : Out :=
  .next (regAccess t r false addr.toNat none s)

/-- GENERIC_REGISTER_WRITE (R11, R12, R358, R362, R365): one write of a register. -/
def execGenericRegisterWrite (t : Nat) (r : Reader) (shadow : Bool) (addr : BitVec 13) (v : Word) (s : State) : Out :=
  .next (if addr.toNat < 0x800 then regAccess t r shadow addr.toNat (some v) s else s)

end Sys2Proof.Machine
end

