-- ==== Sys2Proof/Machine/ResetRows.lean ====
section
/-! DEFINITION. The commands of reset and start-up (R373, R473-R480). -/
namespace Sys2Proof.Machine

/-- BROWN_OUT (R409, R477): VSYS falls below 1.60 V; the whole device is reset and held. -/
def execBrownOut (t : Nat) (s : State) : Out := s.run fun d => coldReset 0 (setCause 6 (setCause 1 (tick t d)))

/-- POWER_ON_RESET (R373, R477, R479): VSYS rises through 1.66 V. It ends the hold of a brown-out, whose cause stays; any
other power-on clears every cause and sets POR and AON. -/
def execPowerOnReset (t : Nat) (s : State) : Out := s.run fun d =>
  let d := tick t d
  if d.sys.stage = 0 ∧ bit (reg d Reg.SYS_RST_CAUSE) 1 = true then coldReset 1 d
  else coldReset 1 (setCause 6 (setCause 0 (setReg Reg.SYS_RST_CAUSE 0 d)))

/-- PIN_RESET (R410, R473, R478, R479): RESET_N has held low for 1 us, or TEST_MODE is high; its end releases the start-up
sequence. During the sequence of a loss of VSYS it restarts that sequence. -/
def execPinReset (t : Nat) (low : Bool) (s : State) : Out := s.run fun d =>
  let d := tick t d
  if low then
    (if d.pmu.vioA = false ∨ d.sys.stage = 0 then d
     else if d.sys.stage < 3 then
       let d := setCause 2 d
       { d with sys := { d.sys with stage := 1, held := true } }
     else warmReset 2 3 true d)
  else { d with sys := { d.sys with held := false } }

/-- STARTUP_STAGE_DONE (R480): a stage of the start-up sequence completes. -/
def execStartupStageDone (t : Nat) (straps : BitVec 3) (s : State) : Out := s.run fun d =>
  let d := tick t d
  if 1 ≤ d.sys.stage ∧ d.sys.stage < 7 ∧ d.sys.held = false then startStage straps d else d

end Sys2Proof.Machine
end

