-- ==== Sys2Proof/Machine/Rings.lean ====
section
/-! DEFINITION. Commands of operations and rings that no packet makes: starts, the hand-over of a swap, held records, kept
GAPs, ring registers and stale timers (R334-R348, R405). -/
namespace Sys2Proof.Machine

/-! Starts (R337, R405) -/

/-- The applet region of a core's instruction SRAM, by word address (R376). -/
def appletRegion (m : CMap Word) : CMap Word := m.filter fun e => decide (0xC000 ≤ e.1)

/-- The core that takes over: its image, and the applet region, control store and decode table of the core it follows. -/
def heirCore (d : Dev) : Core :=
  let c := otherCore d
  { Core.reset with
    isram := CMap.clearRange c.isram 0xC000 0xFFFF ++ appletRegion (coreIn d).isram, cs := (coreIn d).cs, dec := (coreIn d).dec
    entry := c.entry, ver := c.ver, pc := c.entry, cycBase := nw (d.now * 5 / 2) }

/-- Steps 3 to 5 of a swap (R405): the applet stops, the spare takes the service over, the outgoing domain goes to RET, and
the new firmware ends the operation. -/
def handOver (o : Op) (d : Dev) : Dev :=
  let wasRun := d.cpu.apl.run
  let d := if wasRun then appletHalt 0 (coreIn d).pc d else d
  let heir := heirCore d
  let was := coreDom d
  let d := setCore { coreIn d with st := .stopped } d
  let d := setOther heir d
  let d := { d with cpu := { d.cpu with onS := !d.cpu.onS, spareRun := false, bootRom := false }, sys := { d.sys with fwVer := heir.ver } }
  let d := setDom was { dom d was with pos := .ret, mode := 1, pend := none } d
  let d := event Reg.CORE_EVENT 2 d
  let d := if wasRun || (bit (reg d Reg.CORE_APL_CFG) 1 && d.cpu.apl.ok) then appletStart true d else d
  endOp o.tag 0x00 .done [] (updOp o.tag (fun o => { o with progress := 1, pend := .none }) d)

/-- A swap that runs reaches its hand-over; a pending request takes hold before it, and a spare that cannot take the state
version of the running firmware fails the swap (R339, R405). -/
def swapStep (o : Op) (d : Dev) : Dev :=
  if o.pend ≠ .none ∨ o.failAs ≠ none then opTake o d
  else if Config.swapTakes d.sys.fwVer (otherCore d).ver then handOver o d
  else finishOp o 0x65 .failed [] d

/-- DSRAM_ECC (R453): the operation that owns the data ends FAILED with MEM_FAULT. -/
def dataLost (o : Op) (d : Dev) : Dev :=
  raiseWith 0x43 blkRing 0 (put 31 24 0x63 ||| put 22 16 o.tag) (failOp o 0x63 d)

/-- OPERATION_START (R209, R337, R405, R415): a QUEUED operation starts when it may; an inventory that yielded its thread
goes on; a SWAP_CORE that runs hands over, and an ONLINE_TEST that waits begins (R466). `ecc`: the
operation's data in data SRAM hold an uncorrectable error (R453). -/
def execOperationStart (t tag : Nat) (ecc : Bool) (s : State) : Out := s.run fun d =>
  let d := tick t d
  match findOp d tag with
  | none => d
  | some o =>
    if ecc && !o.ended then dataLost o d
    else if o.ended || (!o.long && decide (o.opcode ≠ 0x409)) then d
    else match o.st with
    | .queued => tryStart tag d
    | .running =>
      if o.opcode = 0x903 then swapStep o d
      else if o.opcode = 0x801 then testBegin s.tagm.sess d
      else resumeYielded tag d
    | _ => d

/-! Records (R335, R343, R345) -/

/-- Ring that takes a held record now. -/
def heldRing (d : Dev) (h : HeldRec) : Nat := if (ring d h.ring).en ∧ h.words.length + 2 ≤ (ring d h.ring).cap then h.ring else 4

/-- A held record may be written: no earlier one of its tag waits, and its ring has room. -/
def heldMay (d : Dev) (i : Nat) (h : HeldRec) : Bool :=
  (d.held.take i).all (fun e => e.tag ≠ h.tag) && recFits d (heldRing d h) h.words.length && (ring d (heldRing d h)).pendGap == 0

/-- The tag of an ended operation is free once none of its records is held (R334). -/
def tagFree (tag : Nat) (d : Dev) : Dev :=
  if hasHeld d tag then d else { d with ops := d.ops.filter fun o => !(o.tag == tag && o.ended) }

/-- HELD_RECORD_WRITE (R335): the oldest held record whose ring has room is written. -/
def execHeldRecordWrite (t : Nat) (s : State) : Out := s.run fun d =>
  let d := tick t d
  match ((List.range d.held.length).zip d.held).find? fun p => heldMay d p.1 p.2 with
  | none => d
  | some (i, h) =>
    match h.words with
    | [] => d
    | ty :: body => tagFree h.tag (recPlace (heldRing d h) ty.toNat body false { d with held := d.held.eraseIdx i })

/-- GAP_DEFERRED_WRITE (R345): a kept GAP is written as soon as two words are free. -/
def execGapDeferredWrite (t ring : Nat) (s : State) : Out := s.run fun d =>
  if 4 ≤ ring ∧ ring < 32 then gapFlush ring (tick t d) else tick t d

/-! Ring registers (R343, R346, R347) -/

/-- RING_CFG_WRITE (R343): one write of `RING_n_CFG`. -/
def execRingCfgWrite (t : Nat) (r : Reader) (ring : Nat) (v : Word) (s : State) : Out :=
  .next (regAccess t r false (ringReg (ring % 32) 0) (some v) s)

/-- RING_FLUSH (R347): `RING_n_CTRL.FLUSH` written 1, its watermark as it stands. -/
def execRingFlush (t : Nat) (r : Reader) (ring : Nat) (s : State) : Out :=
  let a := ringReg (ring % 32) 4
  .next (regAccess t r false a (some ((reg s.dev a &&& 0x1FFFF) ||| putB 31 true)) s)

/-- RING_STALE (R346): the time runs out; with a record not freed STALE is set and the timer starts again. -/
def execRingStale (t ring : Nat) (s : State) : Out := s.run fun d =>
  let d := tick t d
  let n := ring % 32
  let r := Sys2Proof.Machine.ring d n
  let ms := fld (reg d (ringReg n 5)) 15 0
  if 4 ≤ n ∧ (r.staleAt.any fun e => decide (e ≤ d.now)) = true ∧ ms ≠ 0 then
    if r.recs.isEmpty then setRing n { r with staleAt := none } d
    else event (ringReg n 6) 2 (setRing n { r with staleAt := some (d.now + ms * 160000) } d)
  else d

end Sys2Proof.Machine
end

