-- ==== Sys2Proof/Machine/SvcRows.lean ====
section
/-! DEFINITION. The commands of faults, in-service test and repair (R451-R470). -/
namespace Sys2Proof.Machine

/-! Handling (R454-R457) -/

/-- A chain's slice is retired by its recovery (R453, R461); with no spare left it stays, and the entry closes NONE. -/
def sliceRecovered (ch : Bool) (h : Handling) (d : Dev) : Dev :=
  if (bestSpare d ch).isSome ∧ (retiredOf d ch).length < 2 then ledgerClose h.num 5 (retireSlice ch h.detail d)
  else ledgerClose h.num 4 d

/-- The innermost handling is complete: it closes, and the one it interrupted resumes (R454, R455). -/
def handlingDone (d : Dev) : Dev :=
  match d.svc.opens with
  | [] => d
  | h :: rest =>
    let d := recoverEnd h.code { d with svc := { d.svc with opens := rest } }
    if h.code = 0x20 then sliceRecovered false h d
    else if h.code = 0x21 then sliceRecovered true h d
    else ledgerClose h.num 1 d

/-- FAULT_RECOVERY_DONE (R453-R455, R463, R465): the recovery and the ledger write of the innermost handling are complete; a
write that fails its read-back is a dependent fault. -/
def execFaultRecoveryDone (t : Nat) (writeOk : Bool) (s : State) : Out := s.run fun d =>
  let d := tick t d
  if writeOk || fenced d blkKeep then handlingDone d else raiseDependent 0x44 blkKeep 0 d

/-- A handling at level 1 or 2 whose window has ended (R452, R457). -/
def handlingLate (d : Dev) (h : Handling) : Bool :=
  decide (h.level ≤ 2 ∧ 0 < blockWindow h.block ∧ h.start + blockWindow h.block ≤ d.now)

/-- Open handlings of a block close FENCED (R456). -/
def closeFenced (b : Nat) (d : Dev) : Dev :=
  let mine := d.svc.opens.filter fun o => o.block = b
  mine.foldl (fun d o => ledgerClose o.num 2 d) { d with svc := { d.svc with opens := d.svc.opens.filter fun o => o.block ≠ b } }

/-- RECOVERY_TMO of a handling (R455, R457): at level 3 the safe state; else the block is fenced, or the safe state entered
where it is RF or cannot be fenced. -/
def recoveryTmo (h : Handling) (d : Dev) : Dev :=
  let (n, d) := faultNumber d
  let d := count Reg.SVC_CNT 7 0 1 d
  let e : Handling := ⟨n, h.block, 0x60, h.level + 1, d.now, h.num, 0⟩
  let d := ledgerAdd (ledgerWords d e 0 false 0) d
  let safe := fun (d : Dev) => closeAllSafe (ledgerClose n 3 (safeEnter n 0x60 h.block d))
  if 2 ≤ h.level ∨ blockRf h.block then safe d
  else
    let (d', ok) := fenceBlock h.block d
    if ok then closeFenced h.block (ledgerClose n 2 d') else safe d

/-- RECOVERY_TMO (R457). -/
def execRecoveryTmo (t : Nat) (s : State) : Out := s.run fun d =>
  let d := tick t d
  match d.svc.opens.find? (handlingLate d) with
  | none => d
  | some h => recoveryTmo h d

/-- QUEUED_FAULT_START (R456): with no fault open, the first queued fault is handled. -/
def execQueuedFaultStart (t : Nat) (s : State) : Out := s.run fun d =>
  let d := tick t d
  match d.svc.opens, d.svc.queue with
  | [], h :: rest => openHandling h true 0 false { d with svc := { d.svc with queue := rest } }
  | _, _ => d

/-! Self-checks (R453) -/

/-- CHECK_SELF: the known-vector check of the check units, every second. -/
def execCheckSelf (t : Nat) (ok : Bool) (s : State) : Out := s.run fun d =>
  let d := tick t d
  if ok then d else raiseFault 0x3A blkCheck 0 d

/-- DAMASK_SELF: the known-vector check of the hasher, at each epoch change and every hour. -/
def execDamaskSelf (t : Nat) (ok : Bool) (s : State) : Out := s.run fun d =>
  let d := tick t d
  if ok then d else raiseFault 0x52 blkDamask 0 d

/-! ONLINE_TEST (R466, R467) -/

/-- Result word W0. -/
def testWord (x : TestRun) : Word :=
  put 31 24 (if x.bad = 0 then 0 else 1) ||| put 23 16 x.bad ||| put 15 8 x.block ||| put 7 0 x.phase

/-- The test ends: its TEST record, `SVC_TEST` and its operation. -/
def testEnd (x : TestRun) (d : Dev) : Dev :=
  let fail := decide (x.bad ≠ 0)
  let d := writeRecord 5 0x0804 [testWord x, stampL d, stampH d, x.addr] (event Reg.SVC_EVENT 5 d)
  let d := setReg Reg.SVC_TEST (put 23 16 x.block ||| put 15 8 4 ||| putB 1 fail) { d with svc := { d.svc with test := none } }
  match findOp d x.tag with
  | none => d
  | some o => if fail then finishOp o 0x64 .failed [] d else finishOp o 0x00 .done [testWord x, x.addr] d

/-- The next phase begins; a request pending on the operation takes hold between phases (R339). -/
def testNext (x : TestRun) (d : Dev) : Dev :=
  let d := setReg Reg.SVC_TEST (put 23 16 x.block ||| put 15 8 x.now) { d with svc := { d.svc with test := some x } }
  match findOp d x.tag with
  | none => d
  | some o =>
    if x.bad = 0 ∧ (o.pend ≠ .none ∨ o.failAs ≠ none) then opTake o { d with svc := { d.svc with test := some { x with now := 0 } } }
    else progressRecord o d

/-- A phase has ended: a failure raises TEST_FAIL, whose recovery is the RESTORE phase (R453, R467). -/
def testPhase (ok : Bool) (addr : Word) (x : TestRun) (d : Dev) : Dev :=
  let failed := !ok && x.bad == 0
  let y := { x with phase := x.phase + (if ok then 1 else 0), bad := if failed then x.now else x.bad, addr := if failed then addr else x.addr }
  let d := updOp x.tag (fun o => { o with progress := nw y.phase }) d
  let d := if failed then raiseFault 0x58 x.block x.now d else d
  if d.svc.test.isNone then d
  else if x.now = 4 then testEnd y d
  else testNext { y with now := if y.bad = 0 then x.now + 1 else 4 } d

/-- TEST_PHASE_DONE (R466, R467): the running phase of the test completes with its result. -/
def execTestPhaseDone (t : Nat) (ok : Bool) (addr : Word) (s : State) : Out := s.run fun d =>
  let d := tick t d
  match d.svc.test with
  | none => d
  | some x => if x.now = 0 then d else testPhase ok addr x d

/-! The service ports (R468-R470) -/

/-- FENCE_CTRL_WRITE (R468, R470): one write of `SVC_FENCE_CTRL`. -/
def execFenceCtrlWrite (t : Nat) (r : Reader) (v : Word) (s : State) : Out :=
  .next (regAccess t r false Reg.SVC_FENCE_CTRL (some v) s)

/-- LEDGER_DATA_READ (R470): the ledger word at the pointer, which moves on. -/
def execLedgerDataRead (t : Nat) (r : Reader) (s : State) : Out :=
  .next (regAccess t r false Reg.SVC_LEDGER_DATA none s)

end Sys2Proof.Machine
end

