-- ==== Sys2Proof/Machine/TagmRows.lean ====
section
/-! DEFINITION. The commands of the commissioning tag: field sessions, the ISO/IEC 15693 requests, the mailbox lock and the
TAGM ports (R276-R298). -/
namespace Sys2Proof.Machine

/-! Sessions (R276, R277, R281, R294) -/

/-- UID of a session (R281): byte 7 is 0xE0, byte 6 is MFR, the rest is drawn or the serial. -/
def sessionUid (cfg uidCfg : Word) (drawn : BitVec 64) : DWord :=
  let low := if bit cfg 1 then drawn.toNat % 2 ^ 48 else Config.serial.toNat % 2 ^ 48
  BitVec.ofNat 64 (0xE0 * 2 ^ 56 + fld uidCfg 7 0 * 2 ^ 48 + low)

/-- TAGM_SESSION_START (R276, R277, R281, R295, R421): VH rises through the power-on level. -/
def execTagmSessionStart (t vh : Nat) (s : State) : Out :=
  let s := hostRun { s with dev := tick t s.dev }
  if s.tagm.sess = false ∧ vhOn ≤ vh then
    let (e, d) := if bit s.tagm.cfg 1 then drawEntropy s.dev else (0, s.dev)
    let g := { s.tagm with
      vh := min 4095 vh, sess := true, lock := none, tagSt := .ready, cfgS := s.tagm.cfg, uidCfgS := s.tagm.uidCfg
      fprotS := s.tagm.fprot, uid := sessionUid s.tagm.cfg s.tagm.uidCfg e, nValid := 0, nCommit := 0, nRefuse := 0
      reply := [] }
    let d := tagmCount 31 24 (tagmEvent 0 d)
    .next { s with dev := if aonOn d then wakeByMask 8 Reg.PMU_WAKE_TAGM d else d, tagm := g }
  else .next s

/-- TAGM_SESSION_END (R276, R277, R288, R293, R294): VH falls through the reset level. -/
def execTagmSessionEnd (t vh : Nat) (s : State) : Out :=
  let s := hostRun { s with dev := tick t s.dev }
  if s.tagm.sess ∧ vh ≤ vhReset then
    let g := s.tagm
    let s := lockRelease { s with dev := tagmEvent 1 s.dev }
    let d := if aonOn s.dev then
        writeRecord (tagmRing g) 0x0602 [put 31 16 g.nValid ||| put 15 8 g.nCommit ||| put 7 0 g.nRefuse, stampL s.dev, stampH s.dev] s.dev
      else s.dev
    .next { s with dev := d, tagm := { s.tagm with sess := false, vh := min 4095 vh, tagSt := .ready, reply := [] } }
  else .next s

/-! Requests (R279, R280) -/

/-- An AFI of a request fits the tag's (ISO/IEC 15693-3): 0 fits all, a zero nibble fits any. -/
def afiFits (req own : Nat) : Bool :=
  (req / 16 == 0 || req / 16 == own / 16) && (req % 16 == 0 || req % 16 == own % 16)

/-- The mask, bit 0 of the UID first, agrees with the UID. -/
def maskFits (uid : DWord) (mask : List Bool) : Bool := (mask.zipIdx).all fun p => p.1 == uid.getLsbD p.2

/-- INVENTORY_15693 (R279): a tag that is not quiet answers when AFI and mask fit; with 16 slots, in the slot of the next
four UID bits. -/
def execInventory15693 (f : TagFrame) (slots16 : Bool) (afi : Option Byte) (mask : List Bool) (s : State) : Out :=
  .next (tagCommand f
    (fun g => decide (g.tagSt ≠ .quiet) && maskFits g.uid mask && decide (mask.length ≤ (if slots16 then 60 else 64))
      && (match afi with | none => true | some a => afiFits a.toNat (fld g.cfgS 23 16)))
    (fun s => replyTo f ([0x00, BitVec.ofNat 8 (fld s.tagm.cfgS 31 24)] ++ uidBytes s.tagm.uid) s) s)

/-- STAY_QUIET (R279): no reply. -/
def execStayQuiet (f : TagFrame) (s : State) : Out :=
  .next (tagCommand f (fun g => match f.mode with | .addressed u => decide (u = g.uid) | _ => false)
    (fun s => { s with tagm := { s.tagm with tagSt := .quiet } }) s)

/-- READ_SINGLE_BLOCK (R279, R283). -/
def execReadSingleBlock (f : TagFrame) (blk : Byte) (s : State) : Out :=
  .next (tagCommand f (fun g => tagAddressed g f.mode)
    (fun s =>
      let b := blk.toNat
      if readDenied s.tagm b then countRefuse (tagError f 0x15 s)
      else replyTo f ([0x00] ++ (if f.opt then [secByte s.tagm b] else []) ++ blockBytes s.tagm b) s) s)

/-- WRITE_SINGLE_BLOCK (R283, R286, R287): the staged commit. -/
def execWriteSingleBlock (f : TagFrame) (blk : Byte) (data : List Word) (s : State) : Out :=
  .next (tagCommand f (fun g => tagAddressed g f.mode) (fieldWrite f blk.toNat data) s)

/-- READ_MULTIPLE_BLOCKS (R279, R280, R283): up to 8 blocks. -/
def execReadMultipleBlocks (f : TagFrame) (first : Byte) (count : Nat) (s : State) : Out :=
  .next (tagCommand f (fun g => tagAddressed g f.mode)
    (fun s =>
      let bs := (List.range count).map (first.toNat + ·)
      if 8 < count ∨ 256 < first.toNat + count then tagError f 0x10 s
      else if bs.any (readDenied s.tagm) then countRefuse (tagError f 0x15 s)
      else replyTo f ([0x00] ++ bs.flatMap fun b => (if f.opt then [secByte s.tagm b] else []) ++ blockBytes s.tagm b) s) s)

/-- SELECT_15693 (R279): the addressed tag becomes Selected; a selected one that another UID is sent to becomes Ready. -/
def execSelect15693 (f : TagFrame) (s : State) : Out :=
  .next (tagCommand f (fun g => match f.mode with | .addressed u => decide (u = g.uid ∨ g.tagSt = .selected) | _ => false)
    (fun s =>
      if tagAddressed s.tagm f.mode then replyTo f [0x00] { s with tagm := { s.tagm with tagSt := .selected } }
      else { s with tagm := { s.tagm with tagSt := .ready } }) s)

/-- RESET_TO_READY (R279). -/
def execResetToReady (f : TagFrame) (s : State) : Out :=
  .next (tagCommand f (fun g => tagAddressed g f.mode)
    (fun s => replyTo f [0x00] { s with tagm := { s.tagm with tagSt := .ready } }) s)

/-- GET_SYSTEM_INFORMATION (R279). -/
def execGetSystemInformation (f : TagFrame) (s : State) : Out :=
  .next (tagCommand f (fun g => tagAddressed g f.mode)
    (fun s => replyTo f ([0x00, 0x0F] ++ uidBytes s.tagm.uid ++ [BitVec.ofNat 8 (fld s.tagm.cfgS 31 24),
      BitVec.ofNat 8 (fld s.tagm.cfgS 23 16), 0xFF, 0x1F, 0x16]) s) s)

/-- GET_MULTIPLE_BLOCK_SECURITY (R279). -/
def execGetMultipleBlockSecurity (f : TagFrame) (first : Byte) (count : Nat) (s : State) : Out :=
  .next (tagCommand f (fun g => tagAddressed g f.mode)
    (fun s =>
      if 256 < first.toNat + count then tagError f 0x10 s
      else replyTo f ([0x00] ++ (List.range count).map fun i => secByte s.tagm (first.toNat + i)) s) s)

/-- UNSUPPORTED_TAG_COMMAND (R279): error 0x01 when addressed to the tag or in the selected mode. -/
def execUnsupportedTagCommand (f : TagFrame) (_code : Byte) (s : State) : Out :=
  .next (tagCommand f (fun g => tagDirect g f.mode) (tagError f 0x01) s)

/-! Lock and ports (R288, R289, R295) -/

/-- MBOX_LOCK_TIMEOUT (R288, R293): 50 ms after the end of the last valid frame. -/
def execMboxLockTimeout (t : Nat) (s : State) : Out :=
  let s := hostRun { s with dev := tick t s.dev }
  match s.tagm.lock with
  | none => .next s
  | some e => .next (if e + us 50000 ≤ t then lockRelease s else s)

/-- TAGM_MB_DATA_READ (R289): a read of the mailbox port. -/
def execTagmMbDataRead (t : Nat) (r : Reader) (s : State) : Out := .next (regAccess t r false Reg.TAGM_MB_DATA none s)

/-- TAGM_CONFIG_WRITE (R295): a write of a register held in the TAGM FRAM. -/
def execTagmConfigWrite (t : Nat) (r : Reader) (which : TagmReg) (v : Word) (s : State) : Out :=
  .next (regAccess t r false
    (match which with | .cfg => Reg.TAGM_CFG | .uidCfg => Reg.TAGM_UID_CFG | .fprot => Reg.TAGM_FPROT) (some v) s)

end Sys2Proof.Machine
end

