-- ==== Sys2Proof/Machine/Timebase.lean ====
section
/-! DEFINITION. The commands of the mains timebase: edges, crossings, cycle and slot starts, flywheel, re-lock, slews,
steps, the noise map and the plan memory (R16-R57). -/
namespace Sys2Proof.Machine

/-- Period of the phase unit before the loop has one: a pu there is 1/98,304 of 20 ms (log entry 85). -/
def workPeriod (s : Dev) : Nat := if s.tb.period = 0 then 819200000 else s.tb.period

/-- Interval bounds of R20, 15.15 ms and 22.22 ms, in 1/256 tick. -/
def rateOk (q : Int) : Bool := decide (2424000 * 256 ≤ q ∧ q ≤ 3555200 * 256)

/-- `TIME_ZC_A_DLY` or `TIME_ZC_B_DLY` in pu (R51). -/
def zcDelay (s : Dev) (inp : Bool) : Int := toSigned 12 (fld (reg s (if inp then Reg.TIME_ZC_B_DLY else Reg.TIME_ZC_A_DLY)) 11 0)

/-- The crossing of an edge: its time stamp with its input's delay compensation (R16). -/
def crossingOf (s : Dev) (e : ZcEdge) : Crossing := ⟨e.stamp * 256, zcDelay s e.input⟩

/-- Instant of a crossing in 1/256 tick at a period: the stamp less the compensation (R16). -/
def crossingQ (period : Nat) (c : Crossing) : Nat := ((c.stampQ : Int) - c.dly * period / puCycle).toNat

/-- Instant of a crossing at the period in force. -/
def instantQ (s : Dev) (c : Crossing) : Nat := crossingQ (workPeriod s) c

/-- Mean interval over `n` cycles between the instants of two crossings, whose phase unit is 1/98,304 of that mean (R16, R22). -/
def meanInterval (n : Nat) (c p : Crossing) : Int :=
  ((c.stampQ : Int) - p.stampQ) * puCycle / (n * puCycle + (c.dly - p.dly))

/-- Enters a timebase state with its TIME record (R50, R352). -/
def tbEnter (st : TbState) (cause : Nat) (e : Int) (s : Dev) : Dev :=
  timeRecord cause s.tb.st e { s with tb.st := st }

/-- The flywheel bound starts at 0 at a crossing taken in LOCKED or SLEW, or that locks (R41). -/
def uncRestart (q : Nat) (s : Dev) : Dev :=
  { s with tb.uncAcc := 0, tb.uncSince := q / 256, tb.uncSw := 0 }

/-- The phase error in pu, wrapped into -49,152 to +49,151, of a crossing against the timebase's phase: positive
when the mains is ahead (R43). -/
def relockError (s : Dev) (q : Nat) : Int :=
  let p := rawPhase s q % puCycle
  let e := - p
  if e < -49152 then e + puCycle else e

/-- What every re-lock begins with: the acquisition count is spent and `TIME_FLY_CYC` holds its value (R43, R48). -/
def relockStart (s : Dev) : Dev :=
  { s with tb.relockQ := none, tb.acq := [], tb.missed := 0, tb.flyFresh := false, tb.flyStop := true }

/-- Removes the re-lock error of a crossing: SLEW up to 512 pu, else a pending STEP (R45, R46). The bound of the flywheel goes
on growing while a STEP is pending (R41). -/
def removeError (e : Int) (q : Nat) (s : Dev) : Dev :=
  let s := relockStart (setReg Reg.TIME_STEP_LAST (ofInt e) (foldSlew q s))
  if e.natAbs ≤ 512 then
    let s := uncRestart q { s with tb.slewing := some ⟨e, 0, q⟩, tb.selfStarted := false }
    resumeTimeSuspended (pmuWakeMains (tbEnter .slew 0x01 e s))
  else { s with tb.stepPend := some e }

/-- Wakes of R421 and resumes of R42 at a re-lock that steps; they come with the completion of the step. -/
def relocked (s : Dev) : Dev := resumeTimeSuspended (pmuWakeMains s)

/-- Intervals between the crossings of a list, newest first. -/
def intervals (l : List Crossing) : List Int := (l.zip l.tail).map fun p => meanInterval 1 p.1 p.2

/-- Intervals that differ from one another by no more than 0.5 % (R22). -/
def alike (l : List Int) : Bool :=
  l.all fun a => l.all fun b => decide (a * 1000 ≤ b * 1005)

/-- A crossing joins the acquisition count: an interval outside R20 starts the count again with RATE_ERR (R20, R22, R44). -/
def countCrossing (c : Crossing) (s : Dev) : Dev :=
  let bad := match s.tb.acq.head? with
    | none => false
    | some p => !rateOk (meanInterval 1 c p)
  if bad then event Reg.TIME_EVENT 6 { s with tb.acq := [c], tb.rateErr := true }
  else { s with tb.acq := (c :: s.tb.acq).take (acqCount s), tb.rateErr := false }

/-- Mean interval of a full acquisition count whose intervals are alike (R22). -/
def acquired (s : Dev) : Option Nat :=
  let l := s.tb.acq
  if l.length = acqCount s ∧ alike (intervals l) then
    match l.head?, l.getLast? with
    | some c, some p => some (meanInterval (l.length - 1) c p).toNat
    | _, _ => none
  else none

/-- ACQUIRE takes a crossing: `ACQ` alike intervals lock it, with the phase set to the last crossing (R20, R22). -/
def acquireStep (c : Crossing) (s : Dev) : Dev :=
  let s := countCrossing c s
  let s := { s with tb.lastTakenQ := some (instantQ s c) }
  match acquired s with
  | none => s
  | some period =>
    let q := crossingQ period c
    let s := { s with tb.period := period, tb.originQ := q, tb.lastTakenQ := some q, tb.acq := [], tb.missed := 0
                      tb.flyFresh := true, tb.slot := none, tb.cyc := s.tb.cyc + 1 }
    reservesFollow (syncStart (event Reg.TIME_EVENT 0 (tbEnter .locked 0x01 0 (uncRestart q s))))

/-- FLY and FREE take a crossing: the pair of R43 at a rate of R20, else the acquisition count of R44. A crossing that comes
while a STEP is pending measures nothing (R46). -/
def flywheelStep (c : Crossing) (s : Dev) : Dev :=
  let q := instantQ s c
  if s.tb.stepPend.isSome then { s with tb.lastTakenQ := some q } else
  let pair := match s.tb.relockQ with
    | none => false
    | some p => decide (99 * s.tb.period ≤ 100 * (q - p) ∧ 100 * (q - p) ≤ 101 * s.tb.period) && rateOk ((q : Int) - p)
  let s := countCrossing c s
  let s := { s with tb.relockQ := some q, tb.lastTakenQ := some q }
  if pair then removeError (relockError s q) q s
  else match acquired s with
  | none => s
  | some period =>
    if 100 * ((period : Int) - s.tb.period).natAbs ≤ s.tb.period then s
    else
      let err := relockError s q
      -- the phase at the crossing is kept while the period changes
      let s := { s with tb.period := period, tb.originQ := ((q : Int) - rawPhase s q * period / puCycle).toNat }
      reservesFollow (event Reg.TIME_EVENT 8 (removeError err q s))

/-- LOCKED and SLEW take a crossing: the loop tracks it (its filter is not given: `Config.loopPeriod`,
`Config.loopOrigin`), and the second after an oscillator switch gives the error of R49. While a slew runs or a STEP is
pending the loop steers nothing, so that the error removed is the one measured (R45, R46; log entry 13). -/
def lockedStep (c : Crossing) (s : Dev) : Dev :=
  let q := instantQ s c
  let bw := fld (reg s Reg.TIME_LOOP) 1 0
  let measured := match s.tb.lastTakenQ with
    | none => s.tb.period
    | some p => q - p
  let s := uncRestart q { s with tb.lastTakenQ := some q, tb.missed := 0, tb.flyFresh := true }
  if s.tb.stepPend.isSome then { s with tb.oscRelock := 0 }
  else if s.tb.oscRelock = 2 then { s with tb.oscRelock := 1 }
  else if s.tb.oscRelock = 1 then removeError (relockError s q) q { s with tb.oscRelock := 0 }
  else if s.tb.slewing.isSome then s
  else reservesFollow { s with tb.period := Config.loopPeriod bw s.tb.period measured
                               tb.originQ := Config.loopOrigin bw s.tb.originQ q }

/-- The loop takes a crossing of an input (R18). -/
def takeCrossing (inp : Bool) (c : Crossing) (s : Dev) : Dev :=
  let s := { s with tb.zcSrc := if inp then 2 else 1, tb.wait := none }
  match s.tb.st with
  | .none => acquireStep c s
  | .acquire => acquireStep c s
  | .locked => lockedStep c s
  | .slew => lockedStep c s
  | .fly => flywheelStep c s
  | .free => flywheelStep c s

/-- The edge of an expired wait is taken from the other input, corrected by the last skew, and ZC_SWITCH is set (R18). -/
def takeOther (e : ZcEdge) (s : Dev) : Dev :=
  let c := crossingOf s e
  let corr := if e.input then - s.tb.skewQ else s.tb.skewQ
  let s := event Reg.TIME_EVENT 5 (takeCrossing e.input { c with stampQ := (c.stampQ + corr).toNat } s)
  timeRecord 0x04 s.tb.st 0 s

/-- A wait that has run out by tick `t` is served (R18). -/
def serveWait (t : Nat) (s : Dev) : Dev :=
  match s.tb.wait with
  | none => s
  | some (e, until_) => if until_ ≤ t then takeOther e { s with tb.wait := none } else s

/-- Two instants in 1/256 tick belong to one crossing: within the window's half-width of each other, in LOCKED and SLEW in
one window of R17 (R18). -/
def sameCrossing (s : Dev) (q p : Nat) : Bool :=
  let gap := ((q : Int) - p).natAbs
  let near := decide (gap ≤ puToQ (workPeriod s) (zcWin s))
  match s.tb.st with
  | .locked => decide (2 * gap < s.tb.period)
  | .slew => decide (2 * gap < s.tb.period)
  | _ => near

/-- The two inputs yield qualified edges in one cycle (R19): the skew is measured, and a large one is counted, once in a cycle
and only while the cycles follow one another. -/
def measureSkew (qa qb : Nat) (s : Dev) : Dev :=
  let p := workPeriod s
  let kQ : Int := (qb : Int) - qa
  let k := kQ * puCycle / (p : Nat)
  let q := min qa qb
  let again := s.tb.skewAtQ.any fun o => decide (2 * (q - o) < p)
  let next := s.tb.skewAtQ.any fun o => decide (2 * (q - o) < 3 * p)
  let run := if k.natAbs ≤ 64 then 0 else if again then max 1 s.tb.skewRun else if next then s.tb.skewRun + 1 else 1
  { s with tb.skew := k, tb.skewQ := kQ, tb.skewAtQ := some q, tb.skewRun := run, tb.disagreed := s.tb.disagreed && decide (1 < run) }

/-- End of the wait for the primary input that an edge of the other opens: the close of the window in LOCKED and SLEW, else
WIN × 64 pu later (R18). -/
def waitEnd (s : Dev) (t : Nat) : Nat :=
  let close := (s.tb.originQ + puToQ s.tb.period (if 2 * phaseAt s t < puCycle then zcWin s else puCycle + zcWin s)) / 256
  match s.tb.st with
  | .locked => close
  | .slew => close
  | _ => t + puToQ (workPeriod s) (zcWin s) / 256

/-- A qualified edge of one input at stamp `t` (R18, R21): the first takes NONE to ACQUIRE; one that belongs to a crossing
already taken starts no other; one of the primary input is taken at once; one of the other input waits for the primary. -/
def qualifiedEdge (inp : Bool) (t : Nat) (s : Dev) : Dev :=
  let s := if inp then { s with tb.lastB := some t } else { s with tb.lastA := some t }
  let s := match s.tb.st with
    | .none => tbEnter .acquire 0x01 0 s
    | _ => s
  let q := instantQ s (crossingOf s ⟨inp, t⟩)
  let other := (if inp then s.tb.lastA else s.tb.lastB).map fun o => instantQ s (crossingOf s ⟨!inp, o⟩)
  let s := match other with
    | none => s
    | some o => if sameCrossing s q o then (if inp then measureSkew o q s else measureSkew q o s) else s
  if s.tb.lastTakenQ.any (sameCrossing s q) then s
  else if inp = bit (reg s Reg.TIME_ZC_CFG) 4 then takeCrossing inp (crossingOf s ⟨inp, t⟩) s
  else if s.tb.wait.isSome then s
  else { s with tb.wait := some (⟨inp, t⟩, waitEnd s t) }

/-- An edge is qualified: its input is enabled and its rail stands, it has the polarity of the configuration, held its level
long enough, and in LOCKED and SLEW falls in the window (R16, R17, R410). -/
def edgeQualified (s : Dev) (t : Nat) (inp falling : Bool) (held : Nat) : Bool :=
  let c := reg s Reg.TIME_ZC_CFG
  let q := instantQ s (crossingOf s ⟨inp, t⟩)
  let inWindow := decide ((relockError s q).natAbs ≤ zcWin s)
  bit c (if inp then 1 else 0) && (if inp then s.pmu.vioB else s.pmu.vioA) && falling == bit c (if inp then 3 else 2)
    && decide (fld c 23 16 ≤ held)
    && (match s.tb.st with
      | .locked => inWindow
      | .slew => inWindow
      | _ => true)

/-- ZC_EDGE (R16-R22, R43, R44): an edge at tick `t` that held its level for `held` RC periods. -/
def execZcEdge (t : Nat) (inp falling : Bool) (held : Nat) (s : State) : Out := s.run fun s =>
  let s := serveWait t (tick t s)
  if edgeQualified s t inp falling held then qualifiedEdge inp t s else s

/-- ZC_PRIMARY_WAIT_EXPIRY (R18): the wait for the primary input ends. -/
def execZcPrimaryWaitExpiry (t : Nat) (s : State) : Out := s.run fun s => (serveWait t (tick t s))

/-- ZC_DISAGREE (R19): sixteen large skews in a row are recorded as a fault, once for each run. -/
def execZcDisagree (t : Nat) (s : State) : Out := s.run fun s =>
  let s := tick t s
  if 16 ≤ s.tb.skewRun ∧ s.tb.disagreed = false then (raiseFault 0x01 blkTime 0 { s with tb.disagreed := true })
  else s

/-- MISSED_CROSSING (R23): the window of an expected crossing closes empty; the second in a row enters FLY. -/
def execMissedCrossing (t : Nat) (s : State) : Out := s.run fun s =>
  let s := serveWait t (tick t s)
  let active := s.tb.st = .locked ∨ s.tb.st = .slew
  let wQ := puToQ s.tb.period (zcWin s)
  let taken := match s.tb.lastTakenQ with
    | none => false
    | some q => s.tb.originQ ≤ q + wQ
  if active ∧ s.tb.originQ + wQ ≤ t * 256 ∧ taken = false ∧ s.tb.missedForQ ≠ some s.tb.originQ then
    let s := { s with tb.missed := s.tb.missed + 1, tb.missedForQ := some s.tb.originQ }
    if 2 ≤ s.tb.missed then
      let s := { foldSlew (t * 256) s with tb.relockQ := none, tb.acq := [], tb.oscRelock := 0 }
      (pmuWakeMains (event Reg.TIME_EVENT 1 (tbEnter .fly 0x01 0 s)))
    else s
  else s

/-- SELF_START (R24): `TIME_CTRL.SELF` written 1 with SELF_60; only NONE starts. -/
def execSelfStart (t : Nat) (sixty : Bool) (s : State) : Out := s.run fun s =>
  (writeTimeCtrl (putB 3 true ||| putB 4 sixty ||| (reg s Reg.TIME_CTRL &&& 4)) (tick t s))

/-- The newest periods of a list whose sum fits a length of time. -/
def histFit : Nat → List Nat → List Nat
  | _, [] => []
  | room, p :: ps => if p ≤ room then p :: histFit (room - p) ps else []

/-- A cycle of LOCKED operation joins those of the last 24 h (R444). -/
def lockedCycle (d : Dev) : Dev :=
  if d.tb.st = .locked then
    { d with cal := { d.cal with lockHist := histFit (86400 * 160000000 * 256) (d.tb.period :: d.cal.lockHist) } }
  else d

/-- CYCLE_START (R26, R31, R48): the phase wraps, `MAINS_CYC` increments and the flywheel's starts are counted. -/
def execCycleStart (t : Nat) (src : CycleSrc) (s : State) : Out := s.run fun s =>
  let s := tick t s
  if tbValid s ∧ s.tb.holdUntil = none ∧ (puCycle : Int) ≤ rawPhase s (t * 256) then
    let s := lockedCycle (wrapCycle s)
    (match src with
      | .flywheel => countFlywheel s
      | .crossing => s
      | .step => s)
  else s

/-- A slot start arms what waits for it: T0 of a turn at this slot (R163), and a Query head held in a noisy slot (R194). -/
def slotArms (b : Nat) (d : Dev) : Dev :=
  let d := match d.seq.turn with
    | none => d
    | some a => if a.armed ∧ a.t0 = none ∧ a.slot = some b then
        { d with seq := { d.seq with turn := some { a with t0 := some d.now } } } else d
  if d.gen2.arm then armQuery d else d

/-- Building slot `b` begins at tick `t`: its start lies between the tick before and this one, no hold freezes the phase, and it
has not begun in this cycle already (R25, R47). -/
def slotBegins (d : Dev) (t b : Nat) : Bool :=
  let l := rawPhase d (t * 256) / 1024
  tbValid d && d.tb.holdUntil.isNone && decide (b < 96) && decide (buildingSlot d (l % 96).toNat = b)
    && decide (rawPhase d (t * 256 - 256) / 1024 < l)
    && (d.tb.slot != some b || decide (d.tb.period < 512 * (t - d.tb.slotTick)))

/-- SLOT_BOUNDARY (R25, R39, R40, R163, R194): slot `b` begins; the measurement of the slot that ends, taken over at most
its unblanked middle, updates its bin, and a listen slot begins one. -/
def execSlotBoundary (t b : Nat) (meas : Option Nat) (s : State) : Out := s.run fun d =>
  let d := tick t d
  if slotBegins d t b then
    let d := match d.tb.noiseRun, meas with
      | some r, some m => noiseUpdate r.slot m d
      | _, _ => d
    let d := noiseEnd d
    slotArms b (noiseBegin b { d with tb := { d.tb with slot := some b, slotTick := t } })
  else d

/-- PLAN_SYNC_REQUEST (R31): `TIME_CTRL.PLAN_SYNC` written 1. -/
def execPlanSyncRequest (t : Nat) (_r : Reader) (s : State) : Out := s.run fun s =>
  (writeTimeCtrl (reg s Reg.TIME_CTRL &&& 0x14 ||| 1) (tick t s))

/-- NOISE_CLR (R40): `TIME_CTRL.NOISE_CLR` written 1 clears every bin. -/
def execNoiseClr (t : Nat) (_r : Reader) (s : State) : Out := s.run fun s =>
  (writeTimeCtrl (reg s Reg.TIME_CTRL &&& 0x14 ||| 2) (tick t s))

/-- PLAN_DATA_ACCESS (R29, R30): one access of a reader to the plan memory port. -/
def execPlanDataAccess (t : Nat) (r : Reader) (shadow : Bool) (wr : Option Word) (s : State) : Out :=
  .next (regAccess t r shadow Reg.TIME_PLAN_DATA wr s)

/-- ENTER_FREE (R42): the bound passes its limit; running campaigns with a slot mask are to be suspended. -/
def execEnterFree (t : Nat) (s : State) : Out := s.run fun s =>
  let s := tick t s
  if s.tb.st = .fly ∧ fld (reg s Reg.TIME_UNC_MAX) 15 0 < flyBound s t then
    let s := event Reg.TIME_EVENT 2 (tbEnter .free 0x01 0 s)
    (if bit (reg s Reg.TIME_CTRL) 2 then s else suspendForTime s)
  else s

/-- SLEW_DONE (R45): the error is removed. -/
def execSlewDone (t : Nat) (s : State) : Out := s.run fun s =>
  let s := tick t s
  match s.tb.slewing with
  | none => s
  | some w =>
    if s.tb.st = .slew ∧ slewSub s w (t * 256) = w.e.natAbs * 65536 then
      (event Reg.TIME_EVENT 4 (tbEnter .locked 0x03 0 (foldSlew (t * 256) s)))
    else s

/-- Completion of a step (R46): LOCKED, with the bound of the flywheel counted from the last crossing (R41). -/
def stepComplete (e : Int) (s : Dev) : Dev :=
  let s := { s with tb.stepPend := none, tb.holdUntil := none, tb.slewing := none, tb.missed := 0, tb.selfStarted := false }
  let s := match s.tb.lastTakenQ with
    | none => s
    | some q => uncRestart q s
  let s := event Reg.TIME_EVENT 0 (event Reg.TIME_EVENT 3 s)
  let was := s.tb.st
  let s := tbEnter .locked 0x02 e s
  if was = .fly ∨ was = .free then relocked s else s

/-- A turn armed for a boundary that a forward step from local slot `l` by `k` slots passes over takes effect at the first
boundary after it (R47). -/
def turnPassed (l k : Nat) (d : Dev) : Dev :=
  match d.seq.turn with
  | none => d
  | some a =>
    let passed := (List.range k).any fun i => a.slot = some (buildingSlot d ((l + 1 + i) % 96))
    if a.armed && a.t0.isNone && passed then
      { d with seq := { d.seq with turn := some { a with slot := some (buildingSlot d ((l + k + 1) % 96)) } } }
    else d

/-- STEP_APPLY (R46, R47): a pending step is applied when no window is open and the threads allow it. -/
def execStepApply (t : Nat) (s : State) : Out := s.run fun s =>
  let s := tick t s
  match s.tb.stepPend with
  | none => s
  | some e =>
    if s.tb.holdUntil = none ∧ stepAllowed s = true then
      if 0 ≤ e then
        let l := phaseAt s t / 1024
        let s := turnPassed l ((phaseAt s t + e.toNat) / 1024 - l) s
        let s := { s with tb.originQ := ((s.tb.originQ : Int) - e * s.tb.period / puCycle).toNat }
        let s := if (puCycle : Int) ≤ rawPhase s (t * 256) then wrapCycle s else s
        (stepComplete e s)
      else
        let hold := puToQ s.tb.period e.natAbs
        { s with tb.originQ := s.tb.originQ + hold, tb.holdUntil := some (t + (hold + 255) / 256) }
    else s

/-- STEP_HOLD_END (R46): a backward hold ends and its step completes. -/
def execStepHoldEnd (t : Nat) (s : State) : Out := s.run fun s =>
  let s := tick t s
  match s.tb.holdUntil, s.tb.stepPend with
  | some h, some e => if h ≤ t then (stepComplete e s) else s
  | _, _ => s

/-- OSC_SWITCH (R49): the timebase changes oscillator, at deep-state entry or at wake. -/
def execOscSwitch (t : Nat) (toRc : Bool) (s : State) : Out := s.run fun s => (switchOsc toRc (tick t s))

end Sys2Proof.Machine
end

