-- ==== Sys2Proof/Machine/Dispatch.lean ====
section
/-! DEFINITION. The meaning of every command: one arm for each constructor of `Instr`. -/
namespace Sys2Proof.Machine

def exec (i : Instr) (s : State) : Host.Outcome State Fault Refusal :=
  match i with
  | .zcEdge t inp falling held => Sys2Proof.Machine.execZcEdge t inp falling held s
  | .zcPrimaryWaitExpiry t => Sys2Proof.Machine.execZcPrimaryWaitExpiry t s
  | .zcDisagree t => Sys2Proof.Machine.execZcDisagree t s
  | .missedCrossing t => Sys2Proof.Machine.execMissedCrossing t s
  | .selfStart t sixty => Sys2Proof.Machine.execSelfStart t sixty s
  | .cycleStart t src => Sys2Proof.Machine.execCycleStart t src s
  | .slotBoundary t b meas => Sys2Proof.Machine.execSlotBoundary t b meas s
  | .planSyncRequest t r => Sys2Proof.Machine.execPlanSyncRequest t r s
  | .noiseClr t r => Sys2Proof.Machine.execNoiseClr t r s
  | .planDataAccess t r shadow wr => Sys2Proof.Machine.execPlanDataAccess t r shadow wr s
  | .enterFree t => Sys2Proof.Machine.execEnterFree t s
  | .slewDone t => Sys2Proof.Machine.execSlewDone t s
  | .stepApply t => Sys2Proof.Machine.execStepApply t s
  | .stepHoldEnd t => Sys2Proof.Machine.execStepHoldEnd t s
  | .oscSwitch t toRc => Sys2Proof.Machine.execOscSwitch t toRc s
  | .chanDataWrite t r shadow v => Sys2Proof.Machine.execChanDataWrite t r shadow v s
  | .dwellExpiry t => Sys2Proof.Machine.execDwellExpiry t s
  | .paLim t lim => Sys2Proof.Machine.execPaLim t lim s
  | .reflDetect t port fwd ref cw => Sys2Proof.Machine.execReflDetect t port fwd ref cw s
  | .radioTransitionDone t biasOk readbackOk => Sys2Proof.Machine.execRadioTransitionDone t biasOk readbackOk s
  | .windowEndRampdown t => Sys2Proof.Machine.execWindowEndRampdown t s
  | .lockLost t => Sys2Proof.Machine.execLockLost t s
  | .lockAcquired t => Sys2Proof.Machine.execLockAcquired t s
  | .lockHoldExpiry t => Sys2Proof.Machine.execLockHoldExpiry t s
  | .calResume t => Sys2Proof.Machine.execCalResume t s
  | .cancConverged t chain wi wq residual => Sys2Proof.Machine.execCancConverged t chain wi wq residual s
  | .cancTimeout t chain => Sys2Proof.Machine.execCancTimeout t chain s
  | .cancDataAccess t r wr => Sys2Proof.Machine.execCancDataAccess t r wr s
  | .seedClear t r => Sys2Proof.Machine.execSeedClear t r s
  | .coexReqLead t => Sys2Proof.Machine.execCoexReqLead t s
  | .coexGrant t => Sys2Proof.Machine.execCoexGrant t s
  | .coexHoldExpiry t => Sys2Proof.Machine.execCoexHoldExpiry t s
  | .coexWithdraw t => Sys2Proof.Machine.execCoexWithdraw t s
  | .blankInput t which level => Sys2Proof.Machine.execBlankInput t which level s
  | .blankExtExpiry t which => Sys2Proof.Machine.execBlankExtExpiry t which s
  | .coefDataAccess t r chain wr => Sys2Proof.Machine.execCoefDataAccess t r chain wr s
  | .chainRun t r chain => Sys2Proof.Machine.execChainRun t r chain s
  | .chainStop t r chain => Sys2Proof.Machine.execChainStop t r chain s
  | .drcLearnEnd t chain samples => Sys2Proof.Machine.execDrcLearnEnd t chain samples s
  | .detectorBlock t chain blk => Sys2Proof.Machine.execDetectorBlock t chain blk s
  | .frameSync t chain snr blf => Sys2Proof.Machine.execFrameSync t chain snr blf s
  | .diversityDecide t => Sys2Proof.Machine.execDiversityDecide t s
  | .frameDecoded t chain bits stages => Sys2Proof.Machine.execFrameDecoded t chain bits stages s
  | .sepDone t res => Sys2Proof.Machine.execSepDone t res s
  | .tstart rd ra rb => Sys2Proof.Machine.execTstart rd ra rb s
  | .thalt rd ra rb => Sys2Proof.Machine.execThalt rd ra rb s
  | .tpatch rd ra rb => Sys2Proof.Machine.execTpatch rd ra rb s
  | .swflag rd ra rb => Sys2Proof.Machine.execSwflag rd ra rb s
  | .abreq rd ra rb => Sys2Proof.Machine.execAbreq rd ra rb s
  | .tresume rd ra rb => Sys2Proof.Machine.execTresume rd ra rb s
  | .condrd rd ra rb => Sys2Proof.Machine.execCondrd rd ra rb s
  | .logpop rd ra rb => Sys2Proof.Machine.execLogpop rd ra rb s
  | .doorbell rd ra rb => Sys2Proof.Machine.execDoorbell rd ra rb s
  | .stepFetch t th ecc => Sys2Proof.Machine.execStepFetch t th ecc s
  | .waitTimeExpiry t th => Sys2Proof.Machine.execWaitTimeExpiry t th s
  | .waitFlagTrue t th => Sys2Proof.Machine.execWaitFlagTrue t th s
  | .waitFlagTimeout t th => Sys2Proof.Machine.execWaitFlagTimeout t th s
  | .waitSlot t th => Sys2Proof.Machine.execWaitSlot t th s
  | .seqNop t th => Sys2Proof.Machine.execSeqNop t th s
  | .seqHalt t th => Sys2Proof.Machine.execSeqHalt t th s
  | .seqCall t th => Sys2Proof.Machine.execSeqCall t th s
  | .seqRet t th => Sys2Proof.Machine.execSeqRet t th s
  | .loop t th => Sys2Proof.Machine.execLoop t th s
  | .setcnt t th => Sys2Proof.Machine.execSetcnt t th s
  | .anchor t th => Sys2Proof.Machine.execAnchor t th s
  | .signal t th => Sys2Proof.Machine.execSignal t th s
  | .seqPost t th => Sys2Proof.Machine.execSeqPost t th s
  | .radio t th => Sys2Proof.Machine.execRadio t th s
  | .hop t th => Sys2Proof.Machine.execHop t th s
  | .aerial t th => Sys2Proof.Machine.execAerial t th s
  | .txf t th => Sys2Proof.Machine.execTxf t th s
  | .pwradj t th => Sys2Proof.Machine.execPwradj t th s
  | .rxopen t th => Sys2Proof.Machine.execRxopen t th s
  | .seqRxclose t th => Sys2Proof.Machine.execSeqRxclose t th s
  | .hffield t th extLevel => Sys2Proof.Machine.execHffield t th extLevel s
  | .hftx t th => Sys2Proof.Machine.execHftx t th s
  | .hfrx t th => Sys2Proof.Machine.execHfrx t th s
  | .hfclose t th => Sys2Proof.Machine.execHfclose t th s
  | .hfping t th ping => Sys2Proof.Machine.execHfping t th ping s
  | .gatePass t th => Sys2Proof.Machine.execGatePass t th s
  | .txFrameEnd t => Sys2Proof.Machine.execTxFrameEnd t s
  | .abortTakeHold t th => Sys2Proof.Machine.execAbortTakeHold t th s
  | .turnCommit t => Sys2Proof.Machine.execTurnCommit t s
  | .turnAbandon t => Sys2Proof.Machine.execTurnAbandon t s
  | .tabDataHAccess t r shadow wr => Sys2Proof.Machine.execTabDataHAccess t r shadow wr s
  | .slotLogEntry t read => Sys2Proof.Machine.execSlotLogEntry t read s
  | .fbDataAccess t r shadow wr => Sys2Proof.Machine.execFbDataAccess t r shadow wr s
  | .coverCodePrepare t => Sys2Proof.Machine.execCoverCodePrepare t s
  | .accessUnitJudge t => Sys2Proof.Machine.execAccessUnitJudge t s
  | .cp1Place rd ra rb => Sys2Proof.Machine.execCp1Place rd ra rb s
  | .cp1Lookup rd ra rb => Sys2Proof.Machine.execCp1Lookup rd ra rb s
  | .cp1Cellrd rd ra rb => Sys2Proof.Machine.execCp1Cellrd rd ra rb s
  | .cp1Sweep rd ra rb => Sys2Proof.Machine.execCp1Sweep rd ra rb s
  | .cp1Free rd ra rb => Sys2Proof.Machine.execCp1Free rd ra rb s
  | .sweepVisit t => Sys2Proof.Machine.execSweepVisit t s
  | .rowSpare t bucket uncor => Sys2Proof.Machine.execRowSpare t bucket uncor s
  | .combDumpRead t r => Sys2Proof.Machine.execCombDumpRead t r s
  | .epochAdvance t => Sys2Proof.Machine.execEpochAdvance t s
  | .dmkCfgWrite t r v => Sys2Proof.Machine.execDmkCfgWrite t r v s
  | .sweepRoomWaitEnd t => Sys2Proof.Machine.execSweepRoomWaitEnd t s
  | .lpcdPing t ping => Sys2Proof.Machine.execLpcdPing t ping s
  | .lpcdConfirmPing t ping => Sys2Proof.Machine.execLpcdConfirmPing t ping s
  | .rebase t r => Sys2Proof.Machine.execRebase t r s
  | .hfFbDataAccess t r shadow wr => Sys2Proof.Machine.execHfFbDataAccess t r shadow wr s
  | .hfRxDataRead t r => Sys2Proof.Machine.execHfRxDataRead t r s
  | .hfTxEnd t => Sys2Proof.Machine.execHfTxEnd t s
  | .hfFrameDecoded t raw erased => Sys2Proof.Machine.execHfFrameDecoded t raw erased s
  | .hfColl t pos => Sys2Proof.Machine.execHfColl t pos s
  | .hfWindowTmo t => Sys2Proof.Machine.execHfWindowTmo t s
  | .hfWindowEnd t => Sys2Proof.Machine.execHfWindowEnd t s
  | .hfOverrunExpiry t => Sys2Proof.Machine.execHfOverrunExpiry t s
  | .hfAcChoice t => Sys2Proof.Machine.execHfAcChoice t s
  | .tagmSessionStart t vh => Sys2Proof.Machine.execTagmSessionStart t vh s
  | .tagmSessionEnd t vh => Sys2Proof.Machine.execTagmSessionEnd t vh s
  | .inventory15693 f slots16 afi mask => Sys2Proof.Machine.execInventory15693 f slots16 afi mask s
  | .stayQuiet f => Sys2Proof.Machine.execStayQuiet f s
  | .readSingleBlock f blk => Sys2Proof.Machine.execReadSingleBlock f blk s
  | .writeSingleBlock f blk data => Sys2Proof.Machine.execWriteSingleBlock f blk data s
  | .readMultipleBlocks f first count => Sys2Proof.Machine.execReadMultipleBlocks f first count s
  | .select15693 f => Sys2Proof.Machine.execSelect15693 f s
  | .resetToReady f => Sys2Proof.Machine.execResetToReady f s
  | .getSystemInformation f => Sys2Proof.Machine.execGetSystemInformation f s
  | .getMultipleBlockSecurity f first count => Sys2Proof.Machine.execGetMultipleBlockSecurity f first count s
  | .unsupportedTagCommand f code => Sys2Proof.Machine.execUnsupportedTagCommand f code s
  | .mboxLockTimeout t => Sys2Proof.Machine.execMboxLockTimeout t s
  | .tagmMbDataRead t r => Sys2Proof.Machine.execTagmMbDataRead t r s
  | .tagmConfigWrite t r which v => Sys2Proof.Machine.execTagmConfigWrite t r which v s
  | .registerWrite f shadow addr data => Sys2Proof.Machine.execRegisterWrite f shadow addr data s
  | .registerRead f shadow addr n => Sys2Proof.Machine.execRegisterRead f shadow addr n s
  | .commandPush f ring packet => Sys2Proof.Machine.execCommandPush f ring packet s
  | .ringPull f ring max ack ecc => Sys2Proof.Machine.execRingPull f ring max ack ecc s
  | .bulkWrite f shadow addr data => Sys2Proof.Machine.execBulkWrite f shadow addr data s
  | .bulkRead f shadow addr => Sys2Proof.Machine.execBulkRead f shadow addr s
  | .bulkApplyDone t port => Sys2Proof.Machine.execBulkApplyDone t port s
  | .frameAbort fall t port => Sys2Proof.Machine.execFrameAbort fall t port s
  | .selectWake t port => Sys2Proof.Machine.execSelectWake t port s
  | .waggle fall t port => Sys2Proof.Machine.execWaggle fall t port s
  | .reepoch t r port => Sys2Proof.Machine.execReepoch t r port s
  | .portOff t r port off => Sys2Proof.Machine.execPortOff t r port off s
  | .masterMode t r on => Sys2Proof.Machine.execMasterMode t r on s
  | .masterTransfer t r => Sys2Proof.Machine.execMasterTransfer t r s
  | .masterTransferDone t rx => Sys2Proof.Machine.execMasterTransferDone t rx s
  | .packetTake t => Sys2Proof.Machine.execPacketTake t s
  | .cmdNop t p => Sys2Proof.Machine.execCmdNop t p s
  | .getInfo t p => Sys2Proof.Machine.execGetInfo t p s
  | .setTurn t p => Sys2Proof.Machine.execSetTurn t p s
  | .suspend t p => Sys2Proof.Machine.execSuspend t p s
  | .resume t p => Sys2Proof.Machine.execResume t p s
  | .cancel t p => Sys2Proof.Machine.execCancel t p s
  | .queryOp t p => Sys2Proof.Machine.execQueryOp t p s
  | .data t p => Sys2Proof.Machine.execData t p s
  | .timeRead t p => Sys2Proof.Machine.execTimeRead t p s
  | .listen t p => Sys2Proof.Machine.execListen t p s
  | .inventory t p => Sys2Proof.Machine.execInventory t p s
  | .selectSet t p => Sys2Proof.Machine.execSelectSet t p s
  | .tagRead t p => Sys2Proof.Machine.execTagRead t p s
  | .tagWrite t p => Sys2Proof.Machine.execTagWrite t p s
  | .tagBlockwrite t p => Sys2Proof.Machine.execTagBlockwrite t p s
  | .tagBlockerase t p => Sys2Proof.Machine.execTagBlockerase t p s
  | .tagLock t p => Sys2Proof.Machine.execTagLock t p s
  | .tagKill t p => Sys2Proof.Machine.execTagKill t p s
  | .tagPermalock t p => Sys2Proof.Machine.execTagPermalock t p s
  | .tagUntraceable t p => Sys2Proof.Machine.execTagUntraceable t p s
  | .tagAuth t p => Sys2Proof.Machine.execTagAuth t p s
  | .hfCampaign t p => Sys2Proof.Machine.execHfCampaign t p s
  | .hfApdu t p => Sys2Proof.Machine.execHfApdu t p s
  | .hfRelease t p => Sys2Proof.Machine.execHfRelease t p s
  | .mboxRead t p => Sys2Proof.Machine.execMboxRead t p s
  | .mboxWrite t p => Sys2Proof.Machine.execMboxWrite t p s
  | .combSweepReport t p => Sys2Proof.Machine.execCombSweepReport t p s
  | .combSweepPurge t p => Sys2Proof.Machine.execCombSweepPurge t p s
  | .combSweepDepart t p => Sys2Proof.Machine.execCombSweepDepart t p s
  | .combSweepPin t p => Sys2Proof.Machine.execCombSweepPin t p s
  | .combSweepUnpin t p => Sys2Proof.Machine.execCombSweepUnpin t p s
  | .combSweepLink t p => Sys2Proof.Machine.execCombSweepLink t p s
  | .combLookup t p => Sys2Proof.Machine.execCombLookup t p s
  | .damaskKeyLoad t p => Sys2Proof.Machine.execDamaskKeyLoad t p s
  | .damaskKeyGenerate t p => Sys2Proof.Machine.execDamaskKeyGenerate t p s
  | .damaskKeyMarkNx t p => Sys2Proof.Machine.execDamaskKeyMarkNx t p s
  | .damaskKeyExport t p => Sys2Proof.Machine.execDamaskKeyExport t p s
  | .damaskKeyErase t p => Sys2Proof.Machine.execDamaskKeyErase t p s
  | .damaskEpoch t p => Sys2Proof.Machine.execDamaskEpoch t p s
  | .calRun t p => Sys2Proof.Machine.execCalRun t p s
  | .onlineTest t p => Sys2Proof.Machine.execOnlineTest t p s
  | .serviceFence t p => Sys2Proof.Machine.execServiceFence t p s
  | .serviceUnfence t p => Sys2Proof.Machine.execServiceUnfence t p s
  | .serviceRetire t p => Sys2Proof.Machine.execServiceRetire t p s
  | .leaveSafe t p => Sys2Proof.Machine.execLeaveSafe t p s
  | .enterSafe t p => Sys2Proof.Machine.execEnterSafe t p s
  | .ledgerRead t p => Sys2Proof.Machine.execLedgerRead t p s
  | .imageCommit t p => Sys2Proof.Machine.execImageCommit t p s
  | .appletStart t p => Sys2Proof.Machine.execAppletStart t p s
  | .appletStop t p => Sys2Proof.Machine.execAppletStop t p s
  | .swapCore t p => Sys2Proof.Machine.execSwapCore t p s
  | .appletCmd t p => Sys2Proof.Machine.execAppletCmd t p s
  | .operationStart t tag ecc => Sys2Proof.Machine.execOperationStart t tag ecc s
  | .heldRecordWrite t => Sys2Proof.Machine.execHeldRecordWrite t s
  | .gapDeferredWrite t ring => Sys2Proof.Machine.execGapDeferredWrite t ring s
  | .ringCfgWrite t r ring v => Sys2Proof.Machine.execRingCfgWrite t r ring v s
  | .ringFlush t r ring => Sys2Proof.Machine.execRingFlush t r ring s
  | .ringStale t ring => Sys2Proof.Machine.execRingStale t ring s
  | .setCopy t r => Sys2Proof.Machine.execSetCopy t r s
  | .copyDone t => Sys2Proof.Machine.execCopyDone t s
  | .sysCtrlSafe t r v => Sys2Proof.Machine.execSysCtrlSafe t r v s
  | .softReset t r v => Sys2Proof.Machine.execSoftReset t r v s
  | .latchedPairRead t r addr => Sys2Proof.Machine.execLatchedPairRead t r addr s
  | .genericRegisterWrite t r shadow addr v => Sys2Proof.Machine.execGenericRegisterWrite t r shadow addr v s
  | .add c rd ra rb => Sys2Proof.Machine.execAdd c rd ra rb s
  | .sub c rd ra rb => Sys2Proof.Machine.execSub c rd ra rb s
  | .and c rd ra rb => Sys2Proof.Machine.execAnd c rd ra rb s
  | .or c rd ra rb => Sys2Proof.Machine.execOr c rd ra rb s
  | .xor rd ra rb => Sys2Proof.Machine.execXor rd ra rb s
  | .shl rd ra rb => Sys2Proof.Machine.execShl rd ra rb s
  | .shr rd ra rb => Sys2Proof.Machine.execShr rd ra rb s
  | .sra rd ra rb => Sys2Proof.Machine.execSra rd ra rb s
  | .slt rd ra rb => Sys2Proof.Machine.execSlt rd ra rb s
  | .sltu rd ra rb => Sys2Proof.Machine.execSltu rd ra rb s
  | .min rd ra rb => Sys2Proof.Machine.execMin rd ra rb s
  | .max rd ra rb => Sys2Proof.Machine.execMax rd ra rb s
  | .minu rd ra rb => Sys2Proof.Machine.execMinu rd ra rb s
  | .maxu rd ra rb => Sys2Proof.Machine.execMaxu rd ra rb s
  | .mov c rd ra => Sys2Proof.Machine.execMov c rd ra s
  | .mul rd ra rb => Sys2Proof.Machine.execMul rd ra rb s
  | .mulh rd ra rb => Sys2Proof.Machine.execMulh rd ra rb s
  | .mulhu rd ra rb => Sys2Proof.Machine.execMulhu rd ra rb s
  | .div rd ra rb => Sys2Proof.Machine.execDiv rd ra rb s
  | .divu rd ra rb => Sys2Proof.Machine.execDivu rd ra rb s
  | .rem rd ra rb => Sys2Proof.Machine.execRem rd ra rb s
  | .remu rd ra rb => Sys2Proof.Machine.execRemu rd ra rb s
  | .clz rd ra => Sys2Proof.Machine.execClz rd ra s
  | .popc rd ra => Sys2Proof.Machine.execPopc rd ra s
  | .addi c rd ra imm => Sys2Proof.Machine.execAddi c rd ra imm s
  | .andi rd ra imm => Sys2Proof.Machine.execAndi rd ra imm s
  | .ori rd ra imm => Sys2Proof.Machine.execOri rd ra imm s
  | .xori rd ra imm => Sys2Proof.Machine.execXori rd ra imm s
  | .shli c rd ra imm => Sys2Proof.Machine.execShli c rd ra imm s
  | .shri c rd ra imm => Sys2Proof.Machine.execShri c rd ra imm s
  | .srai rd ra imm => Sys2Proof.Machine.execSrai rd ra imm s
  | .slti rd ra imm => Sys2Proof.Machine.execSlti rd ra imm s
  | .sltiu rd ra imm => Sys2Proof.Machine.execSltiu rd ra imm s
  | .lui rd imm => Sys2Proof.Machine.execLui rd imm s
  | .li c rd imm => Sys2Proof.Machine.execLi c rd imm s
  | .ldw c rd ra imm ecc => Sys2Proof.Machine.execLdw c rd ra imm ecc s
  | .ldh rd ra imm ecc => Sys2Proof.Machine.execLdh rd ra imm ecc s
  | .ldhu rd ra imm ecc => Sys2Proof.Machine.execLdhu rd ra imm ecc s
  | .ldb rd ra imm ecc => Sys2Proof.Machine.execLdb rd ra imm ecc s
  | .ldbu rd ra imm ecc => Sys2Proof.Machine.execLdbu rd ra imm ecc s
  | .stw c rd ra imm => Sys2Proof.Machine.execStw c rd ra imm s
  | .sth rd ra imm => Sys2Proof.Machine.execSth rd ra imm s
  | .stb rd ra imm => Sys2Proof.Machine.execStb rd ra imm s
  | .beq ra rb off => Sys2Proof.Machine.execBeq ra rb off s
  | .bne ra rb off => Sys2Proof.Machine.execBne ra rb off s
  | .blt ra rb off => Sys2Proof.Machine.execBlt ra rb off s
  | .bge ra rb off => Sys2Proof.Machine.execBge ra rb off s
  | .bltu ra rb off => Sys2Proof.Machine.execBltu ra rb off s
  | .bgeu ra rb off => Sys2Proof.Machine.execBgeu ra rb off s
  | .bz c ra off => Sys2Proof.Machine.execBz c ra off s
  | .bnz c ra off => Sys2Proof.Machine.execBnz c ra off s
  | .j c off => Sys2Proof.Machine.execJ c off s
  | .call off => Sys2Proof.Machine.execCall off s
  | .callr ra => Sys2Proof.Machine.execCallr ra s
  | .jr ra => Sys2Proof.Machine.execJr ra s
  | .ret c => Sys2Proof.Machine.execRet c s
  | .rtt => Sys2Proof.Machine.execRtt s
  | .wait t irq => Sys2Proof.Machine.execWait t irq s
  | .csrrd rd csr => Sys2Proof.Machine.execCsrrd rd csr s
  | .csrwr ra csr => Sys2Proof.Machine.execCsrwr ra csr s
  | .fence => Sys2Proof.Machine.execFence s
  | .wspill => Sys2Proof.Machine.execWspill s
  | .wfill => Sys2Proof.Machine.execWfill s
  | .trap imm => Sys2Proof.Machine.execTrap imm s
  | .cus sel rd ra rb imm ecc => Sys2Proof.Machine.execCus sel rd ra rb imm ecc s
  | .cp2Crcinit rd ra rb => Sys2Proof.Machine.execCp2Crcinit rd ra rb s
  | .cp2Crcfeed rd ra rb => Sys2Proof.Machine.execCp2Crcfeed rd ra rb s
  | .cp2Crcrd rd ra rb => Sys2Proof.Machine.execCp2Crcrd rd ra rb s
  | .cp3Pseud rd ra rb => Sys2Proof.Machine.execCp3Pseud rd ra rb s
  | .cp3Epkey rd ra rb => Sys2Proof.Machine.execCp3Epkey rd ra rb s
  | .cp3Siphash rd ra rb => Sys2Proof.Machine.execCp3Siphash rd ra rb s
  | .interruptEntry t cause => Sys2Proof.Machine.execInterruptEntry t cause s
  | .yield t => Sys2Proof.Machine.execYield t s
  | .waitEvent t => Sys2Proof.Machine.execWaitEvent t s
  | .waitEventTimer t => Sys2Proof.Machine.execWaitEventTimer t s
  | .cmdGet t => Sys2Proof.Machine.execCmdGet t s
  | .cmdReply t => Sys2Proof.Machine.execCmdReply t s
  | .appletPost t => Sys2Proof.Machine.execAppletPost t s
  | .tagXchg t => Sys2Proof.Machine.execTagXchg t s
  | .timeService t => Sys2Proof.Machine.execTimeService t s
  | .filterRet t words => Sys2Proof.Machine.execFilterRet t words s
  | .filterCall t => Sys2Proof.Machine.execFilterCall t s
  | .filterBudgetExpiry t => Sys2Proof.Machine.execFilterBudgetExpiry t s
  | .ucDataHWrite t r v => Sys2Proof.Machine.execUcDataHWrite t r v s
  | .ucDecWrite t r n v => Sys2Proof.Machine.execUcDecWrite t r n v s
  | .imgDataWrite t r v => Sys2Proof.Machine.execImgDataWrite t r v s
  | .imgRestart t r => Sys2Proof.Machine.execImgRestart t r s
  | .imgBoot t r => Sys2Proof.Machine.execImgBoot t r s
  | .bootRom t flash => Sys2Proof.Machine.execBootRom t flash s
  | .wdog t => Sys2Proof.Machine.execWdog t s
  | .pmuModeWrite t r v => Sys2Proof.Machine.execPmuModeWrite t r v s
  | .entryStageDone t dom => Sys2Proof.Machine.execEntryStageDone t dom s
  | .quiesceTimeout t dom => Sys2Proof.Machine.execQuiesceTimeout t dom s
  | .wakeStageDone t dom => Sys2Proof.Machine.execWakeStageDone t dom s
  | .atWake t => Sys2Proof.Machine.execAtWake t s
  | .vioChange t railB up => Sys2Proof.Machine.execVioChange t railB up s
  | .vpaChange t up => Sys2Proof.Machine.execVpaChange t up s
  | .brownOut t => Sys2Proof.Machine.execBrownOut t s
  | .powerOnReset t => Sys2Proof.Machine.execPowerOnReset t s
  | .pinReset t low => Sys2Proof.Machine.execPinReset t low s
  | .startupStageDone t straps => Sys2Proof.Machine.execStartupStageDone t straps s
  | .tempSample t temp => Sys2Proof.Machine.execTempSample t temp s
  | .calRunStart t => Sys2Proof.Machine.execCalRunStart t s
  | .calRunDone t m => Sys2Proof.Machine.execCalRunDone t m s
  | .ageHour t => Sys2Proof.Machine.execAgeHour t s
  | .replan t m => Sys2Proof.Machine.execReplan t m s
  | .faultRecoveryDone t writeOk => Sys2Proof.Machine.execFaultRecoveryDone t writeOk s
  | .recoveryTmo t => Sys2Proof.Machine.execRecoveryTmo t s
  | .queuedFaultStart t => Sys2Proof.Machine.execQueuedFaultStart t s
  | .checkSelf t ok => Sys2Proof.Machine.execCheckSelf t ok s
  | .damaskSelf t ok => Sys2Proof.Machine.execDamaskSelf t ok s
  | .testPhaseDone t ok addr => Sys2Proof.Machine.execTestPhaseDone t ok addr s
  | .fenceCtrlWrite t r v => Sys2Proof.Machine.execFenceCtrlWrite t r v s
  | .ledgerDataRead t r => Sys2Proof.Machine.execLedgerDataRead t r s
  | .hfLim t allowed => Sys2Proof.Machine.execHfLim t allowed s
  | .paBuck t => Sys2Proof.Machine.execPaBuck t s
  | .hfDrv t => Sys2Proof.Machine.execHfDrv t s
  | .hfStartOfFrame t framed erased => Sys2Proof.Machine.execHfStartOfFrame t framed erased s
  | .malformedFrame f header rest => Sys2Proof.Machine.execMalformedFrame f header rest s
  | .uhfChanDataRead t r shadow => Sys2Proof.Machine.execUhfChanDataRead t r shadow s
  | .linkMDataAccess t r wr => Sys2Proof.Machine.execLinkMDataAccess t r wr s
  | .calSnrDataRead t r => Sys2Proof.Machine.execCalSnrDataRead t r s
  | .ucDataHRead t r => Sys2Proof.Machine.execUcDataHRead t r s

end Sys2Proof.Machine
end

