-- ==== Sys2Proof/Machine/Step.lean ====
section
/-! DEFINITION. One step of the machine: the command at the front of the queue takes its effect on everything but the
queue; on an empty queue one fine tick passes. -/
namespace Sys2Proof.Machine

/-- A fine tick passes with no command (R6); a host write of the mailbox goes on (R290). -/
def idle (s : State) : State := hostRun { s with dev := tick (s.dev.now + 1) s.dev }

/-- Takes the command at the front of the queue. -/
def step (s : State) : Host.Outcome State Fault Refusal :=
  match s.pending with
  | [] => .next (idle s)
  | c :: rest => exec c { s with pending := rest }

/-- `s` with the command a word spells put at the front of its queue; no word spells one. -/
def State.withFetchWord (s : State) (nbits w : Nat) : State :=
  match decodeTableWord nbits w with
  | none => s
  | some c => { s with pending := c :: s.pending }

end Sys2Proof.Machine
end

