-- ==== Sys2Proof/Safety.lean ====
section
/-! DEFINITION. What a safe state of the machine is, and the terms statements are made in: a command that completes, a core
that runs an instruction, and the memories as bytes. -/
namespace Sys2Proof

open Sys2Proof.Machine

/-- What the manual promises of the commissioning tag at all times: group 15 stays write-denied to the field in the stored
protection and in the copy in force (R283, R298); the field holds the lock only in a session (R288); each map of the FRAM is
in canonical form. -/
def TagmInv (g : Tagm) : Prop :=
  bit g.fprot 15 = true ∧ (g.sess = true → bit g.fprotS 15 = true) ∧ (g.lock.isSome = true → g.sess = true) ∧
  CMap.wf framDefault g.fram = true ∧ CMap.wf recDefault g.recs = true

/-- Every memory, register bank and table of a set of configuration is in canonical form. -/
def setWf (c : CfgSet) : Bool :=
  CMap.wf regReset c.regs && CMap.wf zeroW c.plan && CMap.wf zeroW c.chan && CMap.wf tabDefault c.tab && CMap.wf zeroW c.fb &&
    CMap.wf zeroW c.hffb

/-- The memories of a core are in canonical form. -/
def coreWf (c : Core) : Bool := CMap.wf zeroW c.isram && CMap.wf (fun _ => 0) c.cs && CMap.wf zeroW c.dec

/-- Every memory of the device and of the tag is in canonical form: addresses rise strictly and no entry equals what an
unlisted address reads as. -/
def Memory.wf (s : State) : Bool :=
  CMap.wf regReset s.dev.regs && setWf s.dev.set0 && setWf s.dev.set1 && coreWf s.dev.cpu.m && coreWf s.dev.cpu.s &&
    CMap.wf zeroW s.dev.cpu.dsram && CMap.wf zeroW s.dev.comb.cells && CMap.wf zeroW s.dev.uhf.seeds &&
    CMap.wf (coefDefault s.dev.chA.stock) s.dev.chA.coef && CMap.wf (coefDefault s.dev.chB.stock) s.dev.chB.coef &&
    CMap.wf zeroW s.dev.hf.rx && CMap.wf zeroW s.dev.mst.buf && CMap.wf zeroW s.dev.cal.snr &&
    CMap.wf (fun _ => 0) s.dev.tb.noise && CMap.wf framDefault s.tagm.fram && CMap.wf recDefault s.tagm.recs &&
    CMap.wf (fun _ => none) s.dev.uhf.fwdMeas && CMap.wf (fun _ => 0) s.dev.comb.fixes && CMap.wf (fun _ => 0) s.dev.svc.writes &&
    CMap.wf zeroW s.dev.sys.latches && CMap.wf (fun _ => 0x10000) s.tagm.reported && CMap.wf (fun _ => 0) s.tagm.writes

/-- The command completes, and the next state is as `P` says. -/
def Gives (i : Instr) (s : State) (P : State → Prop) : Prop := ∃ u, exec i s = .next u ∧ P u

/-- The command completes, the tag and the queue stay as they are, and the device after it is as `P` says. -/
def GivesDev (i : Instr) (s : State) (P : Dev → Prop) : Prop := ∃ d, exec i s = .next { s with dev := d } ∧ P d

/-- The command completes, the tag and the queue stay as they are, and the device after it is `d`. -/
def Does (i : Instr) (s : State) (d : Dev) : Prop := exec i s = .next { s with dev := d }

/-- The registers at `as` may differ between the two devices, and no other. -/
abbrev RegsBut (as : List Nat) (d e : Dev) : Prop := ∀ a, a ∉ as → reg e a = reg d a

/-- Drop count and event register of a report ring: what a record may change beside the ring. -/
abbrev recRegs (n : Nat) : List Nat := [ringReg n 5, ringReg n 6]

/-- Only the timebase, registers at `as`, and the TIME record with its ring and ring registers may differ. -/
abbrev TimeOnly (as : List Nat) (d e : Dev) : Prop :=
  e = { d with tb := e.tb, regs := e.regs, rings := e.rings, marks := e.marks } ∧ RegsBut (as ++ recRegs 5) d e

/-! The core -/

/-- The core in service executes, and its mode may fetch the `len` bytes at its pc (R376). -/
abbrev Runs (s : State) (len : Nat) : Prop := coreRuns s.dev = true ∧ fetchOk (coreIn s.dev) len = true

/-- As `Runs`, in supervisor mode. -/
abbrev RunsSup (s : State) : Prop := Runs s 4 ∧ (coreIn s.dev).sup = true

/-- Only the core in service has changed, to `c`. -/
def withCore (s : State) (c : Core) : State := { s with dev := setCore c s.dev }

/-- `rd` has taken `v`, the pc has moved past an instruction of `len` bytes, and nothing else has changed. -/
def rdNext (s : State) (len : Nat) (rd : BitVec 5) (v : Word) : State :=
  withCore s { (coreIn s.dev).put rd v with pc := (coreIn s.dev).pc + nw len }

/-- The pc is at `a`, and nothing else has changed. -/
def pcNext (s : State) (a : Word) : State := withCore s { coreIn s.dev with pc := a }

/-- Byte `x` of a memory of big-endian words (R376). -/
def byteOf (m : CMap Word) (x : Nat) : Byte := (memW m (x / 4)).extractLsb' (24 - 8 * (x % 4)) 8

/-- Byte `j` of the `size` bytes a store writes of a register. -/
def storedByte (size : Nat) (v : Word) (j : Nat) : Byte := v.extractLsb' (8 * (size - 1 - j)) 8

/-- The applet's main flow runs and waits in service `n`, with no filter call in progress (R397). -/
abbrev Serving (s : State) (n : Nat) : Prop :=
  s.dev.cpu.apl.run = true ∧ s.dev.cpu.apl.filter = none ∧ inService s.dev n = true

/-- `d` with the service of the main flow ended, its results in p0 and p1. -/
def serviced (p0 p1 : Option Word) (d : Dev) : Dev := setCore ((coreIn d).serviceEnd p0 p1) d

/-! The sequencer -/

/-- The device at the tick a step issues: a SLOT wait that ends begins a window of the thread's operation (R340). -/
def stepFound (d : Dev) (t n : Nat) : Dev :=
  let d := tick t d
  if stepWk (thr d n).word = 4 then firstWindow n d else d

/-- At tick `t` the wait of thread `n`'s step ends as `e`, the step's action is `act`, its turn in the order of the tick has not passed
(R157), and nothing else is due: no suspend or cancel is pending, no operation has a request, no chain has two saturated windows in a
row and the applet waits for nothing. -/
abbrev StepDue (d : Dev) (t n act : Nat) (e : WaitEnd) : Prop :=
  n < 4 ∧ stageOk (tick t d) (n + 1) = true ∧ waitOver (tick t d) n = some e ∧ stepAct (thr d n).word = act ∧ (thr d n).abort = .none ∧
  (∀ o ∈ d.ops, o.pend = .none) ∧ (tick t d).chA.satRuns < 2 ∧ (tick t d).chB.satRuns < 2 ∧ d.cpu.apl.waiting = none

/-- The device as the action of that step finds it: its conditions are sampled and the wait's flags are set (R149, R154). -/
def stepIssued (d : Dev) (t n : Nat) (e : WaitEnd) : Dev :=
  updThr n (fun x => { x with timeout := e.timeout, late := e.late }) (stageMark (n + 1) (stepFound d t n))

/-- A ping may be made and is good (R268): the ping unit runs with no field and no window, no field from outside is seen, the supply
and the oscillator are in order and no sample is blanked. -/
abbrev PingGood (d : Dev) (p : Ping) : Prop :=
  pingUnit d = true ∧ d.hf.field = 0 ∧ d.hf.win = none ∧ p.ext < fld (cfg d Reg.HF_RX_CFG) 25 16 ∧ d.pmu.vpa = true ∧
  p.oscOk = true ∧ p.blanked = false ∧ pathBlanked d 2 = false

/-- What `HF_LPCD_LAST` shows of a ping (R268, R269). -/
def pingWord (d : Dev) (p : Ping) : Word :=
  put 31 24 (pingD p.amp.toNat p.phase.toNat (reg d Reg.HF_LPCD_BASE)) ||| put 23 12 p.phase.toNat ||| put 11 0 p.amp.toNat

/-- No UHF window is open. -/
abbrev NoWindows (d : Dev) : Prop := d.chA.win = none ∧ d.chB.win = none

/-! Rings and commands -/

/-- Ring `n` is enabled, holds no GAP back, and has room under R345 for a record with a body of `k` words. -/
abbrev RoomFor (d : Dev) (n k : Nat) : Prop := (ring d n).en = true ∧ (ring d n).pendGap = 0 ∧ k + 3 ≤ (ring d n).room

/-- `e` is `d` with one more record at the end of report ring `n`, as R349 numbers it; every other ring is as it was, and of the registers
only the ring's event register has changed, where NEW is set. -/
def WithRecord (d e : Dev) (n type : Nat) (body : List Word) : Prop :=
  (ring e n).recs = (ring d n).recs ++ [(put 31 16 type ||| put 15 8 (body.length + 1) ||| put 7 0 (ring d n).nseq.toNat) :: body] ∧
  (ring e n).nseq = (ring d n).nseq + 1 ∧ (∀ m, m ≠ n → ring e m = ring d m) ∧
  bit (reg e (ringReg n 6)) 0 = true ∧ (∀ a, a ≠ ringReg n 6 → reg e a = reg d a) ∧
  e = { d with rings := e.rings, regs := e.regs, marks := e.marks }

/-- No operation uses the tag and none of its records is held (R334). -/
abbrev TagFree (d : Dev) (tag : Nat) : Prop :=
  findOp d tag = none ∧ hasHeld d tag = false ∧ d.acc.op ≠ some tag ∧ d.cal.cmd.map CalCmd.tag ≠ some tag ∧
  d.svc.test.map TestRun.tag ≠ some tag

/-- Firmware takes packets, and this one's fields are in their widths, its reply ring is enabled and its block has its length (R331,
R332). -/
abbrev Taken (s : State) (op : Nat) (p : Packet) : Prop :=
  s.tagm.hostW = none ∧ fwTakes s.dev = true ∧ p.cring < 4 ∧ p.tag < 128 ∧ 4 ≤ p.rring ∧ p.rring < 32 ∧
  (ring s.dev p.rring).en = true ∧ blockFixed op p.block ≤ p.block.length ∧ p.block.length = blockNeed op p.block ∧
  p.block.length ≤ 1280 ∧ paramBad s.dev op p.block = false

/-- The device as a short command finds it: the tick has come and one more operation has been counted. -/
def shortFound (s : State) (t : Nat) : Dev := { tick t s.dev with opSeq := s.dev.opSeq + 1 }

/-- A command ends at once with its one final REPLY (R350), after an effect that leaves `e`; its tag is free again. -/
def Replies (i : Instr) (s : State) (op : Nat) (p : Packet) (e : Dev) (status : Nat) (res : List Word) : Prop :=
  RoomFor e p.rring (4 + res.length) → GivesDev i s fun d =>
    WithRecord e d p.rring 0x0001 (replyBody e status true p.tag op 0 (if status = 0 then .done else .failed) p.cring res)

/-- The commands that stand for one opcode each, with it. -/
def plainRows : List ((Nat → Packet → Instr) × Nat) :=
  [(.cmdNop, 0x000), (.getInfo, 0x001), (.setTurn, 0x002), (.suspend, 0x003), (.resume, 0x004), (.cancel, 0x005), (.queryOp, 0x006),
   (.data, 0x007), (.timeRead, 0x100), (.listen, 0x200), (.inventory, 0x300), (.selectSet, 0x301), (.tagRead, 0x400), (.tagWrite, 0x401),
   (.tagBlockwrite, 0x402), (.tagBlockerase, 0x403), (.tagLock, 0x404), (.tagKill, 0x405), (.tagPermalock, 0x406),
   (.tagUntraceable, 0x407), (.tagAuth, 0x408), (.hfCampaign, 0x500), (.hfApdu, 0x501), (.hfRelease, 0x502), (.mboxRead, 0x601),
   (.mboxWrite, 0x602), (.combLookup, 0x701), (.damaskEpoch, 0x711), (.calRun, 0x800), (.onlineTest, 0x801), (.ledgerRead, 0x803),
   (.imageCommit, 0x900), (.appletStart, 0x901), (.appletStop, 0x902), (.swapCore, 0x903), (.appletCmd, 0x904)]

/-- The commands that stand for one value of a field of their first block word: opcode, field and value. -/
def fieldRows : List ((Nat → Packet → Instr) × Nat × Nat × Nat × Nat) :=
  [(.combSweepReport, 0x700, 26, 24, 0), (.combSweepPurge, 0x700, 26, 24, 1), (.combSweepDepart, 0x700, 26, 24, 2),
   (.combSweepPin, 0x700, 26, 24, 3), (.combSweepUnpin, 0x700, 26, 24, 4), (.combSweepLink, 0x700, 26, 24, 5),
   (.damaskKeyLoad, 0x710, 2, 0, 0), (.damaskKeyGenerate, 0x710, 2, 0, 1), (.damaskKeyMarkNx, 0x710, 2, 0, 2),
   (.damaskKeyExport, 0x710, 2, 0, 3), (.damaskKeyErase, 0x710, 2, 0, 4), (.serviceFence, 0x802, 3, 0, 0),
   (.serviceUnfence, 0x802, 3, 0, 1), (.serviceRetire, 0x802, 3, 0, 2), (.leaveSafe, 0x802, 3, 0, 3), (.enterSafe, 0x802, 3, 0, 4)]

/-- A packet's command with its opcode: a plain row, or a row of a field whose first block word has the value. -/
def RowOf (r : Nat → Packet → Instr) (op : Nat) (p : Packet) : Prop :=
  (r, op) ∈ plainRows ∨ ∃ hi lo v w ws, (r, op, hi, lo, v) ∈ fieldRows ∧ p.block = w :: ws ∧ fld w hi lo = v

/-! The host link -/

/-- The port hears the frame, no host write of the mailbox is in progress, and the frame's CRC word is that of its words with the
port's epoch and expected sequence number (R303, R304). -/
abbrev FrameGood (s : State) (f : FrameIn) (words : List Word) : Prop :=
  s.tagm.hostW = none ∧ portHears (tick f.t s.dev) f.port f.fall = true ∧
  f.crc = frameCrc (port s.dev f.port).epoch (port s.dev f.port).seq words

/-- The machine as a good frame finds it: the tick has come, the frame is counted, the sequence number has moved on and the run of errors
is over (R305, R324). -/
def frameFound (s : State) (f : FrameIn) : State := { s with dev := frameGood f.port (tick f.t s.dev) }

/-- The machine `e` after a good frame of a kind was served, with what its MISO showed: the ready word and the reply of R309; its
select has risen (R308). -/
def answered (s : State) (f : FrameIn) (kind : Nat) (data : List Word) (status count : Nat) (e : State) : State :=
  release f.rel (setReply f.port (readyWordOf (tick f.t s.dev) f.port)
    (replyWords kind (port s.dev f.port).epoch (port s.dev f.port).seq ⟨data, status, count⟩) e)

/-! The commissioning tag -/

/-- The tag after it has heard a frame (R286, R288, R294), with no reply yet. -/
def heardBy (g : Tagm) (f : TagFrame) : Tagm :=
  { g with reply := [], vh := min 4095 f.vh5, lock := some f.t, nValid := min 0xFFFF (g.nValid + 1) }

/-- A frame of the field that reaches the tag and whose reply would leave whole; no host write is in progress and the tag is
in service. -/
abbrev FrameReaches (s : State) (f : TagFrame) : Prop :=
  frameHeard s.tagm f = true ∧ s.tagm.hostW = none ∧ outOfService s.dev 0x11 = false ∧ vrd ≤ f.vh5 ∧ collapses f 5 = false

/-- The tag has heard the frame, answers `bytes`, and nothing but the tick differs otherwise. -/
def Answers (i : Instr) (s : State) (f : TagFrame) (bytes : List Byte) : Prop :=
  exec i s = .next { s with dev := tick f.t s.dev, tagm := { heardBy s.tagm f with reply := bytes } }

end Sys2Proof
end

