-- ==== Sys2Proof/Certificates/Slice0/Obligations.lean ====
section
/-! DEFINITION. The statements for the provers. -/
open Sys2Proof Sys2Proof.Machine

/-- R16-R18, R20-R22, R43: what ZC_EDGE does while no wait has run out. An edge of an input that is not enabled, of the other
polarity, too short, on a rail below its level or, in LOCKED and SLEW, outside the window does nothing. A qualified edge of a new
crossing is taken at once when its input is the primary one: NONE goes to ACQUIRE and counts it, LOCKED steers the loop by it and
goes on counting cycles as before, and in FLY one that makes a pair removes the error, by a slew or a step; an edge of the other
input opens a wait, from NONE too. -/
def Claims.CrossingInput : Prop := ∀ (s : State) (t : Nat) (inp falling : Bool) (held : Nat),
  let d := tick t s.dev
  let c := reg d Reg.TIME_ZC_CFG
  let b := d.tb
  let x := crossingOf d ⟨inp, t⟩
  let q := instantQ d x
  let inWindow := (relockError d q).natAbs ≤ zcWin d
  let good := bit c (if inp then 1 else 0) && (if inp then d.pmu.vioB else d.pmu.vioA) &&
    falling == bit c (if inp then 3 else 2) && decide (fld c 23 16 ≤ held)
  (∀ w ∈ b.wait, t < w.2) →
  (good = false ∨ ((b.st = .locked ∨ b.st = .slew) ∧ ¬ inWindow) → Does (.zcEdge t inp falling held) s d) ∧
  (good = true → (∀ p ∈ b.lastTakenQ, sameCrossing d q p = false) →
    (b.st = .none → b.acq = [] → inp = bit c 4 → GivesDev (.zcEdge t inp falling held) s fun e =>
      e.tb.st = .acquire ∧ e.tb.acq = [x] ∧ e.tb.lastTakenQ = some q ∧ e.tb.zcSrc = (if inp then 2 else 1) ∧
      (if inp then e.tb.lastB = some t else e.tb.lastA = some t) ∧ TimeOnly [] d e) ∧
    (b.st = .none → inp ≠ bit c 4 → b.wait = none → GivesDev (.zcEdge t inp falling held) s fun e =>
      e.tb.st = .acquire ∧ e.tb.wait = some (⟨inp, t⟩, t + puToQ (workPeriod d) (zcWin d) / 256) ∧ e.tb.acq = b.acq ∧ TimeOnly [] d e) ∧
    (b.st = .locked → inWindow → inp = bit c 4 → b.slewing = none → b.stepPend = none → b.oscRelock = 0 →
      GivesDev (.zcEdge t inp falling held) s fun e => e.tb.st = .locked ∧ e.tb.missed = 0 ∧ e.tb.cyc = b.cyc ∧
        e.tb.lastTakenQ = some q ∧ e.tb.zcSrc = (if inp then 2 else 1) ∧ (periodMoved e = false → e = { d with tb := e.tb })) ∧
    (b.st = .fly → inp = bit c 4 → b.stepPend = none → ∀ p, b.relockQ = some p → rateOk ((q : Int) - p) = true →
      99 * b.period ≤ 100 * (q - p) → 100 * (q - p) ≤ 101 * b.period → GivesDev (.zcEdge t inp falling held) s fun e =>
        reg e Reg.TIME_STEP_LAST = ofInt (relockError d q) ∧ e.tb.period = b.period ∧
        ((relockError d q).natAbs ≤ 512 → e.tb.st = .slew ∧ e.tb.slewing = some ⟨relockError d q, 0, q⟩) ∧
        (512 < (relockError d q).natAbs → e.tb.st = .fly ∧ e.tb.stepPend = some (relockError d q))))

/-- R18, R19: ZC_PRIMARY_WAIT_EXPIRY takes the other input's edge, corrected by the last skew, and sets ZC_SWITCH; before the
wait is over it does nothing. ZC_DISAGREE records the sixteenth large skew in a row as a fault, once for each run. -/
def Claims.TwoInputs : Prop := ∀ (s : State) (t : Nat),
  let d := tick t s.dev
  (∀ e u, d.tb.wait = some (e, u) → u ≤ t → GivesDev (.zcPrimaryWaitExpiry t) s fun f =>
    let c := crossingOf d e
    let c' : Crossing := { c with stampQ := ((c.stampQ : Int) + (if e.input then - d.tb.skewQ else d.tb.skewQ)).toNat }
    f.tb.wait = none ∧ f.tb.zcSrc = (if e.input then 2 else 1) ∧ bit (reg f Reg.TIME_EVENT) 5 = true ∧
    (d.tb.st ≠ .acquire → d.tb.st ≠ .none → f.tb.lastTakenQ = some (instantQ d c')) ∧
    (d.tb.st = .acquire → d.tb.acq = [] → f.tb.st = .acquire ∧ f.tb.acq = [c'] ∧ TimeOnly [Reg.TIME_EVENT] d f)) ∧
  ((∀ w ∈ d.tb.wait, t < w.2) → Does (.zcPrimaryWaitExpiry t) s d) ∧
  (16 ≤ d.tb.skewRun → d.tb.disagreed = false → Does (.zcDisagree t) s
    (raiseFault 0x01 blkTime 0 { d with tb := { d.tb with disagreed := true } })) ∧
  (d.tb.skewRun < 16 ∨ d.tb.disagreed = true → Does (.zcDisagree t) s d)

/-- R23: MISSED_CROSSING: in LOCKED or SLEW, the window of an expected crossing that closes with none taken counts it once; the
second in a row enters FLY at the present period with what a slew has removed kept. Before the close, after a crossing taken in the
window, or in another state it does nothing. -/
def Claims.MissedCrossings : Prop := ∀ (s : State) (t : Nat),
  let d := tick t s.dev
  let b := d.tb
  let wQ := puToQ b.period (zcWin d)
  let due := (b.st = .locked ∨ b.st = .slew) ∧ b.originQ + wQ ≤ t * 256 ∧ (∀ q ∈ b.lastTakenQ, q + wQ < b.originQ) ∧
    b.missedForQ ≠ some b.originQ
  (∀ w ∈ b.wait, t < w.2) →
  (due → b.missed = 0 → Does (.missedCrossing t) s { d with tb := { b with missed := 1, missedForQ := some b.originQ } }) ∧
  (due → 1 ≤ b.missed → GivesDev (.missedCrossing t) s fun e => e.tb.st = .fly ∧ e.tb.slewing = none ∧ e.tb.period = b.period ∧
    e.tb.cyc = b.cyc ∧ bit (reg e Reg.TIME_EVENT) 1 = true) ∧
  (b.st ≠ .locked ∧ b.st ≠ .slew ∨ t * 256 < b.originQ + wQ ∨ (∃ q ∈ b.lastTakenQ, b.originQ ≤ q) ∨
    b.missedForQ = some b.originQ → Does (.missedCrossing t) s d)

/-- R24, R31, R40, R53: SELF_START starts NONE at its nominal rate as FREE and no other state; PLAN_SYNC_REQUEST makes the next
cycle to start plan cycle 0; NOISE_CLR empties the noise map; and none of the three is kept in `TIME_CTRL`. -/
def Claims.TimeControl : Prop := ∀ (s : State) (t : Nat) (r : Reader) (sixty : Bool),
  let d := tick t s.dev
  (d.tb.st = .none → GivesDev (.selfStart t sixty) s fun e =>
    e.tb.st = .free ∧ e.tb.period = (if sixty then 0x28B0AAAB else 0x30D40000) ∧ e.tb.originQ = d.now * 256 ∧
    e.tb.cyc = d.tb.cyc + 1 ∧ e.tb.selfStarted = true ∧ bit (reg e Reg.TIME_EVENT) 2 = true ∧ bit (reg e Reg.TIME_CTRL) 3 = false ∧
    (bit (reg d Reg.TIME_CTRL) 2 = true → TimeOnly [Reg.TIME_CTRL, Reg.TIME_EVENT] d e)) ∧
  (d.tb.st ≠ .none → GivesDev (.selfStart t sixty) s fun e => e = { d with regs := e.regs } ∧ RegsBut [Reg.TIME_CTRL] d e) ∧
  GivesDev (.planSyncRequest t r) s (fun e =>
    planCycle e 1 = 0 ∧ e.tb.planSync = true ∧ e.tb = { d.tb with planPhase := e.tb.planPhase, planSync := true } ∧
    reg e Reg.TIME_CTRL = reg d Reg.TIME_CTRL &&& 0x14 ∧ e = { d with tb := e.tb, regs := e.regs } ∧ RegsBut [Reg.TIME_CTRL] d e) ∧
  GivesDev (.noiseClr t r) s fun e =>
    (∀ b, noiseBin e b = 0) ∧ e.tb = { d.tb with noise := [] } ∧ reg e Reg.TIME_CTRL = reg d Reg.TIME_CTRL &&& 0x14 ∧
    e = { d with tb := e.tb, regs := e.regs } ∧ RegsBut [Reg.TIME_CTRL] d e

/-- R25, R26, R31, R48: CYCLE_START at the wrap of the phase counts the cycle, moves the origin by a period and takes a pending
plan sync with its event; one the flywheel supplies is counted, the first after a crossing as 1 and none after a re-lock until a
crossing is taken; before the wrap, in a backward hold or with no phase nothing happens. -/
def Claims.CycleStarts : Prop := ∀ (s : State) (t : Nat),
  let d := tick t s.dev
  let b := d.tb
  (tbValid d = false ∨ b.holdUntil.isSome = true ∨ rawPhase d (t * 256) < puCycle → ∀ src, Does (.cycleStart t src) s d) ∧
  (tbValid d = true → b.holdUntil = none → (puCycle : Int) ≤ rawPhase d (t * 256) →
    (∀ src, GivesDev (.cycleStart t src) s fun e => e.tb.cyc = b.cyc + 1 ∧ e.tb.originQ = b.originQ + b.period ∧ e.tb.period = b.period ∧
      e.tb.planSync = false ∧ (b.planSync = true → bit (reg e Reg.TIME_EVENT) 7 = true) ∧ e.tb.st = b.st ∧
      (b.st ≠ .locked → TimeOnly [Reg.TIME_EVENT, Reg.TIME_FLY_CYC] d e)) ∧
    (b.planSync = false → b.st ≠ .locked → ∀ src, src ≠ .flywheel →
      Does (.cycleStart t src) s { d with tb := { b with originQ := b.originQ + b.period, cyc := b.cyc + 1 } }) ∧
    GivesDev (.cycleStart t .flywheel) s fun e => e.tb.flyFresh = false ∧
      (b.flyFresh = true → reg e Reg.TIME_FLY_CYC = 1) ∧
      (b.flyFresh = false → b.flyStop = true → reg e Reg.TIME_FLY_CYC = reg d Reg.TIME_FLY_CYC) ∧
      (b.flyFresh = false → b.flyStop = false →
        (reg e Reg.TIME_FLY_CYC).toNat = min 0xFFFFFFFF ((reg d Reg.TIME_FLY_CYC).toNat + 1)))

/-- R25, R47, R163: SLOT_BOUNDARY: slot `b` begins at the tick its start is crossed, and a turn armed for it has its T0 there; at
any other tick, in a hold or with no phase nothing happens. -/
def Claims.SlotStarts : Prop := ∀ (s : State) (t b : Nat) (m : Option Nat),
  let d := tick t s.dev
  (slotBegins d t b = false → Does (.slotBoundary t b m) s d) ∧
  (slotBegins d t b = true → GivesDev (.slotBoundary t b m) s fun e => e.tb.slot = some b ∧ e.tb.slotTick = t ∧
    (∀ a, d.seq.turn = some a → a.armed = true → a.t0 = none → a.slot = some b → e.seq.turn = some { a with t0 := some d.now }) ∧
    (d.tb.noiseRun = none → bit (reg d Reg.TIME_NOISE_CFG) 0 = false → d.gen2.arm = false →
      e = { d with tb := { d.tb with slot := some b, slotTick := t }, seq := { d.seq with turn := e.seq.turn } } ∧
      ((∀ a, d.seq.turn = some a → a.slot ≠ some b) → e.seq.turn = d.seq.turn)))

/-- R42, R45, R46, R49: the other commands of the timebase. ENTER_FREE: FLY past its bound is FREE. SLEW_DONE: a slew that has
removed its error is LOCKED. STEP_APPLY: a forward step is applied at once and a backward one holds the phase for its size, when no
window is open and the threads allow it. STEP_HOLD_END completes it; both end LOCKED with STEP and LOCK set. OSC_SWITCH puts SW into
the bound and asks a locked timebase to re-lock. -/
def Claims.TimebaseStates : Prop := ∀ (s : State) (t : Nat),
  let d := tick t s.dev
  let b := d.tb
  (b.st = .fly → fld (reg d Reg.TIME_UNC_MAX) 15 0 < flyBound d t → GivesDev (.enterFree t) s fun e =>
    e.tb = { b with st := .free } ∧ bit (reg e Reg.TIME_EVENT) 2 = true ∧
    (bit (reg d Reg.TIME_CTRL) 2 = true → TimeOnly [Reg.TIME_EVENT] d e)) ∧
  (b.st ≠ .fly ∨ flyBound d t ≤ fld (reg d Reg.TIME_UNC_MAX) 15 0 → Does (.enterFree t) s d) ∧
  (∀ w, b.slewing = some w → b.st = .slew → slewSub d w (t * 256) = w.e.natAbs * 65536 →
    GivesDev (.slewDone t) s fun e => e.tb.st = .locked ∧ e.tb.slewing = none ∧ e.tb.period = b.period ∧
      bit (reg e Reg.TIME_EVENT) 4 = true ∧ TimeOnly [Reg.TIME_EVENT] d e) ∧
  (∀ x, b.stepPend = some x → b.holdUntil = none → stepAllowed d = true →
    (0 ≤ x → GivesDev (.stepApply t) s fun e =>
      e.tb.st = .locked ∧ e.tb.stepPend = none ∧ bit (reg e Reg.TIME_EVENT) 3 = true ∧ bit (reg e Reg.TIME_EVENT) 0 = true ∧
      e.tb.period = b.period) ∧
    (x < 0 → Does (.stepApply t) s { d with
      tb := { b with originQ := b.originQ + puToQ b.period x.natAbs, holdUntil := some (t + (puToQ b.period x.natAbs + 255) / 256) } })) ∧
  (b.stepPend = none ∨ b.holdUntil.isSome = true ∨ stepAllowed d = false → Does (.stepApply t) s d) ∧
  (∀ h x, b.holdUntil = some h → b.stepPend = some x → h ≤ t → GivesDev (.stepHoldEnd t) s fun e =>
    e.tb.st = .locked ∧ e.tb.stepPend = none ∧ e.tb.holdUntil = none ∧ e.tb.originQ = b.originQ ∧ e.tb.period = b.period ∧
    bit (reg e Reg.TIME_EVENT) 3 = true ∧ bit (reg e Reg.TIME_EVENT) 0 = true) ∧
  (∀ toRc : Bool, b.onRc ≠ toRc → d.pmu.xo = !toRc → GivesDev (.oscSwitch t toRc) s fun e => e.tb.onRc = toRc ∧
    e.tb.uncSw = b.uncSw + fld (reg d Reg.TIME_UNC_RATE) 23 16 ∧ e.tb.oscRelock = (if b.st = .locked ∨ b.st = .slew then 2 else 0) ∧
    e = { d with tb := e.tb, cal := e.cal }) ∧
  (∀ toRc : Bool, b.onRc = toRc ∨ d.pmu.xo = toRc → Does (.oscSwitch t toRc) s d)

/-- R149, R156: the step after an action by BR. 0 and a condition not met go to the next index, 1 and a condition met to ALT,
with indexes modulo 4,096; the step is fetched on the next tick; nothing but the thread's state, step, fetch and gate
changes. -/
def Claims.BranchByBr : Prop := ∀ (d : Dev) (n : Nat),
  let t := thr d n
  let next := if stepBr t.word = 1 ∨ (stepBr t.word = 2 ∧ condNow d n (fld t.word 43 38) ≠ bit t.word 37)
    then stepAlt t.word else t.step + 1
  thr (branch n d) n = { t with st := .waiting, step := next % 4096, toFetch := true, fetchAt := d.now + 1, gate := none } ∧
  (∀ m, m ≠ n → thr (branch n d) m = thr d m) ∧
  branch n d = { d with seq := { d.seq with thr := (branch n d).seq.thr } }

/-- R147-R149: when the wait of a fetched step is over. A step never issues in its fetch tick; DELAY counts from the fetch and
AFTER from the anchor; an AFTER whose instant has passed at the fetch is late; a flag wait ends on the tick after its flag, sensed
through its NOT bit, was sampled true, or by its TIME while the flag is not sampled true; a SLOT wait ends in a selected slot that
began at or after the fetch. -/
def Claims.WaitEnds : Prop := ∀ (d : Dev) (n : Nat),
  let t := thr d n
  let w := t.word
  let ticks := stepTime w * 16 ^ fld w 52 51
  let base := if stepWk w = 3 then t.fetchAt else t.anchor
  (waitOver d n ≠ none → t.st = .waiting ∧ t.toFetch = false) ∧
  (t.st = .waiting → t.toFetch = false →
    (stepWk w = 0 → (waitOver d n ≠ none ↔ t.fetchAt < d.now)) ∧
    (stepWk w = 1 → (waitOver d n ≠ none ↔ t.fetchAt < d.now ∧ t.fetchAt + ticks ≤ d.now)) ∧
    (stepWk w = 2 → t.fetchAt < t.anchor + ticks → (waitOver d n ≠ none ↔ t.anchor + ticks ≤ d.now)) ∧
    (stepWk w = 2 → t.anchor + ticks ≤ t.fetchAt → t.fetchAt < d.now → ∃ e, waitOver d n = some e ∧ e.late = true) ∧
    (stepWk w = 3 ∨ stepWk w = 5 → t.fetchAt < d.now → condPrev d n (stepWcond w) ≠ bit w 44 →
      ∃ e, waitOver d n = some e ∧ e.timeout = false ∧ e.late = false) ∧
    (stepWk w = 3 ∨ stepWk w = 5 → t.fetchAt < d.now → condPrev d n (stepWcond w) = bit w 44 → condNow d n (stepWcond w) = bit w 44 →
      stepTime w ≠ 0 → base + ticks ≤ d.now → ∃ e, waitOver d n = some e ∧ e.timeout = true) ∧
    (stepWk w = 3 ∨ stepWk w = 5 → condPrev d n (stepWcond w) = bit w 44 →
      stepTime w = 0 ∨ d.now < base + ticks ∨ condNow d n (stepWcond w) ≠ bit w 44 → waitOver d n = none) ∧
    (stepWk w = 4 → waitOver d n ≠ none → inSlot d n = true ∧ t.fetchAt ≤ d.tb.slotTick))

/-- R150, R154, R156: actions that touch the thread alone: SEQ_NOP, SEQ_CALL, SEQ_RET, LOOP, SETCNT, ANCHOR and SIGNAL. Each row
issues the due step, sets the wait's flags, takes its effect, and goes on by BR; nothing else of the machine changes. A CALL on a full
stack and a RET on an empty one fault the thread. -/
def Claims.ThreadActions : Prop := ∀ (s : State) (t n : Nat) (e : WaitEnd),
  let x := stepIssued s.dev t n e
  let w := (thr s.dev n).word
  let a := stepArg w
  let alone := fun (d : Dev) => (∀ m, m ≠ n → thr d m = thr x m) ∧ d = { x with seq := { x.seq with thr := d.seq.thr } }
  (StepDue s.dev t n 0x00 e → Does (.seqNop t n) s (branch n x)) ∧
  (StepDue s.dev t n 0x02 e → (thr s.dev n).stack.length < 4 → Does (.seqCall t n) s
    (goTo n (stepAlt w) (updThr n (fun y => { y with stack := (y.step + 1) % 4096 :: y.stack }) x))) ∧
  (StepDue s.dev t n 0x02 e → 4 ≤ (thr s.dev n).stack.length → GivesDev (.seqCall t n) s fun d =>
    (thr d n).st = .fault ∧ (thr d n).code = 0x38 ∧ bit (reg d Reg.SEQ_EVENT) 4 = true) ∧
  (∀ i rest, StepDue s.dev t n 0x03 e → (thr s.dev n).stack = i :: rest → Does (.seqRet t n) s
    (goTo n i (updThr n (fun y => { y with stack := rest }) x))) ∧
  (StepDue s.dev t n 0x03 e → (thr s.dev n).stack = [] → GivesDev (.seqRet t n) s fun d =>
    (thr d n).st = .fault ∧ (thr d n).code = 0x38 ∧ bit (reg d Reg.SEQ_EVENT) 4 = true) ∧
  (StepDue s.dev t n 0x04 e → GivesDev (.loop t n) s fun d =>
    nth 0 (thr d n).lc (a % 4) = nth 0 (thr s.dev n).lc (a % 4) - 1 ∧
    (thr d n).step = (if 1 < nth 0 (thr s.dev n).lc (a % 4) then stepAlt w else (thr s.dev n).step + 1) % 4096 ∧
    (∀ i, i ≠ a % 4 → nth 0 (thr d n).lc i = nth 0 (thr s.dev n).lc i) ∧ alone d) ∧
  (StepDue s.dev t n 0x05 e → GivesDev (.setcnt t n) s fun d =>
    nth 0 (thr d n).lc (a / 512) = a % 512 ∧ (∀ i, i ≠ a / 512 → nth 0 (thr d n).lc i = nth 0 (thr s.dev n).lc i) ∧ alone d) ∧
  (StepDue s.dev t n 0x06 e → GivesDev (.anchor t n) s fun d =>
    (a % 4 = 0 → (thr d n).anchor = x.now) ∧
    (∀ i, a % 4 = 1 → x.seq.txEndAt = some i → (thr d n).anchor = i) ∧
    (∀ i, a % 4 = 2 → (if n = 3 then x.seq.hfFrameEnd else x.seq.takenEnd) = some i → (thr d n).anchor = i) ∧
    (a % 4 = 3 → tbValid x = true → x.tb.slot = some (buildingSlot x (phaseAt x x.now / 1024)) → (thr d n).anchor = x.tb.slotTick) ∧
    alone d) ∧
  (StepDue s.dev t n 0x07 e → GivesDev (.signal t n) s fun d =>
    (∀ i, i < 8 → d.seq.sw.getLsbD i = if i = a % 8 then decide (a / 8 % 2 = 0) else x.seq.sw.getLsbD i) ∧
    (∀ m, m ≠ n → thr d m = thr x m) ∧ d = { x with seq := { x.seq with thr := d.seq.thr, sw := d.seq.sw } })

/-- R64, R150, R158: SEQ_POST of kind 0 appends a slot-log entry while the log has room and counts a drop when it has none, of kind 1
rings a doorbell of firmware or of the applet, of kind 2 writes a record; PWRADJ sets the offset of the power. -/
def Claims.PostAndAdjust : Prop := ∀ (s : State) (t n : Nat) (e : WaitEnd),
  let x := stepIssued s.dev t n e
  let w := (thr s.dev n).word
  let a := stepArg w
  (StepDue s.dev t n 0x08 e → a / 512 = 0 → x.seq.log.length < 256 → GivesDev (.seqPost t n) s fun d =>
    d.seq.log = x.seq.log ++ [[put 31 30 n ||| put 19 8 (thr s.dev n).step ||| put 7 0 a, nw (x.now - x.seq.onAt), postResult x n, sepResWord x]] ∧
    (n ≠ 0 → d = { x with seq := d.seq }) ∧ d = { x with seq := d.seq, gen2 := d.gen2 }) ∧
  (StepDue s.dev t n 0x08 e → a / 512 = 0 → 256 ≤ x.seq.log.length → GivesDev (.seqPost t n) s fun d =>
    d.seq.log = x.seq.log ∧ bit (reg d Reg.SEQ_EVENT) 8 = true ∧
    fld (reg d Reg.SEQ_LOG_STAT) 31 16 = min 0xFFFF (fld (reg x Reg.SEQ_LOG_STAT) 31 16 + 1)) ∧
  (StepDue s.dev t n 0x08 e → a / 512 = 1 → a % 256 < 0x80 → GivesDev (.seqPost t n) s fun d =>
    d.seq.bells = x.seq.bells ++ [(n, a % 256)] ∧ d.regs = x.regs) ∧
  (StepDue s.dev t n 0x08 e → a / 512 = 1 → 0x80 ≤ a % 256 → GivesDev (.seqPost t n) s fun d =>
    d.cpu.apl.bells = x.cpu.apl.bells ++ [a % 256] ∧ d.seq.bells = x.seq.bells ∧ d.regs = x.regs) ∧
  (StepDue s.dev t n 0x08 e → a / 512 = 2 → 4 ≤ a % 32 → RoomFor x (a % 32) 5 → GivesDev (.seqPost t n) s fun d =>
    (thr d n).toFetch = true ∧ WithRecord x { d with seq := x.seq } (a % 32) 0x0003
      [put 31 30 n ||| put 11 0 (thr s.dev n).step, nw (x.now - x.seq.onAt), stampL x, postResult x n, sepResWord x]) ∧
  (StepDue s.dev t n 0x14 e → GivesDev (.pwradj t n) s fun d =>
    d.uhf.adj = toSigned 8 (a % 256) ∧ d.uhf.power = powerClamp (x.uhf.base + toSigned 8 (a % 256)) ∧
    d = { x with uhf := { x.uhf with adj := d.uhf.adj, power := d.uhf.power }, seq := { x.seq with thr := d.seq.thr }, tb := d.tb })

/-- R144, R150, R153, R256: SEQ_HALT ends the thread with its code and `SEQ_EVENT` bit n, and closes the windows it opened; on H
the HF window closes. SEQ_RXCLOSE closes the windows of thread A or B. -/
def Claims.HaltAndClose : Prop := ∀ (s : State) (t n : Nat) (e : WaitEnd),
  let x := stepIssued s.dev t n e
  let w := (thr s.dev n).word
  (StepDue s.dev t n 0x01 e → GivesDev (.seqHalt t n) s fun d =>
    (thr d n).st = .halted ∧ (thr d n).code = stepArg w % 256 ∧ bit (reg d Reg.SEQ_EVENT) n = true ∧
    (∀ b v, (chain d b).win = some v → v.thr ≠ n) ∧ (n = 3 → d.hf.win = none) ∧ (n = 0 → d.uhf.adj = 0) ∧
    (∀ m, m ≠ n → thr d m = thr x m)) ∧
  (StepDue s.dev t n 0x21 e → (n = 1 ∨ n = 2) → GivesDev (.seqRxclose t n) s fun d =>
    (thr d n).st = .waiting ∧ (thr d n).toFetch = true ∧ (∀ b v, (chain d b).win = some v → v.thr ≠ n) ∧
    (∀ b v, (chain x b).win = some v → v.thr ≠ n → (chain d b).win = some v) ∧ (∀ m, m ≠ n → thr d m = thr x m))

/-- R147-R149: WAIT_TIME_EXPIRY, WAIT_FLAG_TRUE, WAIT_FLAG_TIMEOUT and WAIT_SLOT issue the step whose wait ends (a NOP here): a DELAY
or AFTER by its time, a flag wait by its flag or, with TIMEOUT set, by its TIME, and a SLOT wait by its slot. -/
def Claims.WaitRows : Prop := ∀ (s : State) (t n : Nat) (e : WaitEnd), StepDue s.dev t n 0x00 e →
  let w := (thr s.dev n).word
  let d := branch n (stepIssued s.dev t n e)
  ((stepWk w = 1 ∨ stepWk w = 2) → Does (.waitTimeExpiry t n) s d ∧ (thr d n).late = e.late) ∧
  ((stepWk w = 3 ∨ stepWk w = 5) → e.timeout = false → Does (.waitFlagTrue t n) s d ∧ (thr d n).timeout = false) ∧
  ((stepWk w = 3 ∨ stepWk w = 5) → e.timeout = true → Does (.waitFlagTimeout t n) s d ∧ (thr d n).timeout = true) ∧
  (stepWk w = 4 → Does (.waitSlot t n) s d)

/-- R145, R149, R463: STEP_FETCH: a thread fetches its step from the table in force in its fetch tick; a step with an assigned action
and valid fields is taken as it stands. A corrected error is counted in `SEQ_EVENT` bit 9; an uncorrectable one faults the thread with
code 0x39. -/
def Claims.StepFetch : Prop := ∀ (s : State) (t n : Nat), n < 4 →
  let x := tick t s.dev
  (thr x n).st = .waiting → (thr x n).toFetch = true → (thr x n).fetchAt ≤ t → (thr x n).op = none → (∀ o ∈ x.ops, o.pend = .none) →
  x.chA.satRuns < 3 → x.chB.satRuns < 3 →
  let w := tabStep x (thr x n).step
  (stepFault w n = none → ¬ (n = 0 ∧ stepWk w = 4) → ∀ c : EccRead, c ≠ .bad → GivesDev (.stepFetch t n c) s fun d =>
    thr d n = { thr x n with word := w, fetchAt := x.now, toFetch := false } ∧ (∀ m, m ≠ n → thr d m = thr x m) ∧
    bit (reg d Reg.SEQ_EVENT) 9 = (bit (reg x Reg.SEQ_EVENT) 9 || c == .fixed) ∧
    d = { x with seq := { x.seq with thr := d.seq.thr }, regs := d.regs, marks := d.marks } ∧ RegsBut [Reg.SEQ_EVENT] x d) ∧
  GivesDev (.stepFetch t n .bad) s fun d => (thr d n).st = .fault ∧ (thr d n).code = 0x39 ∧ bit (reg d Reg.SEQ_EVENT) 4 = true

/-- R159, R161: ABORT_TAKE_HOLD: a pending cancel takes hold of a thread at its abort point, which halts; a suspend leaves it
SUSPENDED at its step. -/
def Claims.AbortTakesHold : Prop := ∀ (s : State) (t n : Nat), n < 4 →
  let x := tick t s.dev
  (abortHere n x = true → (∀ o ∈ x.ops, o.pend = .none) → x.chA.satRuns < 2 → x.chB.satRuns < 2 →
    GivesDev (.abortTakeHold t n) s fun d =>
      (thr d n).st = (if (thr x n).abort = .cancel then .halted else .suspended) ∧ (thr d n).step = (thr x n).step ∧
      (thr d n).abort = .none ∧ (∀ b v, (chain d b).win = some v → v.thr ≠ n) ∧ (∀ m, m ≠ n → thr d m = thr x m)) ∧
  (abortHere n x = false → Does (.abortTakeHold t n) s x)

/-- R151, R152, R75, R254: RADIO, HOP, AERIAL and TXF of thread U, HFFIELD, HFTX, HFRX and HFCLOSE of thread H, and RXOPEN, past their
gates: each takes the effect of its action and goes on by BR. `actIssued` is what an issue does ahead of its gates. -/
def Claims.GatedActions : Prop := ∀ (s : State) (t n : Nat) (e : WaitEnd),
  let w := (thr s.dev n).word
  let x := actIssued w (stepIssued s.dev t n e)
  let past := sendBad x w = false ∧ gateAt x n w = none ∧ gateRefusal x w = none ∧ x.pmu.vpa = true ∧ x.uhf.gntOff ≠ some x.now
  let y := updThr n (fun z => { z with refused := false }) x
  let y := if n = 0 then { y with uhf := { y.uhf with heldAt := none } } else y
  let fin := fun (d : Dev) => noiseAfter n (stepFound s.dev t n) (branch n d)
  (StepDue s.dev t n 0x10 e → n = 0 → stepArg w % 8 ≠ 3 → Does (.radio t n) s (fin (actRadio n x))) ∧
  (StepDue s.dev t n 0x10 e → n = 0 → stepArg w % 8 = 3 → past → Does (.radio t n) s (fin (actRadio n y))) ∧
  (StepDue s.dev t n 0x11 e → n = 0 → past → Does (.hop t n) s (fin (actHop n (x.uhf.heldAt.getD x.now) y))) ∧
  (StepDue s.dev t n 0x12 e → n = 0 → actGated x w = false → aerialRefusal x (stepArg w % 16) = none →
    Does (.aerial t n) s (fin (actAerial n x))) ∧
  (StepDue s.dev t n 0x12 e → n = 0 → actGated x w = true → past → Does (.aerial t n) s (fin (actAerial n y))) ∧
  (StepDue s.dev t n 0x13 e → n = 0 → past → Does (.txf t n) s (fin (actTxf n y))) ∧
  (StepDue s.dev t n 0x20 e → (n = 1 ∨ n = 2) → (replyDesc x (stepArg w % 16)).isSome → rxopenRefused x = false → rxopenHeld x n = false →
    x.uhf.gntOff ≠ some x.now → Does (.rxopen t n) s (calStopFor false (fin (actRxopen n y)))) ∧
  (StepDue s.dev t n 0x31 e → n = 3 → past → Does (.hftx t n) s (fin (actHftx n y))) ∧
  ((∀ r, (tick t s.dev).cal.run = some r → r.id ≠ 3) →
    (StepDue s.dev t n 0x30 e → n = 3 → stepArg w % 4 = 0 → Does (.hffield t n 0) s (fin (hfFieldOff x))) ∧
    (StepDue s.dev t n 0x30 e → n = 3 → stepArg w % 4 = 1 → past → bit (cfg x Reg.HF_CFG) 4 = false → x.hf.field = 0 →
      Does (.hffield t n 0) s (fin (hfFieldOn { y with hf := { y.hf with ext := false } }))) ∧
    (StepDue s.dev t n 0x32 e → n = 3 → x.hf.txBusy = false → Does (.hfrx t n) s (fin (actHfrx n x)))) ∧
  (StepDue s.dev t n 0x33 e → n = 3 → Does (.hfclose t n) s (fin (hfCloseWin false x)))

/-- R60, R62, R65, R72, R75, R174, R175, R245, R251: what those actions do. A hop takes its entry, restarts the dwell count, drops lock
and waits for it; RADIO sets out for its target; AERIAL with no RF on the port drives the throw and starts the settle wait; TXF drops
TX_END, keeps the bits it sends and moves to TX; HFFIELD takes the level of `HF_DRV`; HFTX drops HF_TX_END and keeps the bits it sends;
RXOPEN and HFRX open windows of the descriptor asked for. -/
def Claims.ActionEffects : Prop := ∀ (d : Dev) (n : Nat),
  let a := stepArg (thr d n).word
  let at_ := max d.now d.uhf.rfEnd + 4 * fld (cfg d Reg.UHF_SW_CFG) 15 8
  (∀ k i, radioDown d = false → (startHop k i d).uhf.entry = some k ∧ (startHop k i d).uhf.lock = false ∧
    (startHop k i d).uhf.dwell = false ∧ (startHop k i d).uhf.dwellAcc = 0 ∧ (startHop k i d).uhf.hopAt = some i ∧
    ∃ m, (startHop k i d).uhf.move = some m ∧ m.waitLock = true ∧ m.hop = some k) ∧
  (radioDown d = false → NoWindows d → ∃ m, (actRadio n d).uhf.move = some m ∧ m.target = radioOf (a % 8)) ∧
  (carriesRf d = false → (actAerial n d).uhf.aerial = a % 16 ∧
    (if 8 ≤ a % 16 then (actAerial n d).uhf.throwB = a % 16 - 8 ∧ (actAerial n d).uhf.settleB = at_
     else (actAerial n d).uhf.throwA = a % 16 ∧ (actAerial n d).uhf.settleA = at_)) ∧
  (radioDown d = false → NoWindows d → (actTxf n d).seq.txEnd = false ∧ (actTxf n d).uhf.txBits = txFrame d (a / 32 % 64) (a / 2 % 4) ∧
    (actTxf n d).uhf.lastBuf = a / 32 % 64 ∧ ∃ m, (actTxf n d).uhf.move = some m ∧ m.target = .tx) ∧
  ((hfFieldOn d).hf.field = 1 ∧ (hfFieldOn d).hf.level = hfLevel (fld (cfg d Reg.HF_DRV) 5 0) ∧ (hfFieldOff d).hf.field = 0) ∧
  ((actHftx n d).hf.txBusy = true ∧ (actHftx n d).hf.txEnd = false ∧ (actHftx n d).hf.win = none ∧
    (actHftx n d).hf.txBits = hfFrameBits d (a / 32 % 64)) ∧
  (∀ w, (n = 1 ∨ n = 2) → replyDesc d (a % 16) = some w → bit (thr d n).word 6 = false → chainDead d (n == 2) = false → NoWindows d →
    (d.uhf.st = .rxCw ∨ d.uhf.st = .rxListen) → d.uhf.move = none →
    ∃ v, (chain (actRxopen n d) (n == 2)).win = some v ∧ v.thr = n ∧ v.desc = w) ∧
  (a % 16 < 15 → ∃ v, (actHfrx n d).hf.win = some v ∧ v.desc = cfg d (Reg.HF_RDESC_0 + a % 16))

/-- R174, R175: the frame of a UHF buffer: LEN bits from bit 31 of word 1 of the buffer on, the 16 bits of INS in place of those at
IPOS, and the check code the header names after them. -/
def Claims.UhfFrameBits : Prop := ∀ (d : Dev) (b ins : Nat),
  let h := fbWord d (16 * b)
  let body := (txFrame d b ins).take (fld h 8 0)
  fld h 8 0 ≤ 480 → (ins = 0 ∨ fld h 20 12 + 16 ≤ fld h 8 0) →
  (∀ i, i < fld h 8 0 → insWord d ins = none ∨ i < fld h 20 12 ∨ fld h 20 12 + 16 ≤ i →
    body[i]? = some (bit (fbWord d (16 * b + 1 + i / 32)) (31 - i % 32))) ∧
  (∀ v : BitVec 16, ins ≠ 0 → insWord d ins = some v → ∀ i, i < 16 → body[fld h 20 12 + i]? = some (v.getMsbD i)) ∧
  (txFrame d b ins).length = fld h 8 0 + (if fld h 29 28 = 1 then 5 else if fld h 29 28 = 2 then 16 else 0) ∧
  (fld h 29 28 = 1 → txFrame d b ins = body ++ bitsOf 5 (crc5 body)) ∧
  (fld h 29 28 = 2 → txFrame d b ins = body ++ bitsOf 16 (gen2Crc16 body))

/-- R75, R155: TX_FRAME_END: at the end of a UHF frame the radio is in CW_HOLD and TX_END is set at that tick; with no frame in
progress nothing happens. -/
def Claims.FrameEnd : Prop := ∀ (s : State) (t : Nat),
  let x := tick t s.dev
  (x.uhf.st = .tx → x.uhf.move = none → (∀ n, n < 3 → (thr x n).gate ≠ some .rx) → (∀ o ∈ x.ops, o.pend = .none) →
    x.cal.run = none → GivesDev (.txFrameEnd t) s fun d =>
      d.uhf.st = .cwHold ∧ d.seq = { x.seq with txEnd := true, txEndAt := some x.now } ∧ d.regs = x.regs ∧
      d = { x with uhf := d.uhf, seq := d.seq }) ∧
  (x.uhf.st ≠ .tx ∨ x.uhf.move.isSome = true → Does (.txFrameEnd t) s x)

/-- R151, R152: GATE_PASS: a HELD action is tried at its gates again: one whose gates still hold it stays HELD, one that meets none
issues (an AERIAL with no RF on the port here). -/
def Claims.GatePass : Prop := ∀ (s : State) (t : Nat),
  let x := tick t s.dev
  let w := (thr x 0).word
  (thr x 0).st = .held → stageOk x 1 = true → (thr x 0).abort = .none → (∀ o ∈ x.ops, o.pend = .none) → x.chA.satRuns < 3 →
  x.chB.satRuns < 3 → x.cal.run = none → x.tb.noiseRun = none →
  (stepAct w = 0x12 → carriesRf x = false → aerialRefusal x (stepArg w % 16) = none →
    GivesDev (.gatePass t 0) s fun d => (thr d 0).st = .waiting ∧ (thr d 0).toFetch = true ∧ d.uhf.aerial = stepArg w % 16) ∧
  (stepAct w = 0x10 → stepArg w % 8 = 3 → inSlot x 0 = false →
    GivesDev (.gatePass t 0) s fun d => thr d 0 = { thr x 0 with gate := some .slot } ∧ d.uhf = x.uhf ∧ d.regs = x.regs)

/-- R163, R165, R169, R366: TURN_COMMIT at or after T0 with every thread turn-ready and nothing yet done in its tick: the sets change
roles, the turn is counted and `SEQ_EVENT` says so. TURN_ABANDON: one not committed within TMO of T0 is abandoned and the sets
stay. With no turn armed neither does anything. -/
def Claims.Turns : Prop := ∀ (s : State) (t : Nat),
  let x := tick t s.dev
  (∀ a t0, x.seq.turn = some a → a.armed = true → a.t0 = some t0 →
    (t0 ≤ t → allReady x = true → x.seq.stage = 0 → GivesDev (.turnCommit t) s fun d =>
      d.sel = !x.sel ∧ d.seq.turn = none ∧ d.sys.turns = x.sys.turns + 1 ∧ d.sys.turnTick = some x.now ∧
      bit (reg d Reg.SEQ_EVENT) 5 = true) ∧
    (t < t0 ∨ allReady x = false → Does (.turnCommit t) s x) ∧
    (t0 + turnTmo x ≤ t → GivesDev (.turnAbandon t) s fun d =>
      d.sel = x.sel ∧ d.seq.turn = none ∧ bit (reg d Reg.SEQ_EVENT) 6 = true ∧
      fld (reg d Reg.SEQ_TURN) 31 24 = 0x26 ∧ d.sys.turns = x.sys.turns) ∧
    (t < t0 + turnTmo x → Does (.turnAbandon t) s x)) ∧
  (x.seq.turn = none → Does (.turnCommit t) s x ∧ Does (.turnAbandon t) s x)

/-- R62, R63, R67, R101, R453: DWELL_EXPIRY and PA_LIM raise their flags; REFL_DETECT takes a coupler average to its registers and
moves REFL by the return-loss limit with its hysteresis, while the port carries the carrier; PA_BUCK off its target with the carrier on
is a fault. -/
def Claims.UhfMonitors : Prop := ∀ (s : State) (t : Nat),
  let x := tick t s.dev
  let u := x.uhf
  let m := fld (cfg x Reg.UHF_DWELL_MAX) 15 0
  (m ≠ 0 → 1000 * m ≤ dwellUs x → u.dwell = false → GivesDev (.dwellExpiry t) s fun d =>
    d.uhf = { u with dwell := true } ∧ bit (reg d Reg.UHF_EVENT) 7 = true ∧
    d = { x with uhf := d.uhf, regs := d.regs, marks := d.marks } ∧ RegsBut [Reg.UHF_EVENT] x d) ∧
  (m = 0 ∨ dwellUs x < 1000 * m ∨ u.dwell = true → Does (.dwellExpiry t) s x) ∧
  (∀ lim, domOn x 8 = true → GivesDev (.paLim t lim) s fun d => d.uhf = { u with paLim := lim } ∧
    (lim = true → u.paLim = false → bit (reg d Reg.UHF_EVENT) 8 = true) ∧
    d = { x with uhf := d.uhf, regs := d.regs, marks := d.marks } ∧ RegsBut [Reg.UHF_EVENT] x d) ∧
  (∀ p fwd ref cw, u.carrier = true → u.port = p → fwd < 4096 → ref < 4096 → GivesDev (.reflDetect t p fwd ref cw) s fun d =>
    let rl := fld (cfg x Reg.UHF_CPL_CFG) 13 8
    let a := if p then Reg.UHF_CPL_B_FWD else Reg.UHF_CPL_A_FWD
    reg d a = 0x8000 ||| nw fwd ∧ reg d (a + 1) = 0x8000 ||| nw ref ∧
    (240 ≤ fwd → (fwd : Int) - ref < 8 * rl → (if p then d.uhf.reflB else d.uhf.reflA) = true ∧
      ((if p then u.reflB else u.reflA) = false → bit (reg d Reg.UHF_EVENT) 0 = true)) ∧
    (8 * (rl + 1 : Int) ≤ (fwd : Int) - ref → (if p then d.uhf.reflB else d.uhf.reflA) = false) ∧
    (8 * rl ≤ (fwd : Int) - ref → (fwd : Int) - ref < 8 * (rl + 1 : Int) → d.uhf.reflA = u.reflA ∧ d.uhf.reflB = u.reflB) ∧
    d = { x with uhf := { u with reflA := d.uhf.reflA, reflB := d.uhf.reflB, fwdMeas := d.uhf.fwdMeas }, regs := d.regs, marks := d.marks } ∧
    RegsBut [a, a + 1, Reg.UHF_EVENT] x d) ∧
  (∀ p fwd ref cw, u.carrier = false ∨ u.port ≠ p → Does (.reflDetect t p fwd ref cw) s x) ∧
  (u.carrier = true → Does (.paBuck t) s (raiseFault 0x12 blkPa 0 x)) ∧
  (u.carrier = false → Does (.paBuck t) s x)

/-- R69, R73, R93, R410: the pins of the switches and of coexistence: they float with UHF_TX OFF or without their supply, each is active
by its polarity; a switch is enabled unless its port is idle with no enable when idle; COEX_REQ says that a path asks, COEX_PRIO that one
asks with priority. -/
def Claims.FrontEndPins : Prop := ∀ (d : Dev) (p : Bool),
  let c := cfg d Reg.UHF_SW_CFG
  let x := cfg d Reg.UHF_COEX_CFG
  let idle := portIdle d p && !bit c (if p then 1 else 0)
  ((dom d 8).pos = .off ∨ d.pmu.vioB = false → switchEnable d p = none ∧ switchBus d p = none) ∧
  ((dom d 8).pos ≠ .off → d.pmu.vioB = true → switchEnable d p = some (idle == bit c (if p then 3 else 2)) ∧
    switchBus d p = some (BitVec.ofNat 3 (busThrow d p))) ∧
  (d.pmu.vioA = false → coexReqPin d = none ∧ coexPrioPin d = none ∧ gntOn d = false) ∧
  (d.pmu.vioA = true → gntOn d = (d.uhf.gntPin != bit x 5) ∧
    coexReqPin d = some ((d.uhf.coexU.req || d.uhf.coexH.req) != bit x 4) ∧
    coexPrioPin d = some (((d.uhf.coexU.req && d.uhf.coexU.prio) || (d.uhf.coexH.req && d.uhf.coexH.prio)) != bit x 6))

/-- R75, R86, R453: RADIO_TRANSITION_DONE: a transition that is complete leaves the radio in its target; a ramp-up turns the carrier on
and starts both cancellers' search, and checks bias and switch. Before its time, or while it waits for lock, nothing happens. -/
def Claims.RadioTransitions : Prop := ∀ (s : State) (t : Nat),
  let x := tick t s.dev
  (∀ m, x.uhf.move = some m → m.waitLock = false → m.done ≤ t → m.seeded = false →
    let e := moveArrive m x
    Does (.radioTransitionDone t true true) s e ∧
    (m.ramp = true → ∀ ok, Does (.radioTransitionDone t ok false) s
      (raiseFault (if e.uhf.port then 0x19 else 0x18) (blkPort e.uhf.port) e.uhf.aerial e)) ∧
    (m.ramp = true → Does (.radioTransitionDone t false true) s (raiseFault 0x11 blkPa 0 e)) ∧
    e.uhf.st = m.target ∧ (m.hop = none → e.uhf.move = none) ∧
    (m.target = .cwHold → x.uhf.carrier = false → e.uhf.carrier = true ∧ e.uhf.carrierAt = x.now ∧
      ∀ b, (canc e b).st = .acq ∧ (canc e b).ok = false)) ∧
  (∀ m, x.uhf.move = some m → m.waitLock = false → m.done ≤ t → m.seeded = true → m.ramp = false →
    ∀ a b, Does (.radioTransitionDone t a b) s { x with uhf := { x.uhf with move := none } }) ∧
  (∀ m, x.uhf.move = some m → m.waitLock = true ∨ t < m.done → ∀ a b, Does (.radioTransitionDone t a b) s x) ∧
  (x.uhf.move = none → ∀ a b, Does (.radioTransitionDone t a b) s x)

/-- R77, R78, R79: WINDOW_END_RAMPDOWN: the carrier goes down 4 us before the end of thread U's window. LOCK_LOST: when lock is lost it
goes down at once and the loss is a fault. With lock the radio falls back to SYNTH_ON, without it to STANDBY. -/
def Claims.CarrierDown : Prop := ∀ (s : State) (t : Nat),
  let x := tick t s.dev
  let u := x.uhf
  (u.carrier = true → u.move = none → u.lock = true → u.st = .cwHold → NoWindows x → fld (cfg x Reg.UHF_RADIO_CFG) 5 4 ≠ 2 →
    windowLeft x ≤ us 4 → GivesDev (.windowEndRampdown t) s fun d =>
      d.uhf.carrier = false ∧ (∃ m, d.uhf.move = some m ∧ m.target = .synthOn ∧ m.done = x.now + 640) ∧
      d.uhf.rfEnd = x.now + 640 ∧ d.seq = x.seq ∧ d.ops = x.ops) ∧
  (us 4 < windowLeft x → Does (.windowEndRampdown t) s x) ∧
  (u.carrier = false → (∀ m, u.move = some m → m.ramp = false) → windowLeft x ≤ us 4 →
    Does (.windowEndRampdown t) s (coexDrop false true x)) ∧
  (u.carrier = true → u.lock = true → Does (.lockLost t) s (raiseFault 0x10 blkSynth 0 (fieldLossCause 3 (rampDownFast (carrierCut
    (event Reg.UHF_EVENT 2 { x with uhf := { u with lock := false, exchange := false } })))))) ∧
  (u.carrier = false ∨ u.lock = false → Does (.lockLost t) s x) ∧
  (∀ d, NoWindows d → d.uhf.st ≠ .sleep → d.uhf.lock = false → domOn d 8 = true → d.uhf.exchange = true →
    (carrierCut d).uhf.carrier = false ∧ (carrierCut d).uhf.st = .standby ∧ (carrierCut d).uhf.move = none)

/-- R80, R81, R82, R83, R91, R107: LOCK_ACQUIRED ends the lock wait of a transition; LOCK_HOLD_EXPIRY: no lock in time refuses the held
request with SYNTH_NOT_READY; CAL_RESUME: a calibration set aside for a request goes on once there is none and the slot is not thread
U's. -/
def Claims.LockWaits : Prop := ∀ (s : State) (t : Nat),
  let x := tick t s.dev
  let u := x.uhf
  (∀ m, u.move = some m → m.waitLock = true → m.rest ≠ 0 → m.ramp = false → u.heldAt = none → (thr x 0).st ≠ .held →
    (∀ o ∈ x.ops, o.pend = .none) → x.chA.satRuns < 3 → x.chB.satRuns < 3 → GivesDev (.lockAcquired t) s fun d =>
      d.uhf.lock = true ∧ d.uhf.move = some { m with waitLock := false, takeAt := x.now, done := x.now + m.rest } ∧
      d.seq = x.seq ∧ d.regs = x.regs) ∧
  (∀ m, u.move = some m → m.waitLock = true → m.rest = 0 → m.ramp = false → u.heldAt = none → (thr x 0).st ≠ .held →
    (∀ o ∈ x.ops, o.pend = .none) → x.chA.satRuns < 3 → x.chB.satRuns < 3 → GivesDev (.lockAcquired t) s fun d =>
      d.uhf.lock = true ∧ d.uhf.move = none ∧ d.uhf.st = .synthOn) ∧
  (∀ a, u.heldAt = some a → u.hopAt = none → a + lockHold x ≤ x.now → u.lock = false → (thr x 0).st = .held →
    (thr x 0).gate = some .lock → GivesDev (.lockHoldExpiry t) s fun d =>
      (thr d 0).refused = true ∧ (thr d 0).code = 0x20 ∧ (thr d 0).st = .waiting ∧ d.uhf.heldAt = none ∧
      bit (reg d Reg.UHF_EVENT) 1 = true ∧ d.uhf.carrier = u.carrier ∧ ∀ n, n ≠ 0 → thr d n = thr x n) ∧
  (u.heldAt = none → u.hopAt = none → Does (.lockHoldExpiry t) s x) ∧
  (inSlot x 0 = false → u.heldAt = none → Does (.calResume t) s { x with
    cal := { x.cal with run := x.cal.run.map fun r => { r with held := false } } }) ∧
  (inSlot x 0 = true ∨ u.heldAt.isSome = true → Does (.calResume t) s x)

/-- R85, R87, R88, R89: CANC_CONVERGED: a searching canceller whose residual is no higher than THR tracks with its vector and CANC_OK.
CANC_TIMEOUT: one that does not converge in TMO of search says so once and goes on. SEED_CLEAR invalidates every seed. -/
def Claims.Cancellers : Prop := ∀ (s : State) (t : Nat) (b : Bool),
  let x := tick t s.dev
  let c := canc x b
  let thr_ := toSigned 8 (fld (cfg x Reg.UHF_CANC_CFG) 15 8)
  (∀ wi wq r, c.st = .acq → cancFree x b = true → r ≤ thr_ → GivesDev (.cancConverged t b wi wq r) s fun d =>
    (canc d b).st = .track ∧ (canc d b).ok = true ∧ (canc d b).wi = wi ∧ (canc d b).wq = wq ∧ canc d (!b) = canc x (!b) ∧
    d.regs = x.regs ∧ d.seq = x.seq) ∧
  (∀ wi wq r, c.st ≠ .acq ∨ cancFree x b = false ∨ thr_ < r → Does (.cancConverged t b wi wq r) s x) ∧
  (c.st = .acq → c.failed = false → us (fld (cfg x Reg.UHF_CANC_CFG) 23 16) ≤ acqTicks x c →
    GivesDev (.cancTimeout t b) s fun d => canc d b = { c with failed := true } ∧ canc d (!b) = canc x (!b) ∧
      bit (reg d Reg.UHF_EVENT) (if b then 4 else 3) = true ∧
      d = { x with uhf := { x.uhf with canc := d.uhf.canc }, regs := d.regs, marks := d.marks } ∧ RegsBut [Reg.UHF_EVENT] x d) ∧
  (c.st ≠ .acq ∨ c.failed = true ∨ acqTicks x c < us (fld (cfg x Reg.UHF_CANC_CFG) 23 16) → Does (.cancTimeout t b) s x) ∧
  (∀ r, s.tagm.hostW = none → domPower x 8 = .on → GivesDev (.seedClear t r) s fun d =>
    d.uhf = { x.uhf with seeds := [] } ∧ d = { x with uhf := d.uhf, regs := d.regs } ∧ RegsBut [Reg.UHF_CANC_IDX] x d)

/-- R91, R92, R93: COEX_REQ_LEAD raises a request LEAD before a planned emission; COEX_GRANT takes a grant at once; COEX_HOLD_EXPIRY: no
grant within HOLD of the planned start refuses the action; COEX_WITHDRAW: under YIELD a grant withdrawn takes the carrier down, else
nothing but the grant. -/
def Claims.Coexistence : Prop := ∀ (s : State) (t : Nat),
  let x := tick t s.dev
  let u := x.uhf
  let c := cfg x Reg.UHF_COEX_CFG
  let w := (thr x 0).word
  (∀ i, issueAt x 0 = some i → issueAt x 3 = none → actGated x w = true → listenHop x w = false → coexFor x 0 w = true →
    u.coexU.req = false → i ≤ x.now + us (fld c 15 8) → GivesDev (.coexReqLead t) s fun d =>
      d.uhf.coexU.req = true ∧ i ≤ d.uhf.coexU.planned ∧ d = { x with uhf := { u with coexU := d.uhf.coexU } }) ∧
  (issueAt x 0 = none → issueAt x 3 = none → Does (.coexReqLead t) s x) ∧
  (x.pmu.vioA = true → (thr x 0).st ≠ .held → (thr x 3).st ≠ .held → (∀ o ∈ x.ops, o.pend = .none) → x.chA.satRuns < 3 →
    x.chB.satRuns < 3 → GivesDev (.coexGrant t) s fun d => gntOn d = true ∧
      d = { x with uhf := { u with gntPin := d.uhf.gntPin, gntOff := none } }) ∧
  (x.pmu.vioA = false → Does (.coexGrant t) s x) ∧
  ((thr x 0).st = .held → (thr x 0).gate = some .lock → (thr x 3).st ≠ .held → coexFor x 0 w = true → gntCounts x = false →
    u.lock = true → u.coexU.planned + us (fld c 31 16) ≤ x.now → GivesDev (.coexHoldExpiry t) s fun d =>
      (thr d 0).refused = true ∧ (thr d 0).code = 0x21 ∧ (thr d 0).st = .waiting ∧ bit (reg d Reg.UHF_EVENT) 5 = true ∧
      d.uhf.heldAt = none ∧ (∀ n, n ≠ 0 → thr d n = thr x n)) ∧
  ((thr x 0).st ≠ .held → (thr x 3).st ≠ .held → Does (.coexHoldExpiry t) s x) ∧
  (x.pmu.vioA = true → bit c 3 = false → GivesDev (.coexWithdraw t) s fun d => gntOn d = false ∧
    d = { x with uhf := { u with gntPin := d.uhf.gntPin, gntOff := d.uhf.gntOff } }) ∧
  (x.pmu.vioA = true → bit c 3 = true → u.carrier = true → coexGated x 0 = true → gntOn x = true → NoWindows x → u.st ≠ .sleep →
    u.lock = false → domOn x 8 = true → x.hf.field = 0 → GivesDev (.coexWithdraw t) s fun d =>
      gntOn d = false ∧ d.uhf.carrier = false ∧ bit (reg d Reg.UHF_EVENT) 6 = true ∧ d.uhf.rfEnd ≤ x.now + 320)

/-- R85, R94, R95: BLANK_INPUT follows its level and polarity and runs its extension from the end of its active level; while it is
active its paths are blanked and their cancellers pause. BLANK_EXT_EXPIRY frees them again. -/
def Claims.Blanking : Prop := ∀ (s : State) (t : Nat) (which : Bool),
  let x := tick t s.dev
  (∀ level, GivesDev (.blankInput t which level) s fun d =>
    blankLevel d which = (x.pmu.vioA && (level != bit (cfg x Reg.UHF_BLANK_CFG) (if which then 9 else 8))) ∧
    blankLevel d (!which) = blankLevel x (!which) ∧
    (blankLevel x which = true → blankLevel d which = false → (blankIn d which).extEnd = x.now +
      fld (cfg x Reg.UHF_BLANK_CFG) (if which then 31 else 23) (if which then 24 else 16)) ∧
    (∀ b, pathBlanked d (if b then 1 else 0) = true → (canc d b).st ≠ .track) ∧
    d = { x with uhf := d.uhf, chA := d.chA, chB := d.chB, hf := d.hf }) ∧
  ((blankIn x which).extEnd ≤ t → blankLevel x which = false → Does (.blankExtExpiry t which) s (blankFollow x)) ∧
  (t < (blankIn x which).extEnd ∨ blankLevel x which = true → Does (.blankExtExpiry t which) s x)

/-- R113, R114: CHAIN_RUN and CHAIN_STOP: RUN = 1 is followed by a STOPPED chain one tick later when its selected bank is valid, else
BANK_BAD is set; it withdraws a pending stop. RUN = 0 stops an IDLE chain at once, with its STOPPED event, and a chain that samples after
its window. -/
def Claims.ChainControl : Prop := ∀ (s : State) (t : Nat) (r : Reader) (b : Bool), s.tagm.hostW = none →
  let x := tick t s.dev
  let c := chain x b
  domPower x (if b then 10 else 9) = .on → fenced x (if b then 0x0D else 0x0C) = false →
  (GivesDev (.chainRun t r b) s fun d => (c.st = .stopped → chain d b = { c with runAt := some x.now }) ∧
    (c.st = .sampling → chain d b = { c with stopPend := false }) ∧ (c.st = .idle → chain d b = c) ∧
    bit (reg d (chReg b 3)) 0 = true ∧ chain d (!b) = chain x (!b) ∧ d = { x with chA := d.chA, chB := d.chB, regs := d.regs } ∧
    RegsBut [chReg b 3] x d) ∧
  (GivesDev (.chainStop t r b) s fun d => (c.st = .idle → (chain d b).st = .stopped ∧ bit (reg d (chReg b 1)) 0 = true) ∧
    (c.st = .sampling → chain d b = { c with stopPend := true }) ∧ (c.st = .stopped → chain d b = { c with runAt := none }) ∧
    bit (reg d (chReg b 3)) 0 = false ∧ chain d (!b) = chain x (!b) ∧
    d = { x with chA := d.chA, chB := d.chB, regs := d.regs, marks := d.marks } ∧ RegsBut [chReg b 1, chReg b 3] x d) ∧
  (∀ a u, x.now < u → c.st = .stopped → c.runAt = some a → a ≤ x.now → radioReceives x = false →
    (bankValid c (fld (cfg x (chReg b 8)) 9 8) = true → (chain (tick u x) b).st = .idle) ∧
    (bankValid c (fld (cfg x (chReg b 8)) 9 8) = false → (chain (tick u x) b).st = .stopped ∧ bit (reg (tick u x) (chReg b 1)) 10 = true))

/-- R111, R112: COEF_DATA_ACCESS, the coefficient port: a read shows the word at the pointer; a word goes in while the chain is STOPPED, and
the rest of the memory stays; the pointer moves on. In any other state the word is refused with its event. -/
def Claims.CoefficientPort : Prop := ∀ (s : State) (t : Nat) (r : Reader) (b : Bool), s.tagm.hostW = none →
  let x := tick t s.dev
  let c := chain x b
  let p := chReg b 0x18
  let a := fld (reg x p) 10 0
  domPower x (if b then 10 else 9) = .on →
  (GivesDev (.coefDataAccess t r b none) s fun d => d.rdata = coefWord c a ∧
    fld (reg d p) 10 0 = (a + 1) % 2048 ∧ d = { x with rdata := d.rdata, regs := d.regs } ∧ RegsBut [p] x d) ∧
  (∀ v, a < 0x500 → c.st = .stopped → GivesDev (.coefDataAccess t r b (some v)) s fun d =>
    (∀ i, CMap.get (coefDefault c.stock) (chain d b).coef i = if i = a then v else CMap.get (coefDefault c.stock) c.coef i) ∧
    fld (reg d p) 10 0 = a + 1 ∧ chain d (!b) = chain x (!b) ∧ chain d b = { c with coef := (chain d b).coef } ∧ RegsBut [p] x d) ∧
  (∀ v, a < 0x500 → c.st ≠ .stopped → GivesDev (.coefDataAccess t r b (some v)) s fun d =>
    bit (reg d (chReg b 1)) 9 = true ∧ d = { x with regs := d.regs, marks := d.marks } ∧ RegsBut [chReg b 1] x d)

/-- R104, R106, R124, R125, R137: DETECTOR_BLOCK: in a chain that samples, a stage result that saturates sets its group's SAT event; a
complete block of an enabled detector with unmarked samples shows its level, raises the flag at or over HI with its event, and lets it
fall by the hysteresis; any other block changes no level and no flag. -/
def Claims.Detectors : Prop := ∀ (s : State) (t : Nat) (b : Bool) (k : DetBlock),
  let x := tick t s.dev
  let c := chain x b
  let w := cfg x (chReg b (0x0C + k.det.val))
  let n := (detInput x b k).length
  let lvl := detLevel x b k
  let a := chReg b (0x10 + k.det.val)
  let judged := bit w 31 = true ∧ n = detBlockLen w ∧ detUnmarked x b k.det n ≠ []
  (c.st = .sampling → GivesDev (.detectorBlock t b k) s fun d =>
    (∀ i ∈ k.stages, (stageOut x b i).1.any Prod.snd = true → bit (reg d (chReg b 1)) (stageOut x b i).2 = true) ∧
    (judged → reg d a = put 15 15 1 ||| put 9 0 lvl) ∧
    (judged → fld w 9 0 ≤ lvl → detFlag (chain d b) k.det = true ∧
      (detFlag c k.det = false → bit (reg d (chReg b 1)) (1 + k.det.val) = true)) ∧
    (judged → lvl < fld w 9 0 → lvl + 4 * max 1 (fld w 19 16) ≤ fld w 9 0 → detFlag (chain d b) k.det = false) ∧
    (judged → lvl < fld w 9 0 → fld w 9 0 < lvl + 4 * max 1 (fld w 19 16) → detFlag (chain d b) k.det = detFlag c k.det) ∧
    (¬ judged → reg d a = reg x a ∧ detFlag (chain d b) k.det = detFlag c k.det) ∧
    chain d (!b) = chain x (!b) ∧ d.seq = x.seq ∧ RegsBut [a, chReg b 1] x d) ∧
  (c.st ≠ .sampling → Does (.detectorBlock t b k) s x)

/-- R104, R105: the result of a stage is its sum at full precision divided by 2^s to the nearest integer, to even on a tie, and held at
the nearer limit of its width, which counts as saturation; of 16 active slices each takes one sample in 16. -/
def Claims.StageResults : Prop :=
  (∀ (p w : Nat) (v : Int), 0 < w → let r := reduceTo p w v
    (-(2 ^ (w - 1)) ≤ r.1 ∧ r.1 ≤ 2 ^ (w - 1) - 1) ∧
    (r.2 = false → 2 * (v - 2 ^ p * r.1) ≤ 2 ^ p ∧ -(2 ^ p) ≤ 2 * (v - 2 ^ p * r.1)) ∧
    (r.2 = false → 2 * (v - 2 ^ p * r.1) = 2 ^ p ∨ 2 * (v - 2 ^ p * r.1) = -(2 ^ p) → r.1 % 2 = 0) ∧
    (r.2 = true → r.1 = (if v < 0 then -(2 ^ (w - 1)) else 2 ^ (w - 1) - 1))) ∧
  (∀ (c : Chain) (n : Nat), (activeSlices c).length = 16 → sampleSlice c n ∈ activeSlices c ∧ sampleSlice c (n + 16) = sampleSlice c n ∧
    ∀ i ∈ activeSlices c, ∃ k, k < 16 ∧ sampleSlice c k = i)

/-- R108, R119, R120, R123, R130, R131, R180: DRC_LEARN_END: a learn interval ends with the mean of its unmarked samples. FRAME_SYNC: a
preamble with enough SNR, enough unmarked samples and a BLF in range marks the window in sync and loads the resampler, no later than
the window's wait. DIVERSITY_DECIDE takes the chain with the better SNR by its margin, or the only one in sync. -/
def Claims.FramesReceived : Prop := ∀ (s : State) (t : Nat) (b : Bool),
  let x := tick t s.dev
  let c := chain x b
  (∀ e (v : List (Int × Int)), c.learnEnd = some e → c.st = .sampling → e ≤ t → let m := drcMean c e v
    (m.1 * m.1 + m.2 * m.2 ≤ 4294967296 →
      Does (.drcLearnEnd t b v) s (setChain b { c with learnEnd := none, ri := m.1, rq := m.2 } x)) ∧
    (4294967296 < m.1 * m.1 + m.2 * m.2 → GivesDev (.drcLearnEnd t b v) s fun d => bit (reg d (chReg b 1)) 4 = true ∧
      (chain d b).learnEnd = none ∧ chain d (!b) = chain x (!b) ∧ d.seq = x.seq ∧ RegsBut [chReg b 1] x d)) ∧
  (∀ v, c.learnEnd = none ∨ c.st ≠ .sampling ∨ (∃ e, c.learnEnd = some e ∧ t < e) → Does (.drcLearnEnd t b v) s x) ∧
  (∀ w snr blf, c.win = some w →
    (c.st = .sampling → w.synced = false → w.dead = false → syncLate x w = false → fld c.runDec 7 0 ≤ snr →
      blfOk x c blf = true → preambleClear x c blf = true → GivesDev (.frameSync t b snr blf) s fun d =>
      chain d b = { c with win := some { w with synced := true, snr := min 255 snr }, sync := true, blf := blf, syncAt := x.now } ∧
      d.pair = { x.pair with sync := true } ∧ reg d (chReg b 0x13) = putB 31 true ||| put 19 0 blf ∧
      chain d (!b) = chain x (!b) ∧ d.seq = x.seq ∧ RegsBut [chReg b 0x13] x d) ∧
    (c.st ≠ .sampling ∨ w.synced = true ∨ w.dead = true ∨ syncLate x w = true ∨ snr < fld c.runDec 7 0 ∨
      blfOk x c blf = false ∨ preambleClear x c blf = false → Does (.frameSync t b snr blf) s x)) ∧
  (∀ snr blf, c.win = none → Does (.frameSync t b snr blf) s x) ∧
  (let p := bit (cfg x Reg.RXD_DIV_CFG) 8
   let q := windowSnr (chain x (!p))
   x.pair.divDone = false →
    (eligible x.chA = true → eligible x.chB = true → GivesDev (.diversityDecide t) s fun d =>
      d = { x with pair := { x.pair with divDone := true, divB := d.pair.divB, taken := d.pair.divB } } ∧
      (d.pair.divB ≠ p ↔ windowSnr (chain x p) + fld (cfg x Reg.RXD_DIV_CFG) 7 0 ≤ q ∧ windowSnr (chain x p) < q)) ∧
    (eligible (chain x b) = true → eligible (chain x (!b)) = false → Does (.diversityDecide t) s
      { x with pair := { x.pair with divDone := true, divB := b, taken := b } })) ∧
  (x.pair.divDone = true ∨ (eligible x.chA = false ∧ eligible x.chB = false) → Does (.diversityDecide t) s x)

/-- R123, R126, R155, R176, R210, R211: FRAME_DECODED: a chain in sync ends a frame where its descriptor says: DEC_VALID with its bits and
the check of its CRC, TAG_ERR from its header bit and the RN16 of a taken frame; with an erased symbol there is no DEC_VALID. -/
def Claims.FramesDecided : Prop := ∀ (s : State) (t : Nat) (b : Bool) (w : Window) (bits : List Bool) (stages : List StageIn),
  let x := tick t s.dev
  let c := chain x b
  let n := replyLen w.desc bits
  let fr := bits.take n
  c.win = some w →
  (w.synced = true → w.erased = false → c.decValid = false → n ≤ bits.length → GivesDev (.frameDecoded t b bits stages) s fun d =>
    (anyErased x c n = false → (chain d b).decValid = true ∧ (chain d b).frame = fr ∧ (chain d b).crcOk = frameCrcGood w.desc fr ∧
      (chain d b).win.map Window.bits = some fr ∧
      (chainTaken x b w = true → d.seq.tagErr = replyError w.desc fr ∧
        (16 ≤ n → d.gen2.rn16 = some (BitVec.ofNat 16 (natOfBits (fr.take 16))))) ∧
      (chainTaken x b w = false → d.seq = x.seq ∧ d.gen2 = x.gen2)) ∧
    (anyErased x c n = true → (chain d b).decValid = false ∧ (chain d b).win.map Window.erased = some true ∧ d.seq = x.seq ∧
      d.gen2 = x.gen2) ∧
    chain d (!b) = chain x (!b) ∧ d.pair = x.pair ∧ d.ops = x.ops ∧ RegsBut [chReg b 1] x d) ∧
  (w.synced = false ∨ w.erased = true ∨ c.decValid = true ∨ bits.length < n → Does (.frameDecoded t b bits stages) s x)

/-- R132, R133, R134, R141, R453: SEP_DONE: the separation of a window in sync, once no frame of it is still to end, sets its flags, N_EST
by the number of clusters, and SEP_RES with a SINR of 0 for a tag that is absent; a result with bad parity is a fault. -/
def Claims.Separations : Prop := ∀ (s : State) (t : Nat) (res : SepResult),
  let x := tick t s.dev
  let runs := fun (b : Bool) => (chain x b).win.any fun w => sepRuns x w && w.synced
  let n := nEstOf x.pair.sync (clusters res.sigma res.points).length
  (runs false = true ∨ runs true = true → x.pair.sepDone = false → frameOver x.chA = true → frameOver x.chB = true →
    (res.parityOk = true → GivesDev (.sepDone t res) s fun d =>
      d.pair = { x.pair with sepDone := true, nEst := n, sepMulti := decide (2 ≤ n), sepRec := d.pair.sepRec } ∧
      fld (reg d Reg.RXD_SEP_RES) 1 0 = n ∧ bit (reg d Reg.RXD_SEP_RES) 2 = d.pair.sepRec ∧
      (n < 3 → fld (reg d Reg.RXD_SEP_SINR) 23 16 = 0) ∧ (n < 2 → fld (reg d Reg.RXD_SEP_SINR) 15 8 = 0 ∧ d.pair.sepRec = false) ∧
      (d.pair.sepRec = true → d.seq.rnReady = true) ∧ d.seq.thr = x.seq.thr ∧ RegsBut [Reg.RXD_SEP_RES, Reg.RXD_SEP_SINR] x d) ∧
    (res.parityOk = false → Does (.sepDone t res) s (raiseFault 0x26 blkSep 0 x))) ∧
  ((runs false = false ∧ runs true = false) ∨ x.pair.sepDone = true ∨ frameOver x.chA = false ∨ frameOver x.chB = false →
    Does (.sepDone t res) s x)

/-- R187, R190, R197: SLOT_LOG_ENTRY: firmware takes the oldest slot-log entry; one of an empty slot takes C_E from qfp within 16 QMIN and
16 QMAX, and is counted. -/
def Claims.InventoryEntries : Prop := ∀ (s : State) (t : Nat) (r : Option TagRead),
  let x := tick t s.dev
  (x.seq.log = [] → Does (.slotLogEntry t r) s x) ∧
  (∀ (e : List Word) (rest : List (List Word)) (o : Op) (sl : SlotRec) (more : List SlotRec),
    x.seq.log = e :: rest → entryThread e = 0 → (thr x 0).op = some o.tag → findOp x o.tag = some o → o.opcode = 0x300 →
    entryCode e = 0x03 → entryOutcome e = 7 → x.gen2.sent = sl :: more → sl.fslot + 1 < 2 ^ sl.q →
    x.gen2.cutRace = false → x.gen2.stale = false → GivesDev (.slotLogEntry t r) s fun d =>
      d.seq.log = rest ∧ d.gen2.sent = more ∧
      d.gen2.qfp = max (16 * (qMin x : Int)) (min (16 * (qMax x : Int)) (x.gen2.qfp - fld (cfg x Reg.GEN2_QALG) 3 0)) ∧
      reg d 0x533 = setFld (reg x 0x533) 31 0 (min 0xFFFFFFFF ((reg x 0x533).toNat + 1)) ∧
      RegsBut [0x533] x d ∧ d.comb = x.comb ∧ d.seq.thr = x.seq.thr) ∧
  (∀ (e : List Word) (rest : List (List Word)), x.seq.log = e :: rest → (thr x (entryThread e)).op = none →
    Does (.slotLogEntry t r) s { x with seq := { x.seq with log := rest } })

/-- R203, R204, R205, R206: COVER_CODE_PREPARE: the RN16 of a decided reply to Req_RN prepares the covered command. ACCESS_UNIT_JUDGE: a
handle that comes in goes on with the Access pair when there is a password, else with the block. Both set SW5, which the sequencer waits
for. -/
def Claims.AccessUnits : Prop := ∀ (s : State) (t : Nat),
  let x := tick t s.dev
  let c := takenChain x
  (∀ (o : Op) (rn : BitVec 16), x.acc.op = some o.tag → findOp x o.tag = some o → x.gen2.rn16 = some rn → x.uhf.lastBuf = 21 →
    c.decValid = true → c.crcOk = true → x.acc.prepared < x.seq.takenEnd.getD 0 → x.acc.phase = .cover →
    GivesDev (.coverCodePrepare t) s fun d =>
      d.acc = { x.acc with prepared := x.now, phase := .command, working := 0 } ∧ d.seq.sw.getLsbD 5 = true ∧
      d = { x with acc := d.acc, seq := { x.seq with sw := d.seq.sw }, set0 := d.set0, set1 := d.set1 }) ∧
  (x.acc.op = none ∨ x.uhf.lastBuf ≠ 21 ∨ c.decValid = false ∨ c.crcOk = false ∨ x.seq.takenEnd.getD 0 ≤ x.acc.prepared →
    Does (.coverCodePrepare t) s x) ∧
  (∀ (o : Op), x.acc.op = some o.tag → findOp x o.tag = some o → o.st = .running → (∀ p ∈ x.ops, p.pend = .none) →
    x.acc.unitEnd = true → x.acc.lost = false → x.acc.dropped = false → x.acc.phase = .acquire → x.uhf.lastBuf = 21 → c.decValid = true →
    c.crcOk = true → 16 ≤ c.frame.length → GivesDev (.accessUnitJudge t) s fun d =>
      d.acc.handle = some (BitVec.ofNat 16 (natOfBits (c.frame.take 16))) ∧ d.acc.acqTries = 0 ∧ d.acc.unitEnd = false ∧
      d.acc.phase = (if accPassword o = 0 then blockPhase o d.acc else .access) ∧ d.seq.sw.getLsbD 5 = true ∧
      d = { x with acc := d.acc, seq := { x.seq with sw := d.seq.sw }, set0 := d.set0, set1 := d.set1 }) ∧
  (x.acc.op = none ∨ x.acc.unitEnd = false → Does (.accessUnitJudge t) s x)

/-- R230: SWEEP_VISIT: the background sweep goes from cell to cell in order, at most SWEEP_RATE in a mains cycle, and begins again after
the last; a cell that is empty is passed. -/
def Claims.SweepVisits : Prop := ∀ (s : State) (t : Nat),
  let x := tick t s.dev
  (sweepRuns x = true → visitsLeft x ≠ 0 → x.comb.sweep = none → cellHome x x.comb.pos = false →
    GivesDev (.sweepVisit t) s fun d =>
      d.comb = { x.comb with pos := (x.comb.pos + 1) % 131072, visits := d.comb.visits, visitCyc := x.tb.cyc } ∧ visitsLeft d + 1 = visitsLeft x ∧ d = { x with comb := d.comb }) ∧
  (sweepRuns x = false ∨ visitsLeft x = 0 → Does (.sweepVisit t) s x)

/-- R236: ROW_SPARE: corrected errors are counted for their row, and at SPARE_THR, or with an uncorrectable one, the row is copied to a
spare, or retired when there is none. -/
def Claims.RowErrors : Prop := ∀ (s : State) (t b : Nat) (l : List Nat),
  let x := tick t s.dev
  x.comb.sparing = none →
  (b < 16384 → x.comb.retired.contains b = false → domOn x 5 = true → fenced x 0x05 = false →
    let n := CMap.get (fun _ => 0) x.comb.fixes b + 1
    let d0 := count Reg.COMB_ECC 15 0 1 { x with comb := { x.comb with fixes := CMap.set (fun _ => 0) x.comb.fixes b n } }
    (n < max 1 (fld (reg x Reg.COMB_CFG) 11 8) → Does (.rowSpare t b []) s d0) ∧
    (max 1 (fld (reg x Reg.COMB_CFG) 11 8) ≤ n → 0 < x.comb.spares → Does (.rowSpare t b []) s
      (raiseFault 0x40 blkComb b (event Reg.COMB_EVENT 3 { d0 with comb := { d0.comb with
        spares := x.comb.spares - 1, sparing := some (b, d0.now + 256), fixes := CMap.del d0.comb.fixes b } }))) ∧
    (l ≠ [] → Does (.rowSpare t b l) s (rowSpare b l (count Reg.COMB_ECC 31 16 l.length x)))) ∧
  (16384 ≤ b ∨ x.comb.retired.contains b = true ∨ domOn x 5 = false ∨ fenced x 0x05 = true → Does (.rowSpare t b l) s x)

/-- R229: presence. A read moves the LAST stamp, counts, and takes a tag on its way in to PRESENT at ARR_N reads. -/
def Claims.Presence : Prop := ∀ (d : Dev) (c : Nat) (pc : Word) (aer rssi phase : Nat), aer < 16 → rssi < 256 → phase < 256 →
  let p := presence c pc aer rssi phase d
  cellW p.1 c 5 = d.tb.cyc.extractLsb' 0 32 ∧ fld (cellW p.1 c 7) 15 8 = phase ∧ bit (cellW p.1 c 4) aer = true ∧
  (p.2.arrive = true → cellPresent p.1 c = true ∧ cellPend p.1 c = false) ∧
  (cellPresent d c = true → cellPend d c = false → cellPresent p.1 c = true ∧ p.2.arrive = false) ∧
  (∀ e w, e ≠ c → w < 8 → cellW p.1 e w = cellW d e w)

/-- R48, R238, R240: EPOCH_ADVANCE adds the whole epochs that have elapsed. DMK_CFG_WRITE: EN takes effect only with a key and is refused
without one, and no-export keeps it on. -/
def Claims.DamaskState : Prop := ∀ (s : State) (t : Nat),
  let x := tick t s.dev
  (let len := epochLen x * 9600000000
   let n := (t - x.dmk.since) / len
   (0 < n → domOn x (coreDom x) = true → GivesDev (.epochAdvance t) s fun d =>
     d.dmk = { x.dmk with epoch := x.dmk.epoch + nw n, since := x.dmk.since + n * len } ∧ d.seq = x.seq ∧
     d.comb = { x.comb with recs := d.comb.recs }) ∧
   (n = 0 ∨ domOn x (coreDom x) = false → Does (.epochAdvance t) s x)) ∧
  (∀ r v, s.tagm.hostW = none → domPower x 5 = .on → GivesDev (.dmkCfgWrite t r v) s fun d =>
    let old := bit (reg x Reg.COMB_DMK_CFG) 0
    (bit v 0 = true → x.dmk.key.isSome = true → bit (reg d Reg.COMB_DMK_CFG) 0 = true) ∧
    (bit v 0 = true → x.dmk.key = none → bit (reg d Reg.COMB_DMK_CFG) 0 = old ∧ bit (reg d Reg.COMB_EVENT) 5 = true) ∧
    (bit v 0 = false → x.dmk.nx = false → bit (reg d Reg.COMB_DMK_CFG) 0 = false) ∧
    (bit v 0 = false → x.dmk.nx = true → bit (reg d Reg.COMB_DMK_CFG) 0 = old ∧ bit (reg d Reg.COMB_EVENT) 5 = true) ∧
    fld (reg d Reg.COMB_DMK_CFG) 31 16 = fld v 31 16 ∧ d = { x with regs := d.regs, marks := d.marks } ∧
    RegsBut [Reg.COMB_DMK_CFG, Reg.COMB_EVENT] x d)

/-- R235: COMB_DUMP_READ gives the word at its pointer, of the cell latched by a read of its word 0, and moves the pointer on.
SWEEP_ROOM_WAIT_END: a sweep that waits for room goes on with its bucket once its ring has it. -/
def Claims.DumpsAndSweeps : Prop := ∀ (s : State) (t : Nat),
  let x := tick t s.dev
  (∀ r, s.tagm.hostW = none → domPower x 5 = .on → GivesDev (.combDumpRead t r) s fun d =>
    let p := fld (reg x Reg.COMB_DUMP_IDX) 19 0
    fld (reg d Reg.COMB_DUMP_IDX) 19 0 = (p + 1) % 2 ^ 20 ∧ RegsBut [Reg.COMB_DUMP_IDX] x d ∧
    (p % 8 = 0 → d.rdata = dumpWord x (cellWords x (p / 8)) 0 ∧ d.comb = { x.comb with latch := some (p / 8, cellWords x (p / 8)) }) ∧
    (p % 8 ≠ 0 → d.comb = x.comb ∧ ∀ ws, x.comb.latch = some (p / 8, ws) → d.rdata = dumpWord x ws (p % 8))) ∧
  (∀ w o, domOn x 5 = true → x.comb.sweep = some w → findOp x w.tag = some o → o.pend = .none → o.failAs = none →
    let b := nextBucket x w.bucket
    let d := updOp o.tag (fun o => { o with progress := nw b }) { x with comb := { x.comb with sweep := some ⟨w.tag, b⟩ } }
    b < 16384 →
    (sweepWaits d o b = true → Does (.sweepRoomWaitEnd t) s d) ∧
    (sweepWaits d o b = false → Does (.sweepRoomWaitEnd t) s (sweepBucket o b (progressRecord { o with progress := nw b } d)))) ∧
  (x.comb.sweep = none ∨ domOn x 5 = false → Does (.sweepRoomWaitEnd t) s x)

/-- R268, R269, R270, R271: LPCD_PING, HFPING: a good ping is shown in `HF_LPCD_LAST` with its distance; under THR it changes nothing of a
card, at THR it makes a candidate of CONF confirming pings; DET falls at THR - HYST; one asked for takes the baseline. One that meets an
external field is skipped. LPCD_CONFIRM_PING: the last confirming ping raises DET with its event, one under THR counts as FALSE. -/
def Claims.LowPowerPings : Prop := ∀ (s : State) (t : Nat) (p : Ping),
  let x := tick t s.dev
  let h := x.hf
  let c := reg x Reg.HF_LPCD_CFG
  let lim := fld (reg x Reg.HF_LPCD_THR) 15 8
  let dist := pingD p.amp.toNat p.phase.toNat (reg x Reg.HF_LPCD_BASE)
  (bit c 31 = true → h.confirm = none → h.lastPing = 0 ∨ h.lastPing + pingInterval x ≤ x.now →
    (PingGood x p → h.det = false → dist < lim → GivesDev (.lpcdPing t p) s fun d => reg d Reg.HF_LPCD_LAST = pingWord x p ∧
      d.hf = { h with pingEnd := d.hf.pingEnd, pingOff := d.hf.pingOff, ext := false, rebase := false, lastPing := x.now } ∧
      d = { x with hf := d.hf, regs := d.regs, cal := d.cal } ∧ RegsBut [Reg.HF_LPCD_LAST, Reg.HF_LPCD_BASE] x d) ∧
    (PingGood x p → h.det = false → lim ≤ dist → fld c 30 28 ≠ 0 → GivesDev (.lpcdPing t p) s fun d =>
      reg d Reg.HF_LPCD_LAST = pingWord x p ∧ d.hf.det = false ∧ d.hf.confirm = some (fld c 30 28) ∧
      d = { x with hf := d.hf, regs := d.regs, cal := d.cal } ∧ RegsBut [Reg.HF_LPCD_LAST, Reg.HF_LPCD_BASE] x d) ∧
    (PingGood x p → h.det = true → GivesDev (.lpcdPing t p) s fun d => reg d Reg.HF_LPCD_LAST = pingWord x p ∧
      d.hf.det = decide (lpcdLow x < dist) ∧ d.hf.confirm = none) ∧
    (PingGood x p → h.rebase = true → h.det = true → GivesDev (.lpcdPing t p) s fun d =>
      reg d Reg.HF_LPCD_BASE = putB 31 true ||| put 23 12 p.phase.toNat ||| put 11 0 p.amp.toNat ∧ d.hf.rebase = false) ∧
    (pingUnit x = true → h.field = 0 → h.win = none → fld (cfg x Reg.HF_RX_CFG) 25 16 ≤ p.ext → GivesDev (.lpcdPing t p) s fun d =>
      fld (reg d Reg.HF_LPCD_CNT) 15 8 = min 255 (fld (reg x Reg.HF_LPCD_CNT) 15 8 + 1) ∧ d.hf.det = h.det ∧
      reg d Reg.HF_LPCD_LAST = reg x Reg.HF_LPCD_LAST)) ∧
  (bit c 31 = false ∨ h.confirm ≠ none → Does (.lpcdPing t p) s x) ∧
  (∀ n, h.confirm = some n → h.pingEnd + us 4979 ≤ x.now → PingGood x p → h.det = false →
    (dist < lim → GivesDev (.lpcdConfirmPing t p) s fun d => d.hf.confirm = none ∧ d.hf.det = false ∧ bit (reg d Reg.HF_EVENT) 4 = true ∧
      d = { x with hf := d.hf, regs := d.regs, cal := d.cal, marks := d.marks } ∧
      RegsBut [Reg.HF_LPCD_LAST, Reg.HF_LPCD_BASE, Reg.HF_EVENT, Reg.HF_LPCD_CNT] x d) ∧
    (lim ≤ dist → 1 < n → GivesDev (.lpcdConfirmPing t p) s fun d => d.hf.confirm = some (n - 1) ∧ d.hf.det = false ∧ d.ops = x.ops) ∧
    (lim ≤ dist → n ≤ 1 → x.ops = [] → reg x Reg.PMU_WAKE_LPCD = 0 → GivesDev (.lpcdConfirmPing t p) s fun d => d.hf.confirm = none ∧
      d.hf.det = true ∧ bit (reg d Reg.HF_EVENT) 5 = true)) ∧
  (h.confirm = none ∨ x.now < h.pingEnd + us 4979 → Does (.lpcdConfirmPing t p) s x) ∧
  (∀ e, StepDue s.dev t 3 0x34 e → PingGood x p → h.confirm = none → h.det = false → dist < lim → x.cal.run = none →
    GivesDev (.hfping t 3 p) s fun d =>
      reg d Reg.HF_LPCD_LAST = pingWord x p ∧ (thr d 3).refused = false ∧ (thr d 3).toFetch = true ∧ d.hf.det = false)

/-- R150, R268, R270: HFPING with the field on is refused; REBASE asks for a new baseline. -/
def Claims.PingRequests : Prop := ∀ (s : State) (t : Nat),
  let x := tick t s.dev
  (∀ e p, StepDue s.dev t 3 0x34 e → x.hf.field ≠ 0 → x.cal.run = none → GivesDev (.hfping t 3 p) s fun d =>
    (thr d 3).refused = true ∧ (thr d 3).code = 0x2A ∧ d.hf = x.hf ∧ ∀ n, n ≠ 3 → thr d n = thr x n) ∧
  (∀ r, s.tagm.hostW = none → domPower x 11 = .on → Does (.rebase t r) s { x with hf := { x.hf with rebase := true } })

/-- R250: the check code that the check unit appends to a frame of a protocol is the one it finds good in a reply, and the parity it
appends to the bytes of a frame it finds good and takes away. -/
def Claims.HfCheckCodes : Prop :=
  (∀ (p : Nat) (bs : List Bool), hfCrcGood p (bs ++ bitsOf 16 (hfCrc p bs)) = true) ∧
  (∀ bs : List Bool, bs.length ≤ 4096 → dropParity 512 (withParity 512 bs) = (bs, false))

/-- R254, R255, R256: HF_TX_END: the end of a frame sets HF_TX_END. In an open window HF_START_OF_FRAME, HF_COLL and HF_WINDOW_TMO leave
their marks while it accepts a frame, a collision only for Type A and ISO/IEC 15693. HF_RX_DATA_READ reads the receive pages. -/
def Claims.HfWindows : Prop := ∀ (s : State) (t : Nat),
  let x := tick t s.dev
  let h := x.hf
  (h.txBusy = true → (thr x 3).gate ≠ some .rx → Does (.hfTxEnd t) s
    { x with hf := { h with txBusy := false, txEnd := true, txEndAt := some x.now } }) ∧
  (h.txBusy = false → Does (.hfTxEnd t) s x) ∧
  (∀ w, h.win = some w →
    (hfAccepts w x = true →
      Does (.hfStartOfFrame t true false) s { x with hf := { h with win := some { w with sof := true } } } ∧
      (∀ f, Does (.hfStartOfFrame t f true) s { x with hf := { h with win := some { w with sof := true, erased := true } } }) ∧
      Does (.hfStartOfFrame t false false) s { x with hf := { h with win := some { w with energy := true } } }) ∧
    (hfAccepts w x = false → ∀ f e, Does (.hfStartOfFrame t f e) s x)) ∧
  (∀ w pos, h.win = some w →
    (fld w.desc 31 28 = 0 ∨ fld w.desc 31 28 = 3 → w.coll = false → w.sof = true ∨ hfAccepts w x = true → Does (.hfColl t pos) s
      { x with hf := { h with coll := true, win := some { w with coll := true, cpos := min 4095 pos, sof := true } } }) ∧
    ((fld w.desc 31 28 ≠ 0 ∧ fld w.desc 31 28 ≠ 3) ∨ w.coll = true → Does (.hfColl t pos) s x)) ∧
  (∀ w e, h.win = some w → w.tmo = some e →
    (w.sof = false → e ≤ x.now → Does (.hfWindowTmo t) s { x with hf := { h with win := some { w with shut := true } } }) ∧
    (w.sof = true ∨ x.now < e → Does (.hfWindowTmo t) s x)) ∧
  (h.win = none → (∀ f e, Does (.hfStartOfFrame t f e) s x) ∧ (∀ pos, Does (.hfColl t pos) s x) ∧ Does (.hfWindowTmo t) s x) ∧
  (∀ r, s.tagm.hostW = none → domPower x 11 = .on → GivesDev (.hfRxDataRead t r) s fun d =>
    d.rdata = memW h.rx (fld (reg x Reg.HF_RX_IDX) 7 0) ∧ fld (reg d Reg.HF_RX_IDX) 7 0 = (fld (reg x Reg.HF_RX_IDX) 7 0 + 1) % 256 ∧
    d = { x with rdata := d.rdata, regs := d.regs } ∧ RegsBut [Reg.HF_RX_IDX] x d)

/-- R250, R253, R255: HF_FRAME_DECODED: the decoded frame sets HF_DEC_VALID, HF_CRC_OK when its CRC-16 and its parity bits are good or not
asked for, and its data bits go to the receive page; an erased bit leaves HF_DEC_VALID at 0. -/
def Claims.HfFrames : Prop := ∀ (s : State) (t : Nat) (raw : List Bool) (w : HfWin),
  let x := tick t s.dev
  let h := x.hf
  let b := if bit w.desc 24 then hfData h.split raw else (raw, false)
  h.win = some w →
  (w.decided = false → w.sof = true ∨ hfAccepts w x = true →
    (GivesDev (.hfFrameDecoded t raw false) s fun d =>
      d.hf.decValid = true ∧ d.hf.crcOk = ((hfCrcGood (fld w.desc 31 28) b.1 || !bit w.desc 25) && !b.2) ∧
      (∀ i, 4 * i < 512 → 32 * i < b.1.length → memW d.hf.rx ((if h.page then 128 else 0) + i) = nth 0 (packBits 129 b.1) i) ∧
      d.hf.win = some { w with sof := true, nbits := min 4095 b.1.length, parBad := w.parBad || b.2, decided := true, good := d.hf.crcOk } ∧
      d = { x with hf := d.hf, seq := { x.seq with hfFrameEnd := d.seq.hfFrameEnd } }) ∧
    (GivesDev (.hfFrameDecoded t raw true) s fun d => d.hf.decValid = h.decValid ∧ d.hf.crcOk = h.crcOk ∧
      d.hf.win = some { w with sof := true, nbits := min 4095 b.1.length, parBad := w.parBad || b.2, erased := true, good := false } ∧
      d = { x with hf := d.hf, seq := { x.seq with hfFrameEnd := d.seq.hfFrameEnd } })) ∧
  (w.decided = true ∨ (w.sof = false ∧ hfAccepts w x = false) → ∀ e, Does (.hfFrameDecoded t raw e) s x)

/-- R245, R246, R248, R259, R453: HF_WINDOW_END: the field goes off at the end of thread H's window, unless an exchange in progress runs on
as an overrun or a card keeps it. HF_OVERRUN_EXPIRY: an overrun past OVR_MAX ends it. HF_LIM: the driver delivers what the supply allows.
HF_DRV: a driver over its current is a fault that takes the field off. -/
def Claims.HfField : Prop := ∀ (s : State) (t : Nat),
  let x := tick t s.dev
  let h := x.hf
  let more := h.txBusy || h.win.isSome || !hfExs h.ac
  (hfWindowLeft x ≤ us 2 → h.field = 1 → h.overrun = none →
    (more = true → GivesDev (.hfWindowEnd t) s fun d => bit (reg d Reg.HF_EVENT) 2 = true ∧
      d.hf = { h with overrun := some (x.now + hfWindowLeft x + us (1000 * fld (cfg x Reg.HF_ISO4_CFG) 31 24)) } ∧
      d = { x with hf := d.hf, regs := d.regs, marks := d.marks } ∧ RegsBut [Reg.HF_EVENT] x d) ∧
    (more = false → hfKeeps x = true → Does (.hfWindowEnd t) s x) ∧
    (more = false → hfKeeps x = false → x.ops = [] → GivesDev (.hfWindowEnd t) s fun d =>
      d.hf.field = 0 ∧ d.hf.cardActive = false ∧ reg d Reg.HF_ISO4_STAT = 0 ∧ d.seq = x.seq)) ∧
  (us 2 < hfWindowLeft x ∨ h.overrun ≠ none ∧ h.field ≠ 0 → Does (.hfWindowEnd t) s x) ∧
  (hfWindowLeft x ≤ us 2 → h.field = 0 → Does (.hfWindowEnd t) s (coexDrop true true x)) ∧
  (∀ e, h.overrun = some e → e ≤ x.now → x.ops = [] → GivesDev (.hfOverrunExpiry t) s fun d =>
    d.hf.field = 0 ∧ d.hf.win = none ∧ d.hf.overrun = none ∧ d.seq = x.seq) ∧
  (h.overrun = none ∨ (∃ e, h.overrun = some e ∧ x.now < e) → Does (.hfOverrunExpiry t) s x) ∧
  (∀ a, h.field ≠ 0 → GivesDev (.hfLim t a) s fun d =>
    d.hf = { h with lim := decide (a < h.level), power := min h.level a } ∧ (a < h.level → h.lim = false → bit (reg d Reg.HF_EVENT) 6 = true) ∧
    d = { x with hf := d.hf, regs := d.regs, marks := d.marks } ∧ RegsBut [Reg.HF_EVENT] x d) ∧
  (∀ a, h.field = 0 → Does (.hfLim t a) s x) ∧
  (h.field ≠ 0 → Does (.hfDrv t) s (hfFieldLost (raiseFault 0x28 blkHf 0 x))) ∧
  (h.field = 0 → Does (.hfDrv t) s x)

/-- R260, R261, R264, R265, R266, R267: HF_AC_CHOICE: what firmware does once its table has posted the end of an exchange. A collision
adds its bits and PICK to those known until ITER is used up; a cascade goes one level on; Type B repeats with twice the slots; the last
block of a response toggles the block number and completes the command; a granted wait is kept for the window. -/
def Claims.HfChoices : Prop := ∀ (s : State) (t : Nat),
  let x := tick t s.dev
  let a := x.hf.ac
  let c := cfg x Reg.HF_AC_CFG
  let bits := hfReply x
  let next := fun (d : Dev) (b : AcState) => d.hf.ac = { b with area := !a.area, unitEnd := false } ∧ d.ops = x.ops ∧ d.seq.thr = x.seq.thr
  (hfOp x = none ∨ a.unitEnd = false → Does (.hfAcChoice t) s x) ∧
  (∀ o : Op, hfOp x = some o → a.unitEnd = true → x.hf.overrun = none → o.opcode = 0x500 → x.hf.field = 1 →
    (a.step = .anticoll → hfOut x = 2 → a.iter + 1 < max 1 (fld c 23 16) → GivesDev (.hfAcChoice t) s fun d =>
      next d { a with iter := a.iter + 1, known := a.known ++ bits.take (fld (reg x Reg.HF_RESULT) 31 20) ++ [bit c 0] }) ∧
    (a.step = .anticoll → hfOut x = 2 → max 1 (fld c 23 16) ≤ a.iter + 1 → GivesDev (.hfAcChoice t) s fun d =>
      next d (hfLoop (hfTurn o a.proto) x a) ∧ d.hf.cardActive = false) ∧
    (∀ sak r, a.step = .select → hfOut x = 1 → hfBody x = sak :: r → sak.testBit 2 = true → a.level < 3 → GivesDev (.hfAcChoice t) s fun d =>
      next d { a with step := .anticoll, level := a.level + 1, iter := 0, known := [],
                      uid := a.uid ++ ((hfRead 0 5 a.known).take 4).drop 1 }) ∧
    (a.step = .reqb → a.proto = 2 → hfOut x = 3 → a.slot + 1 = a.slots → a.repeats < fld c 11 8 → GivesDev (.hfAcChoice t) s fun d =>
      next d { a with slot := 0, dirty := false, repeats := a.repeats + 1, slots := min 16 (2 * a.slots) }) ∧
    (a.step = .hold → bit (isoStat x) 0 = true → Does (.hfAcChoice t) s { x with hf := { x.hf with ac := { a with unitEnd := false } } })) ∧
  (∀ (o : Op) (pcb : Nat) (inf : List Nat), hfOp x = some o → a.unitEnd = true → x.hf.overrun = none → o.opcode = 0x501 →
    hfOut x = 1 → hfBody x = pcb :: inf → pcb.testBit 3 = false → a.step = .iblock →
    (pcb &&& 0xF2 = 0x02 → pcb % 2 = blkNum x → apduMore x o a.sent = false → GivesDev (.hfAcChoice t) s fun d =>
      d.hf.ac = { a with area := !a.area, unitEnd := false, step := .over, resp := (a.resp ++ inf).take 4096 } ∧
      reg d Reg.HF_ISO4_STAT = reg x Reg.HF_ISO4_STAT ^^^ 2) ∧
    (pcb &&& 0xF7 = 0xF2 → nth 0 inf 0 % 64 ≠ 0 → GivesDev (.hfAcChoice t) s fun d =>
      let m := min 59 (nth 0 inf 0 % 64)
      next d { a with step := .wtx } ∧ d.hf.wtx = some (min (us 4949000) (fwtTicks x * m)) ∧ bit (reg d Reg.HF_EVENT) 3 = true ∧
      fld (reg d Reg.HF_ISO4_STAT) 15 8 = m))

/-- R276, R277, R281, R288, R293, R295: TAGM_SESSION_START: a session starts as the rail rises through the power-on level, with the stored
configuration in force and a UID that begins 0xE0 and MFR. TAGM_SESSION_END: it ends at the reset level, which releases the lock.
MBOX_LOCK_TIMEOUT: the lock is released 50 ms after the last valid frame. -/
def Claims.TagSessions : Prop := ∀ (s : State) (t vh : Nat), s.tagm.hostW = none →
  let g := s.tagm
  let same : Prop := exec (.mboxLockTimeout t) s = .next { s with dev := tick t s.dev }
  (g.sess = false → vhOn ≤ vh → Gives (.tagmSessionStart t vh) s fun u =>
    u.tagm.sess = true ∧ u.tagm.lock = none ∧ u.tagm.tagSt = .ready ∧ u.tagm.cfgS = g.cfg ∧ u.tagm.uidCfgS = g.uidCfg ∧
    u.tagm.fprotS = g.fprot ∧ fld (u.tagm.uid.extractLsb' 32 32) 31 24 = 0xE0 ∧
    fld (u.tagm.uid.extractLsb' 32 32) 23 16 = fld g.uidCfg 7 0 ∧
    (bit g.cfg 1 = false → u.tagm.uid.extractLsb' 0 48 = Config.serial.extractLsb' 0 48) ∧
    u.tagm.fram = g.fram ∧ u.tagm.recs = g.recs ∧ u.pending = s.pending) ∧
  (g.sess = true ∨ vh < vhOn → exec (.tagmSessionStart t vh) s = .next { s with dev := tick t s.dev }) ∧
  (g.sess = true → vh ≤ vhReset → Gives (.tagmSessionEnd t vh) s fun u =>
    u.tagm.sess = false ∧ u.tagm.lock = none ∧ u.tagm.tagSt = .ready ∧ u.tagm.fram = g.fram ∧ u.tagm.recs = g.recs ∧
    u.pending = s.pending) ∧
  (g.sess = false ∨ vhReset < vh → exec (.tagmSessionEnd t vh) s = .next { s with dev := tick t s.dev }) ∧
  (∀ e, g.lock = some e →
    (e + us 50000 ≤ t → Gives (.mboxLockTimeout t) s fun u =>
      u.tagm = { g with lock := none, reported := u.tagm.reported } ∧ u.pending = s.pending) ∧
    (t < e + us 50000 → same)) ∧
  (g.lock = none → same)

/-- R279, R280, R283: the requests that write nothing, each with its answer: INVENTORY_15693, STAY_QUIET, SELECT_15693, RESET_TO_READY,
GET_SYSTEM_INFORMATION, READ_SINGLE_BLOCK, READ_MULTIPLE_BLOCKS, GET_MULTIPLE_BLOCK_SECURITY and UNSUPPORTED_TAG_COMMAND. -/
def Claims.TagRequests : Prop := ∀ (s : State) (f : TagFrame), FrameReaches s f →
  let g := s.tagm
  (∀ (slots : Bool) (mask : List Bool) (afi : Option Byte), g.tagSt ≠ .quiet → maskFits g.uid mask = true → mask.length ≤ (if slots then 60 else 64) →
    afi.all (fun a : Byte => afiFits a.toNat (fld g.cfgS 23 16)) = true →
    Answers (.inventory15693 f slots afi mask) s f ([0x00, BitVec.ofNat 8 (fld g.cfgS 31 24)] ++ uidBytes g.uid)) ∧
  (∀ (slots : Bool) (mask : List Bool) (afi : Option Byte), g.tagSt = .quiet ∨ maskFits g.uid mask = false → exec (.inventory15693 f slots afi mask) s = .next { s with
    dev := tick f.t s.dev
    tagm := { g with vh := if g.sess then min 4095 f.vh5 else g.vh, reply := [] } }) ∧
  (f.mode = .addressed g.uid → exec (.stayQuiet f) s = .next { s with
    dev := tick f.t s.dev
    tagm := { heardBy g f with tagSt := .quiet } }) ∧
  (f.mode = .addressed g.uid → exec (.select15693 f) s = .next { s with
    dev := tick f.t s.dev
    tagm := { heardBy g f with tagSt := .selected, reply := [0x00] } }) ∧
  (tagAddressed g f.mode = true →
    exec (.resetToReady f) s = .next { s with
      dev := tick f.t s.dev
      tagm := { heardBy g f with tagSt := .ready, reply := [0x00] } } ∧
    Answers (.getSystemInformation f) s f ([0x00, 0x0F] ++ uidBytes g.uid ++ [BitVec.ofNat 8 (fld g.cfgS 31 24),
      BitVec.ofNat 8 (fld g.cfgS 23 16), 0xFF, 0x1F, 0x16]) ∧
    (∀ b : Byte, readDenied g b.toNat = true → Gives (.readSingleBlock f b) s fun u => u.tagm.reply = [0x01, 0x15] ∧
      u.tagm.nRefuse = min 0xFF (g.nRefuse + 1) ∧ u.tagm.fram = g.fram ∧ u.pending = s.pending) ∧
    (∀ b : Byte, readDenied g b.toNat = false → Answers (.readSingleBlock f b) s f
      ([0x00] ++ (if f.opt then [secByte g b.toNat] else []) ++ blockBytes g b.toNat)) ∧
    (∀ (b : Byte) n, n ≤ 8 → b.toNat + n ≤ 256 → (∀ i, i < n → readDenied g (b.toNat + i) = false) →
      Answers (.readMultipleBlocks f b n) s f ([0x00] ++ ((List.range n).map (b.toNat + ·)).flatMap fun b =>
        (if f.opt then [secByte g b] else []) ++ blockBytes g b)) ∧
    (∀ (b : Byte) n, 8 < n ∨ 256 < b.toNat + n → Answers (.readMultipleBlocks f b n) s f [0x01, 0x10]) ∧
    (∀ (b : Byte) n, b.toNat + n ≤ 256 → Answers (.getMultipleBlockSecurity f b n) s f
      ([0x00] ++ (List.range n).map fun i => secByte g (b.toNat + i))) ∧
    (∀ (b : Byte) n, 256 < b.toNat + n → Answers (.getMultipleBlockSecurity f b n) s f [0x01, 0x10])) ∧
  (∀ code, tagDirect g f.mode = true → Answers (.unsupportedTagCommand f code) s f [0x01, 0x01])

/-- R283, R286, R287: WRITE_SINGLE_BLOCK: a field write that is not refused and has its supply in every step commits the whole block,
with the next SEQ, and no other block changes; one that loses its supply at the commit leaves every block as it was; one that is refused
writes nothing, is counted and answers error 0x12. -/
def Claims.TagWrites : Prop := ∀ (s : State) (f : TagFrame) (b : Byte) (ws : List Word), FrameReaches s f →
  tagAddressed s.tagm f.mode = true → ws.length = 8 →
  let x := tick f.t s.dev
  (writeRefused s.tagm b.toNat f.t ws = false → writeSupply x f.vh3 = true → collapses f 3 = false → writeSupply x f.vh4 = true →
    collapses f 4 = false → Gives (.writeSingleBlock f b ws) s fun u =>
      blockWords u.tagm b.toNat = ws ∧ (∀ y, y < 256 → y ≠ b.toNat → blockWords u.tagm y = blockWords s.tagm y) ∧
      u.tagm.reply = [0x00] ∧ u.tagm.lock = some f.t ∧ u.tagm.nCommit = min 0xFF (s.tagm.nCommit + 1) ∧
      (∀ i r, curRec s.tagm b.toNat = some (i, r) → ∃ j q, curRec u.tagm b.toNat = some (j, q) ∧ q.seq = r.seq + 1 ∧ q.fld = true) ∧
      u.tagm.cfg = s.tagm.cfg ∧ u.tagm.fprot = s.tagm.fprot ∧ u.pending = s.pending) ∧
  (writeRefused s.tagm b.toNat f.t ws = false → writeSupply x f.vh3 = true → collapses f 3 = false → writeSupply x f.vh4 = false →
    Gives (.writeSingleBlock f b ws) s fun u => (∀ y, y < 256 → blockWords u.tagm y = blockWords s.tagm y) ∧
      u.tagm.recs = s.tagm.recs ∧ u.tagm.lock = some f.t ∧ u.tagm.nCommit = s.tagm.nCommit ∧ u.pending = s.pending) ∧
  (writeRefused s.tagm b.toNat f.t ws = true → Gives (.writeSingleBlock f b ws) s fun u =>
    u.tagm.fram = s.tagm.fram ∧ u.tagm.recs = s.tagm.recs ∧ u.tagm.reply = [0x01, 0x12] ∧
    u.tagm.nRefuse = min 0xFF (s.tagm.nRefuse + 1) ∧ u.pending = s.pending)

/-- R289, R295, R298: TAGM_MB_DATA_READ and TAGM_CONFIG_WRITE: the mailbox port reads the committed words of a block, all of one commit from a read of word 0 on; a
write of a configuration register of the tag stores it, and group 15 stays denied to the field. -/
def Claims.TagPorts : Prop := ∀ (s : State) (t : Nat) (r : Reader), s.tagm.hostW = none → 
  let x := tick t s.dev
  domPower x 0 = .on →
  let i := reg x Reg.TAGM_MB_IDX
  let b := fld i 10 3
  (fld i 2 0 = 0 → Gives (.tagmMbDataRead t r) s fun u => u.dev.rdata = blockWord s.tagm b 0 ∧
    u.tagm = { s.tagm with latch := some (b, blockWords s.tagm b) } ∧ fld (reg u.dev Reg.TAGM_MB_IDX) 10 0 = (fld i 10 0 + 1) % 2048 ∧
    u.dev = { x with rdata := u.dev.rdata, regs := u.dev.regs } ∧ RegsBut [Reg.TAGM_MB_IDX] x u.dev) ∧
  (∀ ws, fld i 2 0 ≠ 0 → s.tagm.latch = some (b, ws) → Gives (.tagmMbDataRead t r) s fun u =>
    u.dev.rdata = nth 0 ws (fld i 2 0) ∧ u.tagm = s.tagm) ∧
  (∀ v, exec (.tagmConfigWrite t r .uidCfg v) s = .next { s with
      dev := x
      tagm := { s.tagm with uidCfg := v &&& 0xFF } } ∧
    exec (.tagmConfigWrite t r .fprot v) s = .next { s with
      dev := x
      tagm := { s.tagm with fprot := v ||| 0x8000 } } ∧
    (4 ≤ fld v 12 8 → exec (.tagmConfigWrite t r .cfg v) s = .next { s with
      dev := x
      tagm := { s.tagm with cfg := v &&& 0xFFFF1F03 } }) ∧
    (fld v 12 8 < 4 → exec (.tagmConfigWrite t r .cfg v) s = .next { s with
      dev := x
      tagm := { s.tagm with cfg := (v &&& 0xFFFF0003) ||| (s.tagm.cfg &&& 0x1F00) } }))

/-- R29, R98, R166, R174, R251, R365: a read of a set-paired memory (PLAN_DATA_ACCESS, UHF_CHAN_DATA_READ, TAB_DATA_H_ACCESS,
FB_DATA_ACCESS, HF_FB_DATA_ACCESS) answers the word of the set asked for at that set's pointer and
moves that pointer on; a plan pointer goes WORD 0-2, then MASK 0-4, then CYC, and shows 0 outside its words. -/
def Claims.MemoryReads : Prop := ∀ (s : State) (t : Nat) (r : Reader) (sh : Bool), s.tagm.hostW = none →
  let x := tick t s.dev
  let c := if sh then shadowSet x else activeSet x
  let p := fun a => reg x (if sh then a + 0x8000 else a)
  let after := fun a v w => { setReg (if sh then a + 0x8000 else a) v x with rdata := w }
  let plan := fld (p 0x099) 3 0 * 15 + fld (p 0x099) 6 4 * 3 + fld (p 0x099) 9 8
  (domPower x 0 = .on → let q := planAdvance (p 0x099)
    Does (.planDataAccess t r sh none) s (after 0x099 q (if fld (p 0x099) 9 8 < 3 ∧ fld (p 0x099) 6 4 < 5 then memW c.plan plan else 0)) ∧
    (fld (p 0x099) 9 8 < 3 → fld (p 0x099) 6 4 < 5 →
      fld q 3 0 * 15 + fld q 6 4 * 3 + fld q 9 8 = (plan + 1) % 240 ∧ fld q 9 8 < 3 ∧ fld q 6 4 < 5)) ∧
  (domPower x 8 = .on → Does (.uhfChanDataRead t r sh) s
    (after 0x307 (put 5 0 (fld (p 0x307) 5 0 + 1)) (memW c.chan (fld (p 0x307) 5 0)))) ∧
  (domPower x 7 = .on → Does (.tabDataHAccess t r sh none) s
    (after 0x488 (put 11 0 (fld (p 0x488) 11 0 + 1)) ((CMap.get tabDefault c.tab (fld (p 0x488) 11 0)).extractLsb' 32 32))) ∧
  (domPower x 7 = .on → Does (.fbDataAccess t r sh none) s
    (after 0x520 (put 9 0 (fld (p 0x520) 9 0 + 1)) (memW c.fb (fld (p 0x520) 9 0)))) ∧
  (domPower x 11 = .on → Does (.hfFbDataAccess t r sh none) s
    (after 0x5E0 (put 10 0 (fld (p 0x5E0) 10 0 + 1)) (memW c.hffb (fld (p 0x5E0) 10 0))))

/-- R29, R59, R166, R174, R251, R365: firmware's write of a shadow memory (the same rows, and CHAN_DATA_WRITE) puts the word at the pointer, which moves on, and nothing
else changes, but reserved bits of a frame header read 0; a table step takes its low word from the write before; a channel entry to the band's outside is refused with its
event; a write to the active set changes nothing. -/
def Claims.MemoryWrites : Prop := ∀ (s : State) (t : Nat) (v : Word), s.tagm.hostW = none →
  let x := tick t s.dev
  let c := shadowSet x
  let p := fun a => reg x (a + 0x8000)
  let after := fun (a : Nat) (q : Word) (c : CfgSet) => setReg (a + 0x8000) q (setShadow c x)
  let chanOk := bit v 31 = false ∨ freqOk (chanFreq c (fld v 11 0)) = true
  (domPower x 0 = .on → fld (p 0x099) 9 8 < 3 → fld (p 0x099) 6 4 < 5 → GivesDev (.planDataAccess t .fw true (some v)) s fun d =>
    (∀ i, memW (shadowSet d).plan i = if i = fld (p 0x099) 3 0 * 15 + fld (p 0x099) 6 4 * 3 + fld (p 0x099) 9 8 then v
      else memW c.plan i) ∧
    d = after 0x099 (planAdvance (p 0x099)) { c with plan := (shadowSet d).plan }) ∧
  (domPower x 8 = .on → chanOk → GivesDev (.chanDataWrite t .fw true v) s fun d =>
    (∀ i, memW (shadowSet d).chan i = if i = fld (p 0x307) 5 0 then v &&& 0x80000FFF else memW c.chan i) ∧
    activeSet d = activeSet x ∧ reg d 0x8307 = put 5 0 (fld (p 0x307) 5 0 + 1) ∧
    (∀ a, a ≠ 0x8307 → reg d a = reg x a) ∧ d = { x with regs := d.regs, set0 := d.set0, set1 := d.set1, uhf := { x.uhf with seeds := d.uhf.seeds } }) ∧
  (domPower x 8 = .on → ¬ chanOk → GivesDev (.chanDataWrite t .fw true v) s fun d => bit (reg d Reg.UHF_EVENT) 9 = true ∧
    reg d 0x8307 = put 5 0 (fld (p 0x307) 5 0 + 1) ∧ d = { x with regs := d.regs, marks := d.marks }) ∧
  (domPower x 7 = .on → GivesDev (.tabDataHAccess t .fw true (some v)) s fun d =>
    (∀ i, CMap.get tabDefault (shadowSet d).tab i = if i = fld (p 0x488) 11 0 then v ++ x.seq.dataL else CMap.get tabDefault c.tab i) ∧
    d = after 0x488 (put 11 0 (fld (p 0x488) 11 0 + 1)) { c with tab := (shadowSet d).tab }) ∧
  (domPower x 7 = .on → GivesDev (.fbDataAccess t .fw true (some v)) s fun d =>
    (∀ i, memW (shadowSet d).fb i = if i = fld (p 0x520) 9 0 then (if i % 16 = 0 then v &&& 0xFF1FF1FF else v) else memW c.fb i) ∧
    d = after 0x520 (put 9 0 (fld (p 0x520) 9 0 + 1)) { c with fb := (shadowSet d).fb }) ∧
  (domPower x 11 = .on → GivesDev (.hfFbDataAccess t .fw true (some v)) s fun d =>
    (∀ i, memW (shadowSet d).hffb i = if i = fld (p 0x5E0) 10 0 then (if hfIsHeader c.hffb i then v &&& 0xFFF80FFF else v) else memW c.hffb i) ∧
    d = after 0x5E0 (put 10 0 (fld (p 0x5E0) 10 0 + 1)) { c with hffb := (shadowSet d).hffb }) ∧
  (∀ i ∈ [Instr.planDataAccess t .fw false (some v), .fbDataAccess t .fw false (some v), .tabDataHAccess t .fw false (some v),
      .chanDataWrite t .fw false v, .hfFbDataAccess t .fw false (some v)],
    domPower x 0 = .on → domPower x 7 = .on → domPower x 8 = .on → domPower x 11 = .on → Does i s x)

/-- R178, R166, R251, R367: a host's write of words that belong to firmware is refused with the bank's event, and any write of a
host's to the shadow set while a turn is armed or a copy runs is refused with SHD_REJ; no word changes either way. -/
def Claims.MemoryRefusals : Prop := ∀ (s : State) (t : Nat) (v : Word) (b : Bool), s.tagm.hostW = none →
  let x := tick t s.dev
  let r := if b then Reader.spiB else Reader.spiA
  let same := fun (d : Dev) (a k : Nat) => bit (reg d a) k = true ∧ d = { x with regs := d.regs, marks := d.marks }
  let held := shadowHeld x r
  (held = false → domPower x 7 = .on → fld (reg x 0x8488) 11 0 < 0x800 →
    GivesDev (.tabDataHAccess t r true (some v)) s (same · Reg.SEQ_EVENT 7)) ∧
  (held = false → domPower x 7 = .on → fld (reg x 0x8520) 9 0 < 512 →
    GivesDev (.fbDataAccess t r true (some v)) s (same · Reg.GEN2_EVENT 3)) ∧
  (held = false → domPower x 11 = .on → fld (reg x 0x85E0) 10 0 < 512 →
    GivesDev (.hfFbDataAccess t r true (some v)) s (same · Reg.HF_EVENT 1)) ∧
  (held = true → domPower x 0 = .on → domPower x 7 = .on → domPower x 8 = .on → domPower x 11 = .on →
    ∀ i ∈ [Instr.planDataAccess t r true (some v), .chanDataWrite t r true v, .tabDataHAccess t r true (some v),
        .fbDataAccess t r true (some v), .hfFbDataAccess t r true (some v)], GivesDev i s (same · Reg.SYS_EVENT 3))

/-- R87, R326, R393, R449, R470: the other memories behind a pointer (CANC_DATA_ACCESS, LINK_M_DATA_ACCESS, CAL_SNR_DATA_READ,
LEDGER_DATA_READ, UC_DATA_H_READ): a read answers the word there and moves the pointer on; a
write of the seed memory or of the master's buffer puts the word there. The SNR pointer goes from 35 to 0, the ledger pointer
from word 4 to the next entry. -/
def Claims.PointerPorts : Prop := ∀ (s : State) (t : Nat) (r : Reader), s.tagm.hostW = none →
  let x := tick t s.dev
  let seed := fld (reg x Reg.UHF_CANC_IDX) 10 0
  let buf := fld (reg x Reg.LINK_M_IDX) 5 0
  let snr := fld (reg x Reg.CAL_SNR_IDX) 5 0
  let e := fld (reg x Reg.SVC_LEDGER_IDX) 15 0
  let w := fld (reg x Reg.SVC_LEDGER_IDX) 18 16
  let uc := fld (reg x Reg.CORE_UC_IDX) 7 0
  let same := fun (d : Dev) => d = { x with rdata := d.rdata, regs := d.regs }
  (domPower x 8 = .on → GivesDev (.cancDataAccess t r none) s fun d => d.rdata = memW x.uhf.seeds seed ∧
    fld (reg d Reg.UHF_CANC_IDX) 10 0 = (seed + 1) % 2048 ∧ same d) ∧
  (∀ v, domPower x 8 = .on → GivesDev (.cancDataAccess t r (some v)) s fun d =>
    (∀ i, memW d.uhf.seeds i = if i = seed then v &&& 0x83FF03FF else memW x.uhf.seeds i) ∧
    fld (reg d Reg.UHF_CANC_IDX) 10 0 = (seed + 1) % 2048 ∧
    d = { x with regs := d.regs, uhf := { x.uhf with seeds := d.uhf.seeds } }) ∧
  (domPower x 2 = .on → GivesDev (.linkMDataAccess t r none) s fun d => d.rdata = memW x.mst.buf buf ∧
    fld (reg d Reg.LINK_M_IDX) 5 0 = (buf + 1) % 64 ∧ same d) ∧
  (∀ v, r ≠ .applet → domPower x 2 = .on → GivesDev (.linkMDataAccess t r (some v)) s fun d =>
    (∀ i, memW d.mst.buf i = if i = buf then v else memW x.mst.buf i) ∧ fld (reg d Reg.LINK_M_IDX) 5 0 = (buf + 1) % 64 ∧
    d = { x with regs := d.regs, mst := { x.mst with buf := d.mst.buf } }) ∧
  (domPower x 12 = .on → GivesDev (.calSnrDataRead t r) s fun d => d.rdata = memW x.cal.snr snr ∧
    fld (reg d Reg.CAL_SNR_IDX) 5 0 = (if 35 ≤ snr then 0 else snr + 1) ∧ same d) ∧
  (domPower x 0 = .on → GivesDev (.ledgerDataRead t r) s fun d => d.rdata = ledgerWord x e w ∧
    fld (reg d Reg.SVC_LEDGER_IDX) 15 0 = (if 4 ≤ w then (e + 1) % 65536 else e) ∧
    fld (reg d Reg.SVC_LEDGER_IDX) 18 16 = (if 4 ≤ w then 0 else w + 1) ∧ same d) ∧
  (domPower x (coreDom x) = .on → GivesDev (.ucDataHRead t r) s fun d =>
    d.rdata = nw ((csWord (coreIn x) uc).toNat / 4294967296) ∧ fld (reg d Reg.CORE_UC_IDX) 7 0 = (uc + 1) % 256 ∧ same d)

/-- R393: UC_DATA_H_WRITE, UC_DEC_WRITE: a host's write of the high word of a control-store entry puts both words there and moves the pointer on; in the span of an
enabled decode entry it is discarded with UC_REJ. A decode entry takes its word unless its span would pass entry 255; firmware's
and an applet's writes of both change nothing. -/
def Claims.ControlStorePort : Prop := ∀ (s : State) (t : Nat) (r : Reader) (v : Word) (n : Fin 16), s.tagm.hostW = none →
  let x := tick t s.dev
  domPower x (coreDom x) = .on →
  let c := coreIn x
  let i := fld (reg x Reg.CORE_UC_IDX) 7 0
  let rejects := fun (j : Instr) => GivesDev j s fun d => bit (reg d Reg.CORE_EVENT) 4 = true ∧ coreIn d = c ∧
    fld (reg d Reg.CORE_UC_IDX) 7 0 = i ∧ d = { x with regs := d.regs, marks := d.marks }
  (r = .spiA ∨ r = .spiB → ucInSpan c i = false → GivesDev (.ucDataHWrite t r v) s fun d =>
    (∀ k, csWord (coreIn d) k = if k = i then (v.extractLsb' 0 16 ++ reg x Reg.CORE_UC_DATA_L) &&& csMask else csWord c k) ∧
    coreIn d = { c with cs := (coreIn d).cs } ∧ fld (reg d Reg.CORE_UC_IDX) 7 0 = (i + 1) % 256 ∧ d.set0 = x.set0 ∧ d.set1 = x.set1) ∧
  (r = .spiA ∨ r = .spiB → ucInSpan c i = true → rejects (.ucDataHWrite t r v)) ∧
  (r = .spiA ∨ r = .spiB → bit v 31 = false ∨ fld v 15 8 + fld v 3 0 ≤ 255 → GivesDev (.ucDecWrite t r n v) s fun d =>
    (∀ k, decWord (coreIn d) k = if k = n.val then v &&& 0xC000FF0F else decWord c k) ∧ coreIn d = { c with dec := (coreIn d).dec } ∧
    d = { x with cpu := d.cpu }) ∧
  (r = .spiA ∨ r = .spiB → bit v 31 = true → 255 < fld v 15 8 + fld v 3 0 → rejects (.ucDecWrite t r n v)) ∧
  (r = .fw ∨ r = .applet → Does (.ucDataHWrite t r v) s x ∧ Does (.ucDecWrite t r n v) s x)

/-- A register whose write does nothing but store it: a write of it reaches no command and no port. -/
def PlainRegister (r : Reader) (a : Nat) : Prop :=
  portPointer a = none ∧ pointerMask a = none ∧ ∀ v u, writeActs r a v u = none

/-- R11, R12, R358, R362, R363, R367: GENERIC_REGISTER_WRITE: a write of a plain register of a bank that is ON takes the RW fields, clears the W1C bits written
1, and leaves every other bit and register; on a bank in RET or OFF it is discarded and `SYS_EVENT` tells; at a shadow address the
set-paired fields go to the shadow set and the set in force stays; an address with no register takes nothing. -/
def Obligations.RegisterWrites : Prop := ∀ (s : State) (t : Nat) (r : Reader) (sh : Bool) (addr : BitVec 13) (v : Word),
  let a := addr.toNat
  let i := regInfo a
  let y := tick t s.dev
  a < 0x800 → s.tagm.hostW = none → (r = .applet → appletBarred a = false) →
  (regDefined a = false → Does (.genericRegisterWrite t r sh addr v) s y) ∧
  (regDefined a = true → domPower y (bankDomain y a) ≠ .on → GivesDev (.genericRegisterWrite t r sh addr v) s fun d =>
    (∀ k, reg d k = if k = Reg.SYS_EVENT then reg y k ||| 16#32 else reg y k) ∧
    d = { y with regs := d.regs, marks := d.marks }) ∧
  (regDefined a = true → domPower y (bankDomain y a) = .on → PlainRegister r a → sh = false →
    CMap.get (fun _ => 0) (tickMarks y).ev a = 0 → GivesDev (.genericRegisterWrite t r sh addr v) s fun d =>
    (∀ k, bit i.w1c k = true → bit i.rw k = false → bit (reg d a) k = (bit (reg y a) k && !bit v k)) ∧
    (∀ k, bit i.w1c k = false → bit (reg d a) k = if bit i.rw k then bit v k else bit (reg y a) k) ∧
    RegsBut [a] y d ∧ d = { y with regs := d.regs }) ∧
  (regDefined a = true → domPower y (bankDomain y a) = .on → portPointer a = none → pointerMask a = none → sh = true → r = .fw →
    a ≠ Reg.TIME_PLAN_CFG → a ≠ Reg.HF_CFG → i.sp ≠ 0 → GivesDev (.genericRegisterWrite t r sh addr v) s fun d =>
    (∀ k, cfgOf (shadowSet d) k = if k = a then (cfgOf (shadowSet y) k &&& ~~~ i.sp) ||| (v &&& i.sp) else cfgOf (shadowSet y) k) ∧
    d = setShadow { shadowSet y with regs := (shadowSet d).regs } y)

/-- R360: LATCHED_PAIR_READ: a read of the low register of a latched pair keeps the high word for its reader; a read of the high register answers the
word kept and changes nothing else. -/
def Claims.LatchedPairs : Prop := ∀ (s : State) (t : Nat) (r : Reader) (addr : BitVec 13), s.tagm.hostW = none →
  let x := tick t s.dev
  regDefined addr.toNat = true → domPower x (bankDomain x addr.toNat) = .on →
  (∀ pair h, latchLow x addr.toNat = some (pair, h) → GivesDev (.latchedPairRead t r addr) s fun d =>
    memW d.sys.latches (latchKey pair r) = h ∧ (∀ k, k ≠ latchKey pair r → memW d.sys.latches k = memW x.sys.latches k) ∧
    (addr = 0x88 → d.rdata = x.tb.cyc.extractLsb' 0 32 ∧ h = nw (x.tb.cyc.toNat / 4294967296)) ∧
    d = { x with rdata := d.rdata, sys := { x.sys with latches := d.sys.latches } }) ∧
  (∀ pair, latchHigh addr.toNat = some pair → GivesDev (.latchedPairRead t r addr) s fun d =>
    d = { x with rdata := memW x.sys.latches (latchKey pair r) })

/-- R368: SET_COPY starts a copy of 60 us unless a turn is armed or a copy runs, which sets SHD_REJ. COPY_DONE: at its end the shadow
set holds what the active set holds, a turn that waited is armed, and no register changes but the event. -/
def Claims.SetCopies : Prop := ∀ (s : State) (t : Nat) (r : Reader),
  let x := tick t s.dev
  (s.tagm.hostW = none → domPower x 0 = .on → r ≠ .applet →
    (x.seq.turn = none → x.sys.copyEnd = none → Does (.setCopy t r) s { x with sys := { x.sys with copyEnd := some (x.now + 9600) } }) ∧
    (x.seq.turn.isSome = true ∨ x.sys.copyEnd.isSome = true → GivesDev (.setCopy t r) s fun d =>
      bit (reg d Reg.SYS_EVENT) 3 = true ∧ d = { x with regs := d.regs, marks := d.marks } ∧ RegsBut [Reg.SYS_EVENT] x d)) ∧
  (s.tagm.hostW = none → r = .applet → Does (.setCopy t r) s x) ∧
  (∀ e, x.sys.copyEnd = some e →
    (e ≤ x.now → GivesDev (.copyDone t) s fun d =>
      shadowSet d = activeSet x ∧ activeSet d = activeSet x ∧ bit (reg d Reg.SYS_EVENT) 2 = true ∧ RegsBut [Reg.SYS_EVENT] x d ∧
      (∀ a, x.seq.turn = some a → ∃ b, d.seq.turn = some b ∧ b.armed = true) ∧ (x.seq.turn = none → d.seq = x.seq) ∧
      d = setShadow (activeSet x) { x with regs := d.regs, marks := d.marks, sys := { x.sys with copyEnd := none }, seq := d.seq }) ∧
    (x.now < e → Does (.copyDone t) s x)) ∧
  (x.sys.copyEnd = none → Does (.copyDone t) s x)

/-- R374, R458, R477: SYS_CTRL_SAFE, SOFT_RESET: `SYS_CTRL` without its key does nothing, and an applet may not write it. SAFE enters the safe state: no carrier, no HF field, every thread
halted. RESET empties operations, rings and both sets and makes the first set active; the timebase, the keeping store and the
scratch registers stay, and the cause is noted. -/
def Claims.SystemControl : Prop := ∀ (s : State) (t : Nat) (r : Reader) (v : Word), s.tagm.hostW = none →
  let x := tick t s.dev
  (r = .applet → Does (.sysCtrlSafe t r v) s x ∧ Does (.softReset t r v) s x) ∧
  (domPower x 0 = .on → r ≠ .applet →
  (fld v 31 24 ≠ 0xA5 → Does (.sysCtrlSafe t r v) s x ∧ Does (.softReset t r v) s x) ∧
  (fld v 31 24 = 0xA5 → bit v 0 = false → x.svc.safe = false → GivesDev (.sysCtrlSafe t r v) s fun d =>
    d.svc.safe = true ∧ d.uhf.carrier = false ∧ d.hf.field = 0 ∧ (∀ n, n < 4 → (thr d n).st = .halted) ∧
    bit (reg d Reg.SVC_EVENT) 3 = true ∧ bit (reg d Reg.SYS_EVENT) 1 = true ∧ fld d.svc.safeCause 15 8 = 0x62 ∧ fld d.svc.safeCause 7 0 = 0) ∧
  (fld v 31 24 = 0xA5 → bit v 1 = false → GivesDev (.softReset t r v) s fun d =>
    d.ops = [] ∧ d.held = [] ∧ d.set0 = CfgSet.reset ∧ d.set1 = CfgSet.reset ∧ d.sel = false ∧ d.sys.ready = false ∧ d.sys.stage = 3 ∧
    d.rings = (List.range 32).map Ring.reset ∧ d.tb = x.tb ∧ d.dmk = x.dmk ∧ d.svc = { x.svc with test := none } ∧
    bit (reg d Reg.SYS_RST_CAUSE) 3 = true ∧ (∀ i, i < 4 → reg d (Reg.SYS_SCRATCH_0 + i) = reg x (Reg.SYS_SCRATCH_0 + i)) ∧
    (∀ n, 0 < n → n < 13 → (dom d n).pos = .off)))

/-- R413, R414, R420, R421: PMU_MODE_WRITE: for each domain 1-12 its field of a `PMU_MODE` write asks for RET or OFF, which waits, or wakes it at once;
a field 3 changes nothing, and no other domain moves. -/
def Claims.ModeWrites : Prop := ∀ (s : State) (t : Nat) (r : Reader) (v : Word), s.tagm.hostW = none →
  let x := tick t s.dev
  domPower x 0 = .on → r ≠ .applet → GivesDev (.pmuModeWrite t r v) s fun d =>
  (∀ n, 0 < n → n < 13 →
    let code := fld v (2 * n + 1) (2 * n)
    let p := dom x n
    (code = 3 → dom d n = p) ∧
    (code = 1 ∨ code = 2 → p.pos = .on → dom d n = { p with mode := code, pend := some code }) ∧
    (code = 1 → p.pos = .ret → dom d n = { p with mode := 1, pend := none }) ∧
    (code = 2 → p.pos = .off → dom d n = { p with mode := 2, pend := none }) ∧
    (code = 0 → p.pos = .on → dom d n = { p with mode := 0, pend := none }) ∧
    (code = 0 → p.pos = .ret → dom d n = ⟨.waking false 1 d.now, 0, none⟩) ∧
    (code = 0 → p.pos = .off → dom d n = ⟨.waking true 1 d.now, 0, none⟩)) ∧
  dom d 0 = dom x 0 ∧ dom d 13 = dom x 13 ∧
  d = { x with pmu := d.pmu, regs := d.regs, marks := d.marks, cpu := d.cpu }

/-- R460, R468, R470: FENCE_CTRL_WRITE: `SVC_FENCE_CTRL` without its key does nothing; with it a block is fenced or its fence taken away, and a request
that is out of place sets REJ and changes nothing. -/
def Claims.FenceControl : Prop := ∀ (s : State) (t : Nat) (r : Reader) (v : Word), s.tagm.hostW = none →
  let x := tick t s.dev
  domPower x 0 = .on → r ≠ .applet →
  let b := fld v 7 0
  (fld v 31 24 ≠ 0x5A → Does (.fenceCtrlWrite t r v) s x) ∧
  (fld v 31 24 = 0x5A → b ∈ [5, 0x0E, 0x10, 0x11, 0x13, 0x15] → bit v 8 = false → fenced x b = false →
    (∀ o ∈ x.ops, o.st ≠ .running) → GivesDev (.fenceCtrlWrite t r v) s fun d =>
      (∀ k, k < 24 → fenced d k = (fenced x k || k == b)) ∧ bit (reg d Reg.SVC_EVENT) 2 = true ∧
      d = { x with regs := d.regs, marks := d.marks, svc := { x.svc with fences := d.svc.fences, writes := d.svc.writes, kept := d.svc.kept } }) ∧
  (fld v 31 24 = 0x5A → b ∈ [5, 0x0E, 0x10, 0x11, 0x13, 0x15] → bit v 8 = true → fenced x b = true → x.svc.opens = [] →
    x.svc.queue = [] → GivesDev (.fenceCtrlWrite t r v) s fun d => (∀ k, k < 24 → fenced d k = (fenced x k && k != b)) ∧
      let v' := { x.svc with fences := d.svc.fences, recent := d.svc.recent, writes := d.svc.writes }
      d = { x with svc := if b = 0x13 then { v' with kept := none, ledger := lastN 512 x.svc.ledger } else v' }) ∧
  (fld v 31 24 = 0x5A → blockFences b = false ∨ bit v 8 ≠ fenced x b →
    GivesDev (.fenceCtrlWrite t r v) s fun d =>
      bit (reg d Reg.SVC_EVENT) 7 = true ∧ d = { x with regs := d.regs, marks := d.marks })

/-- R305, R323, R325: REEPOCH, PORT_OFF, MASTER_MODE: REEPOCH gives the port a new epoch and sequence number 0. OFF takes the other port out of service and back with a
new epoch, never the reader's own port and never the last in service. MASTER takes SPI_B out of slave service while port A serves, and
back with a new epoch. -/
def Claims.PortControl : Prop := ∀ (s : State) (t : Nat) (r : Reader) (b : Bool), s.tagm.hostW = none →
  let x := tick t s.dev
  let p := port x b
  (r = .applet → ∀ on, Does (.reepoch t r b) s x ∧ Does (.portOff t r b on) s x ∧ Does (.masterMode t r on) s x) ∧
  (r ≠ .applet → domPower x (if b then 2 else 1) = .on → x.mst.on = false →
  let same := fun (d : Dev) => port d (!b) = port x (!b) ∧
    d = { x with free := d.free, regs := d.regs, marks := d.marks, portA := d.portA, portB := d.portB }
  (GivesDev (.reepoch t r b) s fun d => (port d b).epoch ≠ p.epoch ∧
    port d b = { p with epoch := (port d b).epoch, seq := 0 } ∧ bit (reg d (linkReg Reg.LINK_A_EVENT b)) 9 = true ∧ same d) ∧
  (p.off = false → ownPort r b = false → (port x (!b)).off = false →
    GivesDev (.portOff t r b true) s fun d => port d b = { p with off := true } ∧ same d) ∧
  (p.off = true ∨ ownPort r b = true ∨ (port x (!b)).off = true → Does (.portOff t r b true) s x) ∧
  (p.off = false → Does (.portOff t r b false) s x) ∧
  (p.off = true → fenced x (if b then 2 else 1) = false → GivesDev (.portOff t r b false) s fun d => (port d b).epoch ≠ p.epoch ∧
    port d b = { p with off := false, epoch := (port d b).epoch, seq := 0, readyAt := x.now } ∧ same d) ∧
  (b = true → (x.portA.off = false → Does (.masterMode t r true) s { x with
      mst := { x.mst with on := true, leaving := false } }) ∧
    (x.portA.off = true → Does (.masterMode t r true) s x) ∧ Does (.masterMode t r false) s x))

/-- R325, R326: MASTER_TRANSFER: a transfer of 1 to 256 bytes starts in master mode with the select that SEL names low; GO that starts
none is ignored. MASTER_TRANSFER_DONE: it ends with the bytes received in the buffer, the selects as HOLD says and its event.
MASTER_MODE: leaving master mode waits for a transfer, and gives port B a new epoch. -/
def Claims.SpiMaster : Prop := ∀ (s : State) (t : Nat) (r : Reader), s.tagm.hostW = none →
  let x := tick t s.dev
  let m := x.mst
  let c := reg x Reg.LINK_M_CTRL
  let n := fld c 8 0
  (domPower x 2 = .on → r ≠ .applet →
    (m.on = true → m.fw = false ∨ r = .fw → m.busy = none → 1 ≤ n → n ≤ 256 → GivesDev (.masterTransfer t r) s fun d =>
      d.mst = { m with
        busy := some (x.now + ((8 * n + 2) * (16 + 2 * fld (reg x Reg.LINK_M_CFG) 7 0) * 2 + 4) / 5), out := masterOut m.buf n
        low0 := m.low0 || !bit c 29, low1 := m.low1 || bit c 29 } ∧
      d = { x with regs := d.regs, mst := d.mst } ∧ RegsBut [Reg.LINK_M_CTRL] x d) ∧
    (m.on = false ∨ m.busy.isSome = true ∨ n = 0 ∨ 256 < n ∨ (m.fw = true ∧ r ≠ .fw) → Does (.masterTransfer t r) s x) ∧
    (m.on = true → x.portB.off = false → m.leaving = false → m.busy = none → GivesDev (.masterMode t r false) s fun d =>
      d.mst = { m with on := false, fw := false, low0 := false, low1 := false, leaving := false } ∧
      d.portB.epoch ≠ x.portB.epoch ∧ d.portB.seq = 0) ∧
    (m.on = true → x.portB.off = false → m.busy.isSome = true → Does (.masterMode t r false) s { x with mst := { m with leaving := true } })) ∧
  (∀ e rx, m.busy = some e →
    (e ≤ t → m.leaving = false → m.out.length ≤ 256 → GivesDev (.masterTransferDone t rx) s fun d =>
      (∀ i, memW d.mst.buf i = if 4 * i + 4 ≤ m.out.length then nth 0 rx i
        else if m.out.length ≤ 4 * i then memW m.buf i else memW d.mst.buf i) ∧
      d.mst = { m with busy := none, low0 := m.low0 && bit c 30, low1 := m.low1 && bit c 30, buf := d.mst.buf } ∧
      bit (reg d Reg.LINK_B_EVENT) 10 = true ∧ d = { x with regs := d.regs, marks := d.marks, mst := d.mst } ∧
      RegsBut [Reg.LINK_B_EVENT] x d) ∧
    (t < e → Does (.masterTransferDone t rx) s x)) ∧
  (∀ rx, m.busy = none → Does (.masterTransferDone t rx) s x)

/-- R343, R347: RING_CFG_WRITE, RING_FLUSH: a ring is set up only while it is disabled, and only in words that no other enabled ring has; a report ring enabled or a
command ring with no packet can be disabled, ring 4 never; FLUSH frees a report ring's records and leaves one GAP that counts them. -/
def Claims.RingRegisters : Prop := ∀ (s : State) (t n : Nat) (r : Reader) (v : Word), s.tagm.hostW = none →
  let x := tick t s.dev
  domPower x 6 = .on → n < 32 →
  let g := ring x n
  let others := fun (d : Dev) => (∀ m, m ≠ n → ring d m = ring x m) ∧
    d = { x with rings := d.rings, regs := d.regs, marks := d.marks }
  (g.en = true → bit v 31 = true ∨ n = 4 ∨ (n < 4 ∧ g.recs ≠ []) → Does (.ringCfgWrite t r n v) s (x)) ∧
  (g.en = true → bit v 31 = false → n ≠ 4 → (n < 4 → g.recs = []) → GivesDev (.ringCfgWrite t r n v) s fun d =>
    ring d n = { g with en := false } ∧ others d) ∧
  (g.en = false → bit v 31 = true → 1 ≤ fld v 27 16 → (n < 4 → 4 ≤ fld v 27 16) → fld v 10 0 + fld v 27 16 ≤ 2048 →
    (∀ m, m < 32 → m ≠ n → (ring x m).en = true →
      fld v 10 0 + fld v 27 16 ≤ (ring x m).base ∨ (ring x m).base + (ring x m).size ≤ fld v 10 0) →
    GivesDev (.ringCfgWrite t r n v) s fun d => (ring d n).en = true ∧ (ring d n).size = fld v 27 16 ∧ (ring d n).base = fld v 10 0 ∧
      (ring d n).recs = [] ∧ (ring d n).held = 0 ∧ (ring d n).nseq = g.nseq ∧ others d) ∧
  (g.en = false → bit v 31 = true → fld v 27 16 = 0 ∨ 2048 < fld v 10 0 + fld v 27 16 → GivesDev (.ringCfgWrite t r n v) s fun d =>
    (ring d n).en = false ∧ bit (reg d (ringReg n 6)) 6 = true ∧ others d) ∧
  (4 ≤ n → g.en = true → GivesDev (.ringFlush t r n) s fun d =>
    (ring d n).recs = [[put 31 16 0xFFFE ||| put 15 8 2 ||| put 7 0 g.nseq.toNat, putB 31 true ||| put 30 0 g.recs.length]] ∧
    (ring d n).held = 0 ∧ (ring d n).nseq = g.nseq + 1 ∧ bit (reg d (ringReg n 6)) 4 = true ∧ others d) ∧
  (n < 4 ∨ g.en = false → GivesDev (.ringFlush t r n) s fun d => d.rings = x.rings ∧
    (∀ a, a ≠ ringReg n 4 → reg d a = reg x a) ∧ d = { x with regs := d.regs })

/-- R345, R346: RING_STALE, GAP_DEFERRED_WRITE: the stale time of a ring with a record not freed sets STALE and starts again, that of an empty ring stops; a GAP kept for
lack of room is written with its count once two words are free. -/
def Claims.RingTimes : Prop := ∀ (s : State) (t n : Nat), 4 ≤ n → n < 32 →
  let x := tick t s.dev
  let g := ring x n
  let ms := fld (reg x (ringReg n 5)) 15 0
  (∀ e, g.staleAt = some e → e ≤ x.now → ms ≠ 0 → g.recs ≠ [] → GivesDev (.ringStale t n) s fun d =>
    ring d n = { g with staleAt := some (x.now + ms * 160000) } ∧ (∀ m, m ≠ n → ring d m = ring x m) ∧
    bit (reg d (ringReg n 6)) 2 = true ∧ d = { x with rings := d.rings, regs := d.regs, marks := d.marks }) ∧
  (∀ e, g.staleAt = some e → e ≤ x.now → ms ≠ 0 → g.recs = [] →
    Does (.ringStale t n) s (setRing n { g with staleAt := none } (x))) ∧
  (∀ e, g.staleAt = some e → x.now < e → Does (.ringStale t n) s (x)) ∧
  (g.pendGap ≠ 0 → 2 ≤ g.room → GivesDev (.gapDeferredWrite t n) s fun d =>
    WithRecord (setRing n { g with pendGap := 0 } (x)) d n 0xFFFE [nw (min 0x7FFFFFFF g.pendGap)]) ∧
  (g.pendGap = 0 ∨ g.room < 2 → Does (.gapDeferredWrite t n) s (x))

/-- R334, R335: HELD_RECORD_WRITE: the first held record goes to its ring as soon as the ring has room, and the tag of an ended operation with no more
records held is free; while no held record's ring has room nothing is written. -/
def Claims.HeldRecords : Prop := ∀ (s : State) (t : Nat),
  let x := tick t s.dev
  (∀ h rest ty body, x.held = h :: rest → h.words = ty :: body → RoomFor x h.ring body.length →
    GivesDev (.heldRecordWrite t) s fun d => d.held = rest ∧
      (∀ o ∈ d.ops, o ∈ x.ops) ∧ (∀ o ∈ x.ops, o.tag ≠ h.tag ∨ o.ended = false → o ∈ d.ops) ∧
      (rest.all (fun e => e.tag ≠ h.tag) = true → ∀ o ∈ d.ops, o.tag = h.tag → o.ended = false) ∧
      WithRecord { x with held := rest, ops := d.ops } d h.ring ty.toNat body) ∧
  ((∀ h ∈ x.held, recFits x (heldRing x h) h.words.length = false) →
    Does (.heldRecordWrite t) s (x))

/-- R337, R339, R405, R415, R453, R466: OPERATION_START: an operation that is QUEUED and is next starts when its domains are ON, or asks for those that are
not; a swap that runs hands over, unless the spare cannot take the state; one that is neither stays as it is. An error in its data in
data SRAM ends it with MEM_FAULT and DSRAM_ECC. -/
def Claims.OperationStarts : Prop := ∀ (s : State) (t tag : Nat),
  let x := tick t s.dev
  (findOp x tag = none → ∀ ecc, Does (.operationStart t tag ecc) s x) ∧
  (∀ o, findOp x tag = some o →
  (o.ended = true ∨ (o.long = false ∧ o.opcode ≠ 0x409) → ∀ ecc, (ecc = true → o.ended = true) → Does (.operationStart t tag ecc) s x) ∧
  (o.ended = false → o.long = true →
  (o.st = .suspended ∨ (o.st = .queued ∧ (mayStart x o = false ∨ untriggered o = true)) → Does (.operationStart t tag false) s x) ∧
  (o.st = .queued → mayStart x o = true → o.opcode ∈ [0x300, 0x400, 0x401, 0x500] → untriggered o = false →
    (opDomains x o).all (domOn x) = true → GivesDev (.operationStart t tag false) s fun e =>
      (∃ p, findOp e tag = some p ∧ p.st = .running ∧ p.pend = .none ∧ p.block = o.block) ∧
      (∀ n ∈ opThreads o, (thr e n).op = some tag ∧ (thr e n).toFetch = true ∧ (thr e n).st = .waiting)) ∧
  (o.st = .queued → mayStart x o = true → o.opcode = 0x500 → untriggered o = false → (dom x 11).pos = .off → domOn x 7 = true →
    GivesDev (.operationStart t tag false) s fun e => (dom e 11).pos = .waking true 1 x.now ∧ findOp e tag = some o ∧
      x = { e with pmu := x.pmu }) ∧
  (o.st = .running → o.opcode = 0x903 → o.pend = .none → o.failAs = none → x.cpu.apl.run = false → x.cpu.apl.ok = false →
    GivesDev (.operationStart t tag false) s fun e =>
      (Config.swapTakes x.sys.fwVer (otherCore x).ver = true → e.cpu.onS = (!x.cpu.onS) ∧ e.cpu.spareRun = false ∧
        (coreIn e).pc = (otherCore x).entry ∧ (dom e (coreDom x)).pos = .ret ∧ e.sys.fwVer = (otherCore x).ver ∧
        bit (reg e Reg.CORE_EVENT) 2 = true) ∧
      (Config.swapTakes x.sys.fwVer (otherCore x).ver = false → e.cpu = x.cpu ∧ e.pmu = x.pmu ∧ e.sys.fwVer = x.sys.fwVer)) ∧
  (o.long = true ∧ o.ended = false → x.svc.opens = [] → recentOf x 6 = false → GivesDev (.operationStart t tag true) s fun e =>
    (∀ p ∈ e.ops, p.tag = tag → p.ended = true) ∧ ∃ h ∈ e.svc.opens, h.code = 0x43 ∧ h.block = 6)))

/-- R331, R332: firmware takes the oldest packet of the lowest command ring that holds one, and serves it as the command its opcode names;
an unknown opcode is refused with BAD_OPCODE, and while firmware takes no packets nothing happens. -/
def Claims.PacketsTaken : Prop := ∀ (s : State) (t n : Nat) (ws : List Word) (rest : List (List Word)), s.tagm.hostW = none → n < 4 →
  (∀ m, m < n → (ring s.dev m).en = false ∨ (ring s.dev m).recs = []) → (ring s.dev n).en = true → (ring s.dev n).recs = ws :: rest →
  let g := ring s.dev n
  let h := nth 0 ws 0
  let p : Packet := ⟨n, fld h 15 9, fld h 8 4, bit h 2, bit h 1, bit h 3, ws.drop 1⟩
  let popped := setRing n { g with recs := rest, rpos := (g.rpos + ws.length) % max 1 (64 * g.size) } s.dev
  (fwTakes s.dev = true → ∀ row, RowOf row (fld h 31 16) p → exec (.packetTake t) s = exec (row t p) { s with dev := popped }) ∧
  (fwTakes s.dev = true → opKnown (fld h 31 16) = false → 4 ≤ p.rring → hasHeld s.dev p.tag = false → RoomFor s.dev p.rring 4 →
    GivesDev (.packetTake t) s fun d => WithRecord (tick t popped) d p.rring 0x0001
      (replyBody (tick t s.dev) 0x16 true p.tag (fld h 31 16) 0 .failed n [])) ∧
  (fwTakes s.dev = false → Does (.packetTake t) s (tick t s.dev))

/-- R332, R334, R336: every command checks its packet in the same order: a tag in use is TAG_IN_USE, a reply ring that is disabled or a
command ring is BAD_RING, told in ring 4, a block of another length than its command's is BAD_LENGTH, a field out of its range
BAD_PARAM. A refused packet takes no tag and does nothing else. -/
def Claims.PacketChecks : Prop := ∀ (s : State) (t : Nat) (row : Nat → Packet → Instr) (op : Nat) (p : Packet), RowOf row op p →
  s.tagm.hostW = none → fwTakes s.dev = true → p.cring < 4 → p.tag < 128 → p.rring < 32 → hasHeld s.dev p.tag = false →
  let tagless := 3 ≤ op ∧ op ≤ 7
  let refused := fun (ring status : Nat) => RoomFor s.dev ring 4 → GivesDev (row t p) s fun d =>
    WithRecord (tick t s.dev) d ring 0x0001 (replyBody (tick t s.dev) status true p.tag op 0 .failed p.cring [])
  (¬ tagless → (findOp s.dev p.tag).isSome = true → 4 ≤ p.rring → refused p.rring 0x15) ∧
  (tagless ∨ findOp s.dev p.tag = none → p.rring < 4 ∨ (ring s.dev p.rring).en = false → refused 4 0x1D) ∧
  (tagless ∨ findOp s.dev p.tag = none → 4 ≤ p.rring →
    p.block.length < blockFixed op p.block ∨ blockNeed op p.block < p.block.length ∨ 1280 < p.block.length → refused p.rring 0x19) ∧
  (tagless ∨ findOp s.dev p.tag = none → 4 ≤ p.rring → p.block.length = blockNeed op p.block → blockFixed op p.block ≤ p.block.length →
    p.block.length ≤ 1280 → paramBad s.dev op p.block = true → refused p.rring 0x17)

/-- R163, R235, R282, R289, R340, R350, R464: the short commands that read: each ends with one final REPLY, with its result words or its
status, and changes nothing but the ring of the reply. -/
def Claims.ReadingCommands : Prop := ∀ (s : State) (t : Nat) (p : Packet), TagFree s.dev p.tag →
  let d := shortFound s t
  let w := nth 0 p.block 0
  let tells := fun (i : Instr) (op status : Nat) (res : List Word) => Taken s op p → Replies i s op p d status res
  tells (.cmdNop t p) 0x000 0 [] ∧
  tells (.getInfo t p) 0x001 0 [regWord s Reg.SYS_ID, s.dev.sys.fwVer, Config.serial.extractLsb' 0 32, Config.serial.extractLsb' 32 32] ∧
  tells (.timeRead t p) 0x100 0 [timeStatusWord d, timePhaseWord d, s.dev.tb.cyc.extractLsb' 0 32, nw (s.dev.tb.cyc.toNat / 4294967296),
    nw (tbUnc d d.now), nw s.dev.tb.period] ∧
  (fld w 15 8 + fld w 4 0 ≤ 256 → tells (.mboxRead t p) 0x601 0
    ((List.range (8 * fld w 4 0)).map fun i => blockWord s.tagm (fld w 15 8 + i / 8) (i % 8))) ∧
  (256 < fld w 15 8 + fld w 4 0 → tells (.mboxRead t p) 0x601 0x51 []) ∧
  (∀ c, fenced s.dev 5 = false → combFind s.dev (unpackBits (fld w 8 0) (p.block.drop 1)) = some c →
    tells (.combLookup t p) 0x701 0 (put 16 0 c :: (List.range 8).map (dumpWord s.dev (cellWords s.dev c)))) ∧
  (fenced s.dev 5 = false → combFind s.dev (unpackBits (fld w 8 0) (p.block.drop 1)) = none → Taken s 0x701 p →
    ∃ res, res.length = 8 ∧ Replies (.combLookup t p) s 0x701 p { d with free := s.dev.free + 8 } 0 (0x1FFFF :: res)) ∧
  (fenced s.dev 5 = true → tells (.combLookup t p) 0x701 0x62 []) ∧
  tells (.ledgerRead t p) 0x803 0 (ledgerRes s.dev (fld w 15 0) (fld w 23 16))

/-- R238, R239, R266: the short commands of Damask and of a card session: a key loaded or made takes the next generation number and sets
LINK_EN; a key made here and one marked are not exported; EXPORT without a key or of such a key is KEY_DENIED; a fenced keeping store
refuses every change; an epoch set starts its count again and tells of itself; a release ends the card session. -/
def Claims.KeyCommands : Prop := ∀ (s : State) (t : Nat) (p : Packet) (w : Word) (ws : List Word), TagFree s.dev p.tag → p.block = w :: ws →
  let d := shortFound s t
  let key := fun (i : Nat) => fld w 2 0 = i ∧ Taken s 0x710 p
  let tells := fun (i : Instr) (e : Dev) (status : Nat) (res : List Word) => Replies i s 0x710 p e status res
  let linked := fun (e : Dev) => setReg Reg.COMB_DMK_CFG (reg s.dev Reg.COMB_DMK_CFG ||| 4) e
  let k := s.dev.dmk
  (key 0 → fenced s.dev 0x13 = false → tells (.damaskKeyLoad t p) (linked <| keepWrite 515 { d with dmk := { k with
    key := some (nth 0 ws 0 ++ nth 0 ws 1 ++ nth 0 ws 2 ++ nth 0 ws 3), nx := bit w 8, origin := false, gen := k.gen + 1 } }) 0 []) ∧
  (key 1 → fenced s.dev 0x13 = false → ∃ new, tells (.damaskKeyGenerate t p) (linked <| keepWrite 515
    { d with free := s.dev.free + 2, dmk := { k with key := some new, nx := true, origin := true, gen := k.gen + 1 } }) 0 []) ∧
  (key 2 → fenced s.dev 0x13 = false → tells (.damaskKeyMarkNx t p) (keepWrite 515 { d with dmk := { k with nx := true } }) 0 []) ∧
  (∀ v, key 3 → k.key = some v → k.nx = false → tells (.damaskKeyExport t p) d 0 [(epochKey v (nth 0 ws 0)).extractLsb' 96 32,
    (epochKey v (nth 0 ws 0)).extractLsb' 64 32, (epochKey v (nth 0 ws 0)).extractLsb' 32 32, (epochKey v (nth 0 ws 0)).extractLsb' 0 32]) ∧
  (key 3 → k.key = none ∨ k.nx = true → tells (.damaskKeyExport t p) d 0x28 []) ∧
  (key 4 → fenced s.dev 0x13 = false → tells (.damaskKeyErase t p)
    (setReg Reg.COMB_DMK_CFG (reg s.dev Reg.COMB_DMK_CFG &&& ~~~ 1) <| keepWrite 515 { d with dmk := { k with key := none, nx := false, gen := k.gen + 1 } }) 0 []) ∧
  (fenced s.dev 0x13 = true → (key 0 → tells (.damaskKeyLoad t p) d 0x50 []) ∧ (key 1 → tells (.damaskKeyGenerate t p) d 0x50 []) ∧
    (key 2 → tells (.damaskKeyMarkNx t p) d 0x50 []) ∧ (key 4 → tells (.damaskKeyErase t p) d 0x50 [])) ∧
  (Taken s 0x711 p → Replies (.damaskEpoch t p) s 0x711 p (epochRecord false <| keepWrite 517 { d with dmk := { k with epoch := w, since := d.now } }) 0 [])

/-- R266, R396, R403, R461, R468: the other short commands that act at once: HF_RELEASE, RETIRE, LEAVE_SAFE, ENTER_SAFE, FENCE, UNFENCE,
IMAGE_COMMIT, APPLET_START and APPLET_STOP, each with its status. -/
def Obligations.ActingCommands : Prop := ∀ (s : State) (t : Nat) (p : Packet), TagFree s.dev p.tag →
  let d := shortFound s t
  let w := nth 0 p.block 0
  let b := fld w 15 8
  let img := s.dev.cpu.img
  let good := imgCheck img (nth 0 p.block 1).toNat (nth 0 p.block 2)
  let target : Nat := if bit w 0 then 1 else 0
  let plain := b ∈ [5, 0x0E, 0x10, 0x11, 0x13, 0x15]
  let kw := keepWrite 512 d
  let serves := fun (i : Instr) (a : Nat) (e : Dev) (status : Nat) => fld w 3 0 = a → Taken s 0x802 p → Replies i s 0x802 p e status []
  (Taken s 0x502 p → Replies (.hfRelease t p) s 0x502 p (setReg Reg.HF_ISO4_STAT 0 { d with hf := { s.dev.hf with cardActive := false } }) 0 []) ∧
  (plain → b ≠ 0x13 → fenced s.dev b = false → (∀ o ∈ s.dev.ops, o.st ≠ .running) → serves (.serviceFence t p) 0
    (count Reg.SVC_CNT 23 16 1 (event Reg.SVC_EVENT 2 { kw with svc := { kw.svc with fences := s.dev.svc.fences ||| BitVec.ofNat 24 (2 ^ b) } })) 0) ∧
  (b = 0x13 → fenced s.dev b = false → s.dev.svc.kept = none → (∀ o ∈ s.dev.ops, o.st ≠ .running) → serves (.serviceFence t p) 0
    (count Reg.SVC_CNT 23 16 1 (event Reg.SVC_EVENT 2 { kw with svc := { kw.svc with
      fences := s.dev.svc.fences ||| BitVec.ofNat 24 (2 ^ b)
      kept := some { keptOf d with fences := s.dev.svc.fences ||| BitVec.ofNat 24 (2 ^ b) } } })) 0) ∧
  (blockFences b = true → fenced s.dev b = true → serves (.serviceFence t p) 0 d 0x1C) ∧
  (plain → b ≠ 0x13 → fenced s.dev b = true → s.dev.svc.opens = [] → s.dev.svc.queue = [] → serves (.serviceUnfence t p) 1
    { kw with svc := { kw.svc with fences := s.dev.svc.fences &&& ~~~ BitVec.ofNat 24 (2 ^ b)
                                   recent := s.dev.svc.recent.filter fun h => h.block ≠ b } } 0) ∧
  (blockFences b = true → fenced s.dev b = false → serves (.serviceUnfence t p) 1 d 0x1C) ∧
  (∀ ch k, serviceSlice w = some (ch, k) → retireWrong s.dev ch k = false → serves (.serviceRetire t p) 2 (retireSlice ch k d) 0) ∧
  (∀ ch k, serviceSlice w = some (ch, k) → retireWrong s.dev ch k = true → serves (.serviceRetire t p) 2 d 0x1C) ∧
  (leaveSafeOk s.dev = true → b = 0 → serves (.leaveSafe t p) 3 (event Reg.SVC_EVENT 6 { d with svc := { s.dev.svc with safe := false } }) 0) ∧
  (leaveSafeOk s.dev = false → b = 0 → serves (.leaveSafe t p) 3 d 0x1C) ∧
  (fld w 3 0 = 4 → b = 0 → Taken s 0x802 p → s.dev.svc.safe = false → GivesDev (.enterSafe t p) s fun e =>
    e.svc.safe = true ∧ e.uhf.carrier = false ∧ e.hf.field = 0 ∧ (∀ n, n < 4 → (thr e n).st = .halted)) ∧
  (imgTarget s.dev = 0 → target = 0 → good = true → Taken s 0x900 p → Replies (.imageCommit t p) s 0x900 p { d with cpu := { s.dev.cpu with
    apl := { s.dev.cpu.apl with ok := true, entry := nth 0 img.hdr 3, fentry := nth 0 img.hdr 6 } } } 0 []) ∧
  (imgTarget s.dev = 1 → target = 1 → good = true → Taken s 0x900 p → GivesDev (.imageCommit t p) s fun e => e.cpu.spareOk = true ∧
    (otherCore e).entry = nth 0 img.hdr 3 ∧ (otherCore e).ver = nth 0 img.hdr 2 ∧ e.cpu.apl = s.dev.cpu.apl ∧ coreIn e = coreIn s.dev) ∧
  (imgTarget s.dev ≠ target ∨ good = false → Taken s 0x900 p → Replies (.imageCommit t p) s 0x900 p d 0x53 []) ∧
  (s.dev.cpu.apl.ok = false → Taken s 0x901 p → Replies (.appletStart t p) s 0x901 p d 0x2C []) ∧
  (s.dev.cpu.apl.ok = true → s.dev.cpu.apl.run = false → Taken s 0x901 p → GivesDev (.appletStart t p) s fun e =>
    e.cpu.apl.run = true ∧ (coreIn e).pc = s.dev.cpu.apl.entry ∧ (coreIn e).sup = false ∧ (coreIn e).get 7 = 0x1003F000 ∧ (coreIn e).get 8 = 0) ∧
  (s.dev.cpu.apl.run = false → Taken s 0x902 p → Replies (.appletStop t p) s 0x902 p d 0 []) ∧
  (s.dev.cpu.apl.run = true → s.dev.cpu.apl.filter = none → s.dev.cpu.apl.fq = [] → Taken s 0x902 p → GivesDev (.appletStop t p) s fun e =>
    e.cpu.apl.run = false ∧ e.cpu.apl.cmds = [] ∧ fld (reg e Reg.CORE_APL_STAT) 31 24 = 0 ∧ bit (reg e Reg.CORE_EVENT) 1 = true)

/-- R163, R165, R178, R290, R368, R398: the short commands that end later: a turn is armed with its T0 or its slot; one already armed
answers TURN_PENDING, a slot without timebase NO_TIME; a Select waits for the end of the round; a mailbox write begins unless the field
holds the lock or it passes block 239; an applet command waits for the applet. -/
def Claims.WaitingCommands : Prop := ∀ (s : State) (t : Nat) (p : Packet), TagFree s.dev p.tag →
  let d := shortFound s t
  let w := nth 0 p.block 0
  let op := fun (code : Nat) => packetOp code p (tick t s.dev)
  let waits := fun (code : Nat) => { d with ops := s.dev.ops ++ [op code] }
  (Taken s 0x002 p → s.dev.seq.turn.isSome = true → Replies (.setTurn t p) s 0x002 p d 0x27 []) ∧
  (Taken s 0x002 p → s.dev.seq.turn = none → bit w 31 = true → tbValid s.dev = false → Replies (.setTurn t p) s 0x002 p d 0x40 []) ∧
  (Taken s 0x002 p → s.dev.seq.turn = none → s.dev.sys.copyEnd = none → bit w 31 = false → Does (.setTurn t p) s { waits 0x002 with
    seq := { d.seq with turn := some ⟨p.tag, none, some (d.now + 1), true⟩ } }) ∧
  (Taken s 0x002 p → s.dev.seq.turn = none → s.dev.sys.copyEnd = none → bit w 31 = true → tbValid s.dev = true →
    Does (.setTurn t p) s { waits 0x002 with seq := { d.seq with turn := some ⟨p.tag, some (fld w 6 0), none, true⟩ } }) ∧
  (Taken s 0x301 p → s.dev.gen2.rstate = 2 → Does (.selectSet t p) s (waits 0x301)) ∧
  (Taken s 0x301 p → s.dev.gen2.rstate = 0 → Replies (.selectSet t p) s 0x301 p (fwBuffer (8 + fld w 2 0)
    (setFld (fbHeader false 2 15 0 (selectFrame p.block).length) 31 31 (fld w 3 3)) (selectFrame p.block) d) 0 []) ∧
  (Taken s 0x602 p → 240 < fld w 15 8 + fld w 5 0 → Replies (.mboxWrite t p) s 0x602 p d 0x51 []) ∧
  (Taken s 0x602 p → fld w 15 8 + fld w 5 0 ≤ 240 → s.tagm.lock.isSome = true →
    Replies (.mboxWrite t p) s 0x602 p (event Reg.TAGM_EVENT 5 d) 0x52 []) ∧
  (Taken s 0x602 p → fld w 15 8 + fld w 5 0 ≤ 240 → s.tagm.lock = none → exec (.mboxWrite t p) s = .next { s with
    dev := waits 0x602
    tagm := { s.tagm with hostW := some ⟨p.tag, fld w 15 8, p.block.drop 1, d.now, fld w 5 0, 0⟩ } }) ∧
  (Taken s 0x904 p → s.dev.cpu.apl.run = false → Replies (.appletCmd t p) s 0x904 p d 0x2C []) ∧
  (Taken s 0x904 p → s.dev.cpu.apl.run = true → s.dev.cpu.apl.waiting = none → Does (.appletCmd t p) s { waits 0x904 with
    cpu := { s.dev.cpu with apl := { s.dev.cpu.apl with cmds := s.dev.cpu.apl.cmds ++ [p.tag] } } })

/-- The long commands with their opcodes. -/
def longRows : List ((Nat → Packet → Instr) × Nat) :=
  [(.listen, 0x200), (.inventory, 0x300), (.tagRead, 0x400), (.tagWrite, 0x401), (.tagBlockwrite, 0x402), (.tagBlockerase, 0x403),
   (.tagLock, 0x404), (.tagKill, 0x405), (.tagPermalock, 0x406), (.tagUntraceable, 0x407), (.tagAuth, 0x408), (.hfCampaign, 0x500),
   (.hfApdu, 0x501), (.combSweepReport, 0x700), (.combSweepPurge, 0x700), (.combSweepDepart, 0x700), (.combSweepPin, 0x700),
   (.combSweepUnpin, 0x700), (.combSweepLink, 0x700), (.calRun, 0x800), (.onlineTest, 0x801), (.swapCore, 0x903)]

/-- R332, R336, R337, R340: a long command is refused with the status of the first condition it fails; else its operation is ACCEPTED,
SUSPENDED with HOLD, QUEUED while it may not start, and its tag is in use; one whose turn it is and whose domains are ON runs at once. -/
def Claims.LongCommands : Prop := ∀ (s : State) (t : Nat) (row : Nat → Packet → Instr) (op : Nat) (p : Packet), (row, op) ∈ longRows →
  RowOf row op p → Taken s op p → TagFree s.dev p.tag → RoomFor s.dev p.rring 4 →
  let o := packetOp op p (tick t s.dev)
  let d := { shortFound s t with ops := s.dev.ops ++ [o] }
  let accepted := fun (st : OpState) (e : Dev) =>
    WithRecord d e p.rring 0x0001 (replyBody (tick t s.dev) 0x02 false p.tag op 0 st p.cring [])
  (∀ st, longRefusal (tick t s.dev) o = some st → GivesDev (row t p) s fun e => WithRecord (tick t s.dev) e p.rring 0x0001
    (replyBody (tick t s.dev) st true p.tag op 0 (if st = 0 then .done else .failed) p.cring [])) ∧
  (longRefusal (tick t s.dev) o = none → p.hold = true → o.st = .suspended ∧ GivesDev (row t p) s (accepted .suspended)) ∧
  (longRefusal (tick t s.dev) o = none → p.hold = false → mayStart d o = false ∨ untriggered o = true →
    o.st = .queued ∧ GivesDev (row t p) s (accepted .queued)) ∧
  (longRefusal (tick t s.dev) o = none → p.hold = false → mayStart d o = true → untriggered o = false →
    (opDomains d o).all (domOn d) = true → (op = 0x200 → nth 0 p.block 1 ≠ 0 ∨ nth 0 p.block 2 ≠ 0) →
    (op = 0x501 → bit (reg d Reg.HF_ISO4_STAT) 0 = true) → (op = 0x800 → calTodo d o ≠ []) → GivesDev (row t p) s fun e =>
      (∃ q, findOp e p.tag = some q ∧ q.st = .running ∧ q.opcode = op ∧ q.block = p.block) ∧
      (∀ n ∈ opThreads o, n = 0 ∨ op ≠ 0x200 → (thr e n).op = some p.tag ∧ (thr e n).toFetch = true ∧ (thr e n).st = .waiting))

/-- R333, R336, R338, R340: the requests that name an operation answer at once with a REPLY of their own: one that names no operation
answers NO_OP; QUERY_OP tells state and progress; SUSPEND, RESUME and CANCEL of a running operation wait for its abort point, of one
that waits act at once, and of one that has ended or is a short command are refused; DATA appends to a block that is not whole. -/
def Claims.OperationRequests : Prop := ∀ (s : State) (t : Nat) (p : Packet) (o : Op), hasHeld s.dev p.tag = false → RoomFor s.dev p.rring 6 →
  let target := fld (nth 0 p.block 0) 6 0
  let d := tick t s.dev
  let tells := fun (e : Dev) (op status : Nat) (res : List Word) => WithRecord d e p.rring 0x0001
    (replyBody d status true p.tag op 0 (if status = 0 then .done else .failed) p.cring res)
  (∀ r ∈ [(Instr.suspend, 0x003), (.resume, 0x004), (.cancel, 0x005), (.queryOp, 0x006), (.data, 0x007)], Taken s r.2 p →
    findOp s.dev target = none → GivesDev (r.1 t p) s fun e => tells e r.2 0x1A []) ∧
  (findOp s.dev target = some o →
    (Taken s 0x006 p → o.opcode ≠ 0x409 → GivesDev (.queryOp t p) s fun e => tells e 0x006 0
      [put 31 24 o.lastStatus ||| put 23 21 o.st.code ||| put 15 0 o.opcode, o.progress]) ∧
    (∀ r ∈ [(Instr.suspend, 0x003), (.resume, 0x004), (.cancel, 0x005)], Taken s r.2 p → o.ended = true →
      GivesDev (r.1 t p) s fun e => tells e r.2 0x1C []) ∧
    (∀ r ∈ [(Instr.suspend, 0x003), (.resume, 0x004)], Taken s r.2 p → o.ended = false → o.long = false →
      GivesDev (r.1 t p) s fun e => tells e r.2 0x1B []) ∧
    (Taken s 0x003 p → o.ended = false → o.long = true → o.st = .suspended → GivesDev (.suspend t p) s fun e => ∃ f, tells f 0x003 0 [] ∧
      e = updOp target (fun q => { q with hostMarked := true }) f) ∧
    (Taken s 0x003 p → o.ended = false → o.long = true → o.st = .running → o.pend = .none → o.opcode = 0x300 →
      (∀ q ∈ s.dev.ops, q = o ∨ (q.tag ≠ target ∧ q.pend = .none)) → (thr s.dev 0).op = some target → (thr s.dev 0).st = .waiting →
      GivesDev (.suspend t p) s fun e => (∃ q, findOp e target = some q ∧ q.st = .running ∧ q.pend = .suspend) ∧ (thr e 0).abort = .suspend) ∧
    (Taken s 0x004 p → o.ended = false → o.long = true → o.timeSusp = false → o.st = .running → o.pend = .suspend →
      GivesDev (.resume t p) s fun e => ∃ q, findOp e target = some q ∧ q.st = .running ∧ q.pend = .none) ∧
    (Taken s 0x004 p → o.ended = false → o.long = true → o.st = .running → o.pend = .none → o.timeSusp = false →
      GivesDev (.resume t p) s fun e => tells e 0x004 0x1C []) ∧
    (Taken s 0x005 p → o.ended = false → o.long = true → o.st = .running → o.pend = .cancel → GivesDev (.cancel t p) s fun e => tells e 0x005 0 []) ∧
    (Taken s 0x005 p → o.ended = false → o.long = true → o.st = .queued → o.opcode = 0x700 → o.rring ≠ p.rring → RoomFor s.dev o.rring 14 →
      o.res.length ≤ 4 → 4 ≤ o.rring → hasHeld s.dev target = false → target ≠ p.tag → GivesDev (.cancel t p) s fun e => findOp e target = none) ∧
    (Taken s 0x007 p → o.ended = false → o.opcode = 0x400 → o.block.length < o.need →
      (o.block ++ p.block.drop 1).length < blockNeed o.opcode (o.block ++ p.block.drop 1) → GivesDev (.data t p) s fun e => ∃ f, tells f 0x007 0 [] ∧
        e = updOp target (fun _ => { o with block := o.block ++ p.block.drop 1, need := blockNeed o.opcode (o.block ++ p.block.drop 1) }) f) ∧
    (Taken s 0x007 p → o.need ≤ o.block.length → GivesDev (.data t p) s fun e => tells e 0x007 0x1C []))

/-- R305, R306, R308, R309, R310, R311: REGISTER_WRITE, REGISTER_READ: a register frame whose check is good moves the sequence number on and is counted; a write puts its
words at successive addresses in ascending order as the select rises, a read returns those words, words past the last address are RUNOFF, and the reply
carries the frame's sequence number and status. -/
def Claims.RegisterFrames : Prop := ∀ (s : State) (f : FrameIn) (sh : Bool) (addr : BitVec 13) (data : List Word) (n : Nat),
  let a := addr.toNat
  let r := portReader f.port
  let past := a + n - min (a + n) 0x800
  let status := if past = 0 then 0 else 1
  let x := tick f.t s.dev
  let s1 := frameFound s f
  let told := fun (e : State) => if past = 0 then e else { e with dev := event (linkReg Reg.LINK_A_EVENT f.port) 5 e.dev }
  let h := fun (kind : Nat) => put 31 28 kind ||| put 23 16 f.seq.toNat ||| put 15 0 ((if sh then 0x8000 else 0) + a)
  (port s1.dev f.port).seq = (port s.dev f.port).seq + 1 ∧ (port s1.dev f.port).errRun = 0 ∧ s1.tagm = s.tagm ∧
  s1.dev = { x with portA := s1.dev.portA, portB := s1.dev.portB, regs := s1.dev.regs, marks := s1.dev.marks } ∧ port s1.dev (!f.port) = port x (!f.port) ∧
  fld (reg s1.dev (linkReg Reg.LINK_A_CNT f.port)) 31 16 = min 65535 (fld (reg x (linkReg Reg.LINK_A_CNT f.port)) 31 16 + 1) ∧
  (a < 0x800 → 1 ≤ n → n ≤ 256 → data.length = n → FrameGood s f (h 1 :: nw n :: data) →
    let e := (List.range n).foldl (fun u i => if a + i < 0x800 then (writeReg r sh (a + i) (nth 0 data i) u).1 else u) (release f.rel s1)
    s1.dev.sys.stage ≤ e.dev.sys.stage → exec (.registerWrite f sh addr data) s = .next (answered s f 1 [] status past (told e))) ∧
  (a < 0x800 → 1 ≤ n → n ≤ 256 → FrameGood s f [h 2, nw n] →
    let step := fun (p : State × List Word) (i : Nat) => if a + i < 0x800 then
      ((readReg r sh (a + i) p.1).1, p.2 ++ [(readReg r sh (a + i) p.1).2]) else (p.1, p.2 ++ [0])
    let e := (List.range n).foldl step (s1, [])
    exec (.registerRead f sh addr n) s = .next (answered s f 2 e.2 status past (told e.1))) ∧
  (0x800 ≤ a → FrameGood s f [h 1] → exec (.registerWrite f sh addr data) s =
    .next (answered s f 1 [] 0x14 0 { s1 with dev := event (linkReg Reg.LINK_A_EVENT f.port) 3 s1.dev }))

/-- R303, R306, R307, R309, R324: FRAME_ABORT, MALFORMED_FRAME, and the checks of every frame: a frame at a port that is not ready shows nothing and does nothing. One whose check fails is refused, as FRAME_SEQ
where its sequence field is not the expected one and FRAME_CRC else, and one cut off is counted; neither moves the sequence number, and
ERR_MAX of them in a row are a fault. A malformed frame with a good check is refused with its status and moves it. -/
def Obligations.RefusedFrames : Prop := ∀ (s : State) (f : FrameIn) (sh : Bool) (addr : BitVec 13) (fall t : Nat) (b : Bool), s.tagm.hostW = none →
  let p := port s.dev f.port
  let x := tick f.t s.dev
  let y := tick t s.dev
  let h := put 31 28 2 ||| put 23 16 f.seq.toNat ||| put 15 0 ((if sh then 0x8000 else 0) + addr.toNat)
  (portHears x f.port f.fall = false → exec (.registerRead f sh addr 1) s = .next (release f.rel (setReply f.port 0 [] { s with dev := x }))) ∧
  (portHears y b fall = false → exec (.frameAbort fall t b) s = .next (setReply b 0 [] { s with dev := y })) ∧
  (portHears x f.port f.fall = true → addr.toNat < 0x800 → f.crc ≠ frameCrc p.epoch p.seq [h, 1] →
    p.errRun + 1 ≠ fld (reg s.dev Reg.LINK_CFG) 7 0 → GivesDev (.registerRead f sh addr 1) s fun d =>
      (port d f.port).seq = p.seq ∧ (port d f.port).errRun = p.errRun + 1 ∧
      (port d f.port).reply = replyWords 2 p.epoch p.seq ⟨[], if f.seq = p.seq then 0x10 else 0x11, 0⟩ ∧
      bit (reg d (linkReg Reg.LINK_A_EVENT f.port)) (if f.seq = p.seq then 1 else 2) = true ∧
      d = { tick f.rel x with portA := d.portA, portB := d.portB, regs := d.regs, marks := d.marks }) ∧
  (portHears y b fall = true → (port s.dev b).errRun + 1 ≠ fld (reg s.dev Reg.LINK_CFG) 7 0 → GivesDev (.frameAbort fall t b) s fun d =>
    (port d b).seq = (port s.dev b).seq ∧ (port d b).errRun = (port s.dev b).errRun + 1 ∧ (port d b).reply = [] ∧
    fld (reg d (linkReg Reg.LINK_A_CNT b)) 7 0 = min 255 (fld (reg y (linkReg Reg.LINK_A_CNT b)) 7 0 + 1) ∧
    bit (reg d (linkReg Reg.LINK_A_EVENT b)) 4 = true ∧
    d = { y with portA := d.portA, portB := d.portB, regs := d.regs, marks := d.marks }) ∧
  (portHears y b fall = true → (port s.dev b).errRun + 1 = fld (reg s.dev Reg.LINK_CFG) 7 0 → s.dev.svc.opens = [] →
    s.dev.svc.recent = [] → GivesDev (.frameAbort fall t b) s fun d =>
    (port d b).seq = (port s.dev b).seq ∧ bit (reg d (linkReg Reg.LINK_A_EVENT b)) 7 = true ∧ bit (reg d Reg.SVC_EVENT) 0 = true ∧
    d.svc.next = s.dev.svc.next + 1) ∧
  (∀ kind low, kind < 16 → kind = 0 ∨ 5 < kind → low < 65536 →
    let w := put 31 28 kind ||| put 23 16 f.seq.toNat ||| put 15 0 low
    w ≠ 0x6B2D6B2D → FrameGood s f [w] → exec (.malformedFrame f w []) s =
      .next (answered s f kind [] 0x12 0 { frameFound s f with dev := event (linkReg Reg.LINK_A_EVENT f.port) 3 (frameFound s f).dev }))

/-- R312, R313, R314, R343, R345: COMMAND_PUSH, RING_PULL: a packet pushed to an enabled command ring with room lies at its end, without room the push answers
CMD_RING_FULL with the free words; a pull returns the records that fit, oldest first, and holds them; an acknowledged record is freed
first, and an empty ring answers IDLE. -/
def Claims.RingFrames : Prop := ∀ (s : State) (f : FrameIn) (n : Nat) (packet : List Word) (m : Nat),
  let g := ring s.dev n
  let k := packet.length
  let h := put 31 28 3 ||| put 23 16 f.seq.toNat ||| put 15 0 (2048 * n + k % 2048)
  let pull := put 31 28 4 ||| put 23 16 f.seq.toNat ||| put 15 0 (2048 * n + m % 2048)
  let ms := fld (reg s.dev (ringReg n 5)) 15 0
  let stale := if ms = 0 then none else some ((tick f.t s.dev).now + ms * 160000)
  (n < 4 → 1 ≤ k → k ≤ 256 → g.en = true → k ≤ g.room → FrameGood s f (h :: packet) → GivesDev (.commandPush f n packet) s fun d =>
    (ring d n).recs = g.recs ++ [packet] ∧ (ring d n).held = g.held ∧ (∀ i, i ≠ n → ring d i = ring s.dev i) ∧
    (port d f.port).reply = replyWords 3 (port s.dev f.port).epoch (port s.dev f.port).seq ⟨[], 0, 0⟩ ∧
    bit (reg d (ringReg n 6)) 0 = true ∧ d.ops = s.dev.ops) ∧
  (n < 4 → 1 ≤ k → k ≤ 256 → g.en = true → g.room < k → FrameGood s f (h :: packet) → GivesDev (.commandPush f n packet) s fun d =>
    d.rings = s.dev.rings ∧ bit (reg d (ringReg n 6)) 1 = true ∧
    (port d f.port).reply = replyWords 3 (port s.dev f.port).epoch (port s.dev f.port).seq ⟨[], 0x2B, g.room⟩) ∧
  (n < 4 → 1 ≤ k → k ≤ 256 → g.en = false → FrameGood s f (h :: packet) → GivesDev (.commandPush f n packet) s fun d =>
    d.rings = s.dev.rings ∧ (port d f.port).reply = replyWords 3 (port s.dev f.port).epoch (port s.dev f.port).seq ⟨[], 0x14, 0⟩) ∧
  (4 ≤ n → n < 32 → 1 ≤ m → m ≤ 1024 → g.en = true → FrameGood s f [pull, 0] →
    (g.recs = [] → GivesDev (.ringPull f n m 0 false) s fun d => ring d n = { g with staleAt := stale } ∧
      (port d f.port).reply = replyWords 4 (port s.dev f.port).epoch (port s.dev f.port).seq
        ⟨[put 31 16 0xFFFF ||| put 15 8 1 ||| put 7 0 (g.nseq - 1).toNat], 0, 0⟩) ∧
    (∀ a rest, g.recs = a :: rest → a.length ≤ m → GivesDev (.ringPull f n m 0 false) s fun d =>
      let out := recsFit 128 m g.recs
      (ring d n).recs = g.recs ∧ (ring d n).held = max g.held out.length ∧ (∀ i, i ≠ n → ring d i = ring s.dev i) ∧
      g.recs.take out.length = out ∧ out ≠ [] ∧ out.length ≤ 128 ∧ out.flatten.length ≤ m ∧
      (port d f.port).reply = replyWords 4 (port s.dev f.port).epoch (port s.dev f.port).seq ⟨out.flatten, 0, 0⟩) ∧
    (∀ a rest, g.recs = a :: rest → m < a.length → GivesDev (.ringPull f n m 0 false) s fun d => ring d n = { g with staleAt := stale } ∧
      (port d f.port).reply = replyWords 4 (port s.dev f.port).epoch (port s.dev f.port).seq ⟨[], 3, a.length⟩)) ∧
  (∀ q : BitVec 8, 4 ≤ n → n < 32 → 1 ≤ m → g.en = true → 0 < g.held → FrameGood s f [pull, 0x80000000 ||| put 7 0 q.toNat] →
    (q - (nth 0 (nth [] g.recs 0) 0).extractLsb' 0 8).toNat < g.held → GivesDev (.ringPull f n m (256 + q.toNat) false) s fun d =>
      (ring d n).recs = g.recs.drop ((q - (nth 0 (nth [] g.recs 0) 0).extractLsb' 0 8).toNat + 1) ∧ (∀ i, i ≠ n → ring d i = ring s.dev i))

/-- R315, R316, R317: BULK_WRITE, BULK_READ, BULK_APPLY_DONE: a bulk write is held whole in the port's buffer, and the port is not ready until its words have gone to the target one
by one, those taken and those rejected counted; a bulk read returns as many words as X has bits for. -/
def Claims.BulkFrames : Prop := ∀ (s : State) (f : FrameIn) (sh : Bool) (addr : BitVec 13) (data : List Word),
  let a := addr.toNat
  let n := bulkWords s.dev f.port
  let y := tick f.rel (tick f.t s.dev)
  let h := fun (rd : Bool) => put 31 28 5 ||| put 23 16 f.seq.toNat ||| put 15 0 ((if rd then 0x4000 else 0) + ((if sh then 0x8000 else 0) + a))
  let reply := fun (ws : List Word) => replyWords 5 (port s.dev f.port).epoch (port s.dev f.port).seq ⟨ws, 0, 0⟩
  (bulkTarget a sh false = true → data.length = n → bulkBits s.dev f.port % 32 = 0 → FrameGood s f (h false :: data) →
    GivesDev (.bulkWrite f sh addr data) s fun d => (port d f.port).bulk = some ⟨a, sh, data, y.now⟩ ∧
      portReady d f.port = false ∧ (port d f.port).reply = reply [] ∧
      d = { y with portA := d.portA, portB := d.portB, regs := d.regs, marks := d.marks }) ∧
  (bulkTarget a sh false = true → data.length < n → portHears (tick f.t s.dev) f.port f.fall = true → GivesDev (.bulkWrite f sh addr data) s fun d =>
    (port d f.port).bulk = none ∧ (port d f.port).seq = (port s.dev f.port).seq ∧ (port d f.port).reply = []) ∧
  (bulkTarget a sh true = true → FrameGood s f [h true] → bulkBits s.dev f.port % 32 = 0 → Gives (.bulkRead f sh addr) s fun u =>
    (∃ ws, ws.length = n ∧ (port u.dev f.port).reply = reply ws) ∧
    (n = 1 → a ≠ 0x489 → (port u.dev f.port).reply = reply [(readReg (portReader f.port) sh a (frameFound s f)).2])) ∧
  (bulkTarget a sh false = false → FrameGood s f [h false] → exec (.bulkWrite f sh addr data) s = .next (answered s f 5 [] 0x14 0
    { frameFound s f with dev := event (linkReg Reg.LINK_A_EVENT f.port) 3 (frameFound s f).dev })) ∧
  (∀ t b, s.tagm.hostW = none → (port s.dev b).bulk = none → Does (.bulkApplyDone t b) s (tick t s.dev)) ∧
  (∀ t b ws start, s.tagm.hostW = none → (port s.dev b).bulk = some ⟨a, sh, ws, start⟩ → (tick t s.dev).now < start + ws.length →
    Does (.bulkApplyDone t b) s (tick t s.dev)) ∧
  (∀ t b v start, s.tagm.hostW = none → (port s.dev b).bulk = some ⟨a, sh, [v], start⟩ → start + 1 ≤ (tick t s.dev).now → a ≠ 0x489 →
    let e := writeReg (portReader b) sh a v { s with dev := tick t s.dev }
    Gives (.bulkApplyDone t b) s fun u => port u.dev b = { port e.1.dev b with bulk := none, readyAt := e.1.dev.now } ∧
      reg u.dev (linkReg Reg.LINK_A_BULK b) = (if e.2 then 1 else 65536) ∧ u.tagm = e.1.tagm ∧
      (e.2 = false → bit (reg u.dev (linkReg Reg.LINK_A_EVENT b)) 8 = true))

/-- R318, R319, R320, R421: SELECT_WAKE, WAGGLE: a select edge wakes its port's link domain but not from deep state; the waggle wakes it from any state, with
the domains of its mask, and shows the ready word of a port that is ready. -/
def Claims.LinkWakes : Prop := ∀ (s : State) (fall t : Nat) (b : Bool),
  let x := tick t s.dev
  let n := if b then 2 else 1
  (deepState s.dev = true ∨ slaveService s.dev b = false ∨ portRail s.dev b = false ∨ domOn s.dev n = true →
    Does (.selectWake t b) s x) ∧
  (∀ off, deepState s.dev = false → slaveService s.dev b = true → portRail s.dev b = true → s.dev.pmu.wakeAt = none →
    (dom s.dev n).pos = (if off then .off else .ret) → GivesDev (.selectWake t b) s fun d =>
      dom d n = ⟨.waking off 1 x.now, 0, none⟩ ∧ (∀ m, m ≠ n → dom d m = dom s.dev m) ∧
      fld (reg d Reg.PMU_LAST_WAKE) 31 28 = (if b then 4 else 3) ∧ fld (reg d Reg.PMU_LAST_WAKE) 13 0 = 2 ^ n ∧
      bit (reg d Reg.PMU_EVENT) 0 = true ∧ d = { x with pmu := d.pmu, regs := d.regs, marks := d.marks }) ∧
  (portRail s.dev b = false ∨ (b = true ∧ s.dev.mst.on = true) → Does (.waggle fall t b) s x) ∧
  (∀ off, (b = true → s.dev.mst.on = false) → portRail s.dev b = true → s.dev.pmu.wakeAt = none →
    (dom s.dev n).pos = (if off then .off else .ret) → GivesDev (.waggle fall t b) s fun d =>
      (dom d n).pos = .waking off 1 x.now ∧ fld (reg d Reg.PMU_LAST_WAKE) 31 28 = (if b then 2 else 1) ∧
      bit (reg d Reg.PMU_EVENT) 0 = true ∧ port d b = { port x b with readyWord := 0, reply := [] } ∧ port d (!b) = port s.dev (!b)) ∧
  ((b = true → s.dev.mst.on = false) → portRail s.dev b = true → portHears x b fall = true → GivesDev (.waggle fall t b) s fun d =>
    port d b = { port x b with readyWord := readyWordOf x b, reply := [] })

/-- R377-R379: the register ALU instructions write rd and move the pc on; nothing else changes. Every register code,
the 16-bit forms, both modes. -/
def Claims.RegisterAluResults : Prop := ∀ (s : State) (c : Bool) (rd ra rb : BitVec 5), Runs s (instrLen c) →
  let a := (coreIn s.dev).get ra
  let b := (coreIn s.dev).get rb
  exec (.add c rd ra rb) s = .next (rdNext s (instrLen c) rd (a + b)) ∧
  exec (.sub c rd ra rb) s = .next (rdNext s (instrLen c) rd (a - b)) ∧
  exec (.and c rd ra rb) s = .next (rdNext s (instrLen c) rd (a &&& b)) ∧
  exec (.or c rd ra rb) s = .next (rdNext s (instrLen c) rd (a ||| b)) ∧
  exec (.mov c rd ra) s = .next (rdNext s (instrLen c) rd a) ∧
  (c = false →
    exec (.xor rd ra rb) s = .next (rdNext s 4 rd (a ^^^ b)) ∧
    exec (.slt rd ra rb) s = .next (rdNext s 4 rd (if a.slt b then 1 else 0)) ∧
    exec (.sltu rd ra rb) s = .next (rdNext s 4 rd (if a.ult b then 1 else 0)) ∧
    exec (.min rd ra rb) s = .next (rdNext s 4 rd (if b.slt a then b else a)) ∧
    exec (.max rd ra rb) s = .next (rdNext s 4 rd (if a.slt b then b else a)) ∧
    exec (.minu rd ra rb) s = .next (rdNext s 4 rd (if b.ult a then b else a)) ∧
    exec (.maxu rd ra rb) s = .next (rdNext s 4 rd (if a.ult b then b else a)) ∧
    exec (.popc rd ra) s = .next (rdNext s 4 rd (nw ((List.range 32).countP fun i => a.getLsbD i))) ∧
    (∃ n : Nat, exec (.clz rd ra) s = .next (rdNext s 4 rd (nw n)) ∧ n ≤ 32 ∧
      (∀ j, 32 - n ≤ j → a.getLsbD j = false) ∧ (n < 32 → a.getLsbD (31 - n) = true)))

/-- R377: shifts by less than 32, by a register or by an immediate. A shift by 32 or more writes an open value (log entry 60)
and completes too. -/
def Claims.ShiftResults : Prop := ∀ (s : State) (c : Bool) (rd ra rb : BitVec 5) (imm : BitVec 14), Runs s (instrLen c) →
  let a := (coreIn s.dev).get ra
  let b := (coreIn s.dev).get rb
  let i := imm.signExtend 32
  (i.toNat < 32 →
    exec (.shli c rd ra imm) s = .next (rdNext s (instrLen c) rd (a <<< i)) ∧
    exec (.shri c rd ra imm) s = .next (rdNext s (instrLen c) rd (a >>> i)) ∧
    (c = false → exec (.srai rd ra imm) s = .next (rdNext s 4 rd (a.sshiftRight i.toNat)))) ∧
  (c = false → b.toNat < 32 →
    exec (.shl rd ra rb) s = .next (rdNext s 4 rd (a <<< b)) ∧
    exec (.shr rd ra rb) s = .next (rdNext s 4 rd (a >>> b)) ∧
    exec (.sra rd ra rb) s = .next (rdNext s 4 rd (a.sshiftRight b.toNat))) ∧
  (c = false →
    (∃ v, exec (.shl rd ra rb) s = .next (rdNext s 4 rd v)) ∧ (∃ v, exec (.shr rd ra rb) s = .next (rdNext s 4 rd v)) ∧
    (∃ v, exec (.sra rd ra rb) s = .next (rdNext s 4 rd v)) ∧ (∃ v, exec (.srai rd ra imm) s = .next (rdNext s 4 rd v))) ∧
  (∃ v, exec (.shli c rd ra imm) s = .next (rdNext s (instrLen c) rd v)) ∧
  (∃ v, exec (.shri c rd ra imm) s = .next (rdNext s (instrLen c) rd v))

/-- R377, R379: multiplication and division, with division by zero as R379 gives it and no trap. The quotient truncates
toward zero (log entry 61); the most negative number by -1 has an open result (log entry 60). -/
def Claims.MulDivResults : Prop := ∀ (s : State) (rd ra rb : BitVec 5), Runs s 4 →
  let a := (coreIn s.dev).get ra
  let b := (coreIn s.dev).get rb
  exec (.mul rd ra rb) s = .next (rdNext s 4 rd (a * b)) ∧
  exec (.mulh rd ra rb) s = .next (rdNext s 4 rd (BitVec.ofInt 32 (a.toInt * b.toInt / 2 ^ 32))) ∧
  exec (.mulhu rd ra rb) s = .next (rdNext s 4 rd ((a.zeroExtend 64 * b.zeroExtend 64).extractLsb' 32 32)) ∧
  exec (.divu rd ra rb) s = .next (rdNext s 4 rd (if b = 0 then 0xFFFFFFFF else a / b)) ∧
  exec (.remu rd ra rb) s = .next (rdNext s 4 rd (if b = 0 then a else a % b)) ∧
  (b = 0 → exec (.div rd ra rb) s = .next (rdNext s 4 rd 0xFFFFFFFF) ∧ exec (.rem rd ra rb) s = .next (rdNext s 4 rd a)) ∧
  (b ≠ 0 → ¬ (a = 0x80000000 ∧ b = 0xFFFFFFFF) →
    exec (.div rd ra rb) s = .next (rdNext s 4 rd (BitVec.ofInt 32 (a.toInt.tdiv b.toInt))) ∧
    exec (.rem rd ra rb) s = .next (rdNext s 4 rd (BitVec.ofInt 32 (a.toInt.tmod b.toInt)))) ∧
  (∃ v w, exec (.div rd ra rb) s = .next (rdNext s 4 rd v) ∧ exec (.rem rd ra rb) s = .next (rdNext s 4 rd w))

/-- R377, R379: the immediate instructions; a 14-bit immediate is sign-extended, LUI gives imm19 times 2^13 and LI imm19
sign-extended. -/
def Claims.ImmediateResults : Prop := ∀ (s : State) (c : Bool) (rd ra : BitVec 5) (imm : BitVec 14) (up : BitVec 19),
  Runs s (instrLen c) →
  let a := (coreIn s.dev).get ra
  let i := imm.signExtend 32
  exec (.addi c rd ra imm) s = .next (rdNext s (instrLen c) rd (a + i)) ∧
  exec (.li c rd up) s = .next (rdNext s (instrLen c) rd (up.signExtend 32)) ∧
  (c = false →
    exec (.andi rd ra imm) s = .next (rdNext s 4 rd (a &&& i)) ∧
    exec (.ori rd ra imm) s = .next (rdNext s 4 rd (a ||| i)) ∧
    exec (.xori rd ra imm) s = .next (rdNext s 4 rd (a ^^^ i)) ∧
    exec (.slti rd ra imm) s = .next (rdNext s 4 rd (if a.slt i then 1 else 0)) ∧
    exec (.sltiu rd ra imm) s = .next (rdNext s 4 rd (if a.ult i then 1 else 0)) ∧
    exec (.lui rd up) s = .next (rdNext s 4 rd (BitVec.ofNat 32 (up.toNat * 2 ^ 13))))

/-- What `rdNext` and `pcNext` change: rd and the pc of the core in service, and nothing else of the machine. Every register
code at another place keeps its value (R378). -/
def Claims.RdFrame : Prop := ∀ (s : State) (len : Nat) (rd : BitVec 5) (v a : Word),
  let k := coreIn s.dev
  let u := rdNext s len rd v
  let p := pcNext s a
  (coreIn u.dev).get rd = v ∧ (coreIn u.dev).pc = k.pc + nw len ∧
  (∀ r : BitVec 5, regPlace k r.toNat ≠ regPlace k rd.toNat → (coreIn u.dev).get r = k.get r) ∧
  (coreIn u.dev) = { k with pc := (coreIn u.dev).pc, g := (coreIn u.dev).g, w := (coreIn u.dev).w, h := (coreIn u.dev).h } ∧
  coreIn p.dev = { k with pc := a } ∧
  (∀ q, q = u ∨ q = p → q.tagm = s.tagm ∧ q.pending = s.pending ∧ otherCore q.dev = otherCore s.dev ∧
    q.dev.cpu = { s.dev.cpu with m := q.dev.cpu.m, s := q.dev.cpu.s } ∧ q.dev = { s.dev with cpu := q.dev.cpu })

/-- R380: window WIN shows c0-c7, k0-k7 and p0-p7 as windowed registers 16w to 16w + 23, counted modulo 256; the codes are
those of R378, with NEST at 0. -/
def Obligations.WindowRegisters : Prop := ∀ (k : Core) (j : Fin 8), k.nest = false →
  k.get (BitVec.ofNat 5 j) = nth 0 k.g j ∧
  k.get (BitVec.ofNat 5 (8 + j)) = nth 0 k.w ((16 * k.win + j) % 256) ∧
  k.get (BitVec.ofNat 5 (16 + j)) = nth 0 k.w ((16 * k.win + 8 + j) % 256) ∧
  k.get (BitVec.ofNat 5 (24 + j)) = nth 0 k.w ((16 * k.win + 16 + j) % 256) ∧
  ({ k with nest := true } : Core).get (BitVec.ofNat 5 (16 + j)) = nth 0 k.h j

/-- R376: loads from data SRAM and instruction SRAM, big-endian, in the ranges a mode may read; a load from the register
space is a read of a register by that mode. Loads change rd and the pc alone. -/
def Claims.LoadResults : Prop := ∀ (s : State) (c : Bool) (rd ra : BitVec 5) (imm : BitVec 14), Runs s (instrLen c) →
  let k := coreIn s.dev
  let a := k.get ra + imm.signExtend 32
  (∀ m : CMap Word, ∀ base : Nat,
    ((m = s.dev.cpu.dsram ∧ base = 0x10000000 ∧ a.toNat < 0x10040000 ∧ (if k.sup then 0x10000000 else 0x1003C000) ≤ a.toNat) ∨
     (m = k.isram ∧ base = 0 ∧ a.toNat < 0x40000 ∧ (if k.sup then 0 else 0x30000) ≤ a.toNat)) →
    let x := a.toNat - base
    (a.toNat % 4 = 0 → exec (.ldw c rd ra imm false) s =
      .next (rdNext s (instrLen c) rd (byteOf m x ++ byteOf m (x + 1) ++ byteOf m (x + 2) ++ byteOf m (x + 3)))) ∧
    (c = false → a.toNat % 2 = 0 →
      exec (.ldh rd ra imm false) s = .next (rdNext s 4 rd ((byteOf m x ++ byteOf m (x + 1)).signExtend 32)) ∧
      exec (.ldhu rd ra imm false) s = .next (rdNext s 4 rd ((byteOf m x ++ byteOf m (x + 1)).zeroExtend 32))) ∧
    (c = false →
      exec (.ldb rd ra imm false) s = .next (rdNext s 4 rd ((byteOf m x).signExtend 32)) ∧
      exec (.ldbu rd ra imm false) s = .next (rdNext s 4 rd ((byteOf m x).zeroExtend 32)))) ∧
  (a.toNat % 4 = 0 → 0x20000000 ≤ a.toNat → a.toNat < 0x20002000 →
    exec (.ldw c rd ra imm false) s =
      .next (rdNext (readReg (modeReader k.sup) false ((a.toNat - 0x20000000) / 4) s).1 (instrLen c) rd
        (readReg (modeReader k.sup) false ((a.toNat - 0x20000000) / 4) s).2))

/-- R376: stores to data SRAM, big-endian. The stored bytes are the form's width at the address; every other byte of data
SRAM, every register and everything else of the machine keeps its value, and the pc moves on. A store of a word to the
register space is a write of that register by the mode, after the pc has moved on. -/
def Claims.StoreResults : Prop := ∀ (s : State) (c : Bool) (rd ra : BitVec 5) (imm : BitVec 14) (size : Nat) (i : Instr),
  (i = .stw c rd ra imm ∧ size = 4 ∨ c = false ∧ (i = .sth rd ra imm ∧ size = 2 ∨ i = .stb rd ra imm ∧ size = 1)) →
  Runs s (instrLen c) →
  let k := coreIn s.dev
  let a := k.get ra + imm.signExtend 32
  a.toNat % size = 0 →
  (a.toNat < 0x10040000 → (if k.sup then 0x10000000 else 0x1003C000) ≤ a.toNat →
    GivesDev i s fun d =>
      (∀ x, byteOf d.cpu.dsram x =
        if a.toNat - 0x10000000 ≤ x ∧ x < a.toNat - 0x10000000 + size then storedByte size (k.get rd) (x - (a.toNat - 0x10000000))
        else byteOf s.dev.cpu.dsram x) ∧
      coreIn d = { k with pc := k.pc + nw (instrLen c) } ∧ otherCore d = otherCore s.dev ∧
      d = { s.dev with cpu := { s.dev.cpu with dsram := d.cpu.dsram, m := d.cpu.m, s := d.cpu.s } }) ∧
  (k.sup = true → a.toNat < 0x40000 → 0x30000 ≤ a.toNat →
    GivesDev i s fun d =>
      (∀ x, byteOf (coreIn d).isram x =
        if a.toNat ≤ x ∧ x < a.toNat + size then storedByte size (k.get rd) (x - a.toNat) else byteOf k.isram x) ∧
      coreIn d = { k with pc := k.pc + nw (instrLen c), isram := (coreIn d).isram } ∧ d = setCore (coreIn d) s.dev) ∧
  (size = 4 → 0x20000000 ≤ a.toNat → a.toNat < 0x20002000 →
    exec i s = .next (writeReg (modeReader k.sup) false ((a.toNat - 0x20000000) / 4) (k.get rd)
      (pcNext s (k.pc + nw (instrLen c)))).1)

/-- R376, R385: a misaligned load or store raises ALIGN, and one outside the ranges of its mode DACCESS: with NEST at 0 in
supervisor mode the trap is entered with the address in TVAL and TRA at the instruction. -/
def Claims.AccessTraps : Prop := ∀ (s : State) (c : Bool) (rd ra : BitVec 5) (imm : BitVec 14),
  Runs s (instrLen c) → (coreIn s.dev).sup = true → (coreIn s.dev).nest = false →
  let k := coreIn s.dev
  let a := k.get ra + imm.signExtend 32
  let out := fun cause => withCore s (k.trapEnter cause a k.pc)
  (a.toNat % 4 ≠ 0 → exec (.ldw c rd ra imm false) s = .next (out 4) ∧ exec (.stw c rd ra imm) s = .next (out 4)) ∧
  (a.toNat % 4 = 0 → (0x30000000 ≤ a.toNat ∨ 0x10040000 ≤ a.toNat ∧ a.toNat < 0x20000000) →
    exec (.ldw c rd ra imm false) s = .next (out 5) ∧ exec (.stw c rd ra imm) s = .next (out 5)) ∧
  (a.toNat % 4 = 0 → a.toNat < 0x30000 → exec (.stw c rd ra imm) s = .next (out 5))

/-- R377, R379: branches and J. Whether an offset counts from the instruction or from the next is open (log entry 59): both
forms go through `target`. Nothing but the pc changes. -/
def Claims.BranchResults : Prop := ∀ (s : State) (c : Bool) (ra rb : BitVec 5) (off : BitVec 14) (far : BitVec 24),
  Runs s (instrLen c) →
  let k := coreIn s.dev
  let a := k.get ra
  let b := k.get rb
  let next := k.pc + nw (instrLen c)
  let dest := target k.pc (instrLen c) (off.signExtend 32)
  exec (.bz c ra off) s = .next (pcNext s (if a = 0 then dest else next)) ∧
  exec (.bnz c ra off) s = .next (pcNext s (if a = 0 then next else dest)) ∧
  exec (.j c far) s = .next (pcNext s (target k.pc (instrLen c) (far.signExtend 32))) ∧
  (c = false →
    exec (.beq ra rb off) s = .next (pcNext s (if a = b then dest else next)) ∧
    exec (.bne ra rb off) s = .next (pcNext s (if a = b then next else dest)) ∧
    exec (.blt ra rb off) s = .next (pcNext s (if a.slt b then dest else next)) ∧
    exec (.bge ra rb off) s = .next (pcNext s (if a.slt b then next else dest)) ∧
    exec (.bltu ra rb off) s = .next (pcNext s (if a.ult b then dest else next)) ∧
    exec (.bgeu ra rb off) s = .next (pcNext s (if a.ult b then next else dest)) ∧
    exec (.jr ra) s = .next (pcNext s a)) ∧
  ((∀ pc o : Word, ∀ n, target pc n o = pc + o + o) ∨ (∀ pc o : Word, ∀ n, target pc n o = pc + nw n + o + o))

/-- R381, R382: CALL and CALLR move up one window: DEPTH rises, the callee's c0-c7 are the caller's p0-p7, k7 holds the
return address and the globals stay; RET goes to the address in k7 and back one window; RET undoes CALL. -/
def Claims.CallReturn : Prop := ∀ (s : State) (off : BitVec 24) (ra : BitVec 5) (i : Instr) (dest : Word), Runs s 4 →
  let k := coreIn s.dev
  k.nest = false → k.depth < 15 →
  (i = .call off ∧ dest = target k.pc 4 (off.signExtend 32) ∨ i = .callr ra ∧ dest = k.get ra) →
  GivesDev i s (fun d =>
    let q := coreIn d
    d = setCore q s.dev ∧ q.pc = dest ∧ q.win = (k.win + 1) % 16 ∧ q.depth = k.depth + 1 ∧
    q.get 23 = k.pc + 4 ∧ (∀ j : Fin 8, q.get (BitVec.ofNat 5 (8 + j)) = k.get (BitVec.ofNat 5 (24 + j))) ∧
    (∀ j : Fin 8, q.get (BitVec.ofNat 5 j) = k.get (BitVec.ofNat 5 j)) ∧
    q = { k with pc := q.pc, win := q.win, depth := q.depth, w := q.w }) ∧
  (∀ c, Runs s (instrLen c) → 1 < k.depth →
    exec (.ret c) s = .next (withCore s { k with pc := k.get 23, win := (k.win + 15) % 16, depth := k.depth - 1 }))

/-- R382: a CALL at DEPTH 15 traps SPILL and a RET at DEPTH 1 traps FILL, before they act: TRA is the instruction and
neither WIN nor DEPTH changes. TVAL is open (log entry 64). -/
def Claims.WindowTraps : Prop := ∀ (s : State) (off : BitVec 24) (c : Bool),
  let k := coreIn s.dev
  k.nest = false →
  (Runs s 4 → 15 ≤ k.depth → GivesDev (.call off) s fun d => ∃ v, coreIn d = k.trapEnter 6 v k.pc) ∧
  (Runs s (instrLen c) → k.depth ≤ 1 → GivesDev (.ret c) s fun d => ∃ v, coreIn d = k.trapEnter 7 v k.pc)

/-- R382: WSPILL stores c0-c7 and k0-k7 of window WIN - 14 as 16 words from WSP - 64 upwards, lowers WSP by 64 and DEPTH by
one and clears h0; WFILL loads those of window WIN - 1 from WSP, raises WSP by 64 and DEPTH by one and clears h0. -/
def Claims.WindowStack : Prop := ∀ (s : State), RunsSup s →
  let k := coreIn s.dev
  (k.wlim.toNat + 64 ≤ k.wsp.toNat → frameIn (k.wsp - 64) = true → k.wsp.toNat % 64 = 0 →
    GivesDev .wspill s fun d =>
      (coreIn d).wsp = k.wsp - 64 ∧ (coreIn d).depth = k.depth - 1 ∧ nth 0 (coreIn d).h 0 = 0 ∧ (coreIn d).pc = k.pc + 4 ∧
      (coreIn d).w = k.w ∧ (coreIn d).win = k.win ∧
      (∀ j, memW d.cpu.dsram j =
        if (k.wsp.toNat - 64 - 0x10000000) / 4 ≤ j ∧ j < (k.wsp.toNat - 64 - 0x10000000) / 4 + 16
        then nth 0 k.w ((16 * ((k.win + 2) % 16) + (j - (k.wsp.toNat - 64 - 0x10000000) / 4)) % 256)
        else memW s.dev.cpu.dsram j)) ∧
  (k.wsp ≠ k.wtop → frameIn k.wsp = true → k.wsp.toNat % 64 = 0 →
    GivesDev .wfill s fun d =>
      (coreIn d).wsp = k.wsp + 64 ∧ (coreIn d).depth = k.depth + 1 ∧ nth 0 (coreIn d).h 0 = 0 ∧ (coreIn d).pc = k.pc + 4 ∧
      d.cpu.dsram = s.dev.cpu.dsram ∧
      (∀ j, j < 16 → nth 0 (coreIn d).w ((16 * ((k.win + 15) % 16) + j) % 256) =
        memW s.dev.cpu.dsram ((k.wsp.toNat - 0x10000000) / 4 + j)))

/-- R383, R384: RTT copies TSTATE into STATE and continues at TRA; CSRRD and CSRWR reach the core state registers, and what
CSRWR writes CSRRD reads back; FENCE only advances; in user mode CSRRD of STATE, WCTL and CYCLE is allowed. -/
def Claims.SystemInstructions : Prop := ∀ (s : State) (r : BitVec 5), Runs s 4 →
  let k := coreIn s.dev
  exec .fence s = .next (pcNext s (k.pc + 4)) ∧
  (k.sup = true → exec .rtt s = .next (withCore s
    { k with sup := bit k.tstate 0, nest := bit k.tstate 1, inton := bit k.tstate 2, pc := k.tra })) ∧
  (∀ n : Fin 11, k.sup = true ∨ n.val = 0 ∨ n.val = 1 ∨ n.val = 7 →
    ∃ v, csrRead s.dev n = some v ∧ exec (.csrrd r (BitVec.ofNat 5 n)) s = .next (rdNext s 4 r v)) ∧
  csrRead s.dev 2 = some k.tra ∧ csrRead s.dev 3 = some k.tstate ∧ csrRead s.dev 4 = some k.tcause ∧
  csrRead s.dev 5 = some k.tval ∧ csrRead s.dev 6 = some k.tentry ∧ csrRead s.dev 8 = some k.wsp ∧
  (∀ n : Fin 11, k.sup = true → GivesDev (.csrwr r (BitVec.ofNat 5 n)) s fun d =>
    (coreIn d).pc = k.pc + 4 ∧ (coreIn d).g = k.g ∧ (coreIn d).w = k.w ∧ (coreIn d).h = k.h ∧ d = setCore (coreIn d) s.dev ∧
    (n.val = 2 ∨ n.val = 3 ∨ n.val = 4 ∨ n.val = 5 ∨ n.val = 7 → csrRead d n = some (k.get r)))

/-- R384, R385: TRAP from firmware or of a service the applet may name enters the handler with cause 0x0B, the service number
in TVAL and TRA at the next instruction; an interrupt taken while INTON is 1 enters it with its cause and TRA at the pc.
WIN and DEPTH do not change; with INTON at 0 or a core that does not run INTERRUPT_ENTRY does nothing. TVAL of an interrupt is open (log entry 64). -/
def Claims.TrapEntry : Prop := ∀ (s : State) (imm : BitVec 14) (t : Nat) (cause : Fin 16),
  let k := coreIn s.dev
  let x := tick t s.dev
  (Runs s 4 → k.nest = false → (k.sup = true ∨ serviceAllowed s.dev imm.toNat = true) →
    exec (.trap imm) s = .next (withCore s { k with
      tra := k.pc + 4, tstate := k.stateWord, tcause := 11, tval := imm.zeroExtend 32, sup := true, nest := true, inton := false,
      pc := k.tentry })) ∧
  (coreRuns s.dev = true → k.inton = true →
    GivesDev (.interruptEntry t cause) s fun d => ∃ v,
      coreIn d = { k with tra := k.pc, tstate := k.stateWord, tcause := nw (16 + cause.val), tval := v, sup := true
                          nest := true, inton := false, pc := k.tentry } ∧
      d = setCore (coreIn d) { x with free := x.free + 1 }) ∧
  (coreRuns s.dev = false ∨ k.inton = false → Does (.interruptEntry t cause) s x)

/-- R385, R386, R397: a TRAP that names another service stops the applet: it runs no longer, its cause and PC are recorded,
APL_TRAP and APL_STOP are set and the core is in the handler. -/
def Claims.AppletStops : Prop := ∀ (s : State) (imm : BitVec 14), Runs s 4 →
  let k := coreIn s.dev
  k.nest = false → k.sup = false → serviceAllowed s.dev imm.toNat = false → s.dev.cpu.apl.fq = [] → s.dev.cpu.apl.filter = none →
  s.dev.cpu.apl.xchg = none → s.dev.cpu.apl.cmds = [] → s.dev.cpu.apl.taken = [] →
  GivesDev (.trap imm) s fun d =>
    d.cpu.apl.run = false ∧ bit (reg d Reg.CORE_EVENT) 0 = true ∧ bit (reg d Reg.CORE_EVENT) 1 = true ∧
    reg d Reg.CORE_APL_STAT = put 31 24 11 ||| put 17 0 k.pc.toNat ∧ (coreIn d).sup = true ∧ (coreIn d).pc = k.tentry

/-- R394, R414, R415, R418: in supervisor mode with an interrupt pending WAIT retires at once; without one the core stops fetching after it,
and a domain that is ON, is asked to go lower and is needed by no operation begins its entry, the core's own and MEM_RING after the
others. In user mode WAIT changes no domain: the pc moves on. -/
def Claims.WaitResults : Prop := ∀ (s : State) (t : Nat), Runs s 4 →
  let k := coreIn s.dev
  let x := tick t s.dev
  let moved := setCore { k with pc := k.pc + 4 } x
  let waits := fun (d : Dev) => coreIn d = { k with pc := k.pc + 4, st := .wait } ∧ d = { x with cpu := d.cpu, pmu := d.pmu }
  Does (.wait t true) s moved ∧ (k.sup = false → Does (.wait t false) s moved) ∧
  (k.sup = true → (∀ n, n < 14 → (dom s.dev n).pend = none ∧ ∀ o u, (dom s.dev n).pos ≠ .entering o 0 u) →
    GivesDev (.wait t false) s fun d => waits d ∧ d.pmu = x.pmu) ∧
  (∀ n m, k.sup = true → 1 ≤ n → n ≤ 12 → n ≠ coreDom s.dev → n ≠ 6 → (dom s.dev n).pos = .on → (dom s.dev n).pend = some m → (m = 1 ∨ m = 2) →
    domNeeded s.dev n = false → GivesDev (.wait t false) s fun d => waits d ∧
      dom d n = { dom s.dev n with pos := .entering (decide (m = 2)) 1 x.now, pend := none })

/-- R388-R391: a customer instruction whose decode entry is enabled runs its micro-program: one micro-op with LAST whose
operation computes A op B into rd writes rd and moves the pc on; a disabled entry traps ILLEGAL and leaves rd. -/
def Claims.CustomerInstruction : Prop := ∀ (s : State) (sel : Fin 16) (rd ra rb imm : BitVec 5) (w : BitVec 48), Runs s 4 →
  let k := coreIn s.dev
  let e := decWord k sel
  (bit e 31 = true → (bit e 30 = true → k.sup = true) → csWord k (fld e 15 8 % 256) = w →
    bit w 47 = true → fld w 41 38 = 1 → fld w 37 34 = 2 → fld w 33 30 = 3 →
    (fld w 46 42 = 0x01 → exec (.cus sel rd ra rb imm false) s = .next (rdNext s 4 rd (k.get ra + k.get rb))) ∧
    (fld w 46 42 = 0x05 → exec (.cus sel rd ra rb imm false) s = .next (rdNext s 4 rd (k.get ra ^^^ k.get rb))) ∧
    (fld w 46 42 = 0x06 → exec (.cus sel rd ra rb imm false) s = .next (rdNext s 4 rd (k.get ra <<< ((k.get rb).toNat % 32)))) ∧
    (fld w 46 42 = 0x0E → exec (.cus sel rd ra rb imm false) s =
      .next (rdNext s 4 rd (if (k.get rb).ult (k.get ra) then k.get rb else k.get ra)))) ∧
  (bit e 31 = false → k.nest = false → k.sup = true →
    GivesDev (.cus sel rd ra rb imm false) s fun d => ∃ v, coreIn d = k.trapEnter 1 v k.pc)

/-- R144, R157-R160, R166, R387: the sequencer port, with SEQ ON, in supervisor mode. A function with no stated result leaves
an open value in rd (log entry 66). TSTART starts the threads of its mask at the step of rb in this tick; TRESUME puts a
SUSPENDED thread back; ABREQ leaves a request on a running thread; SWFLAG sets over clear; TPATCH writes one step of the set in
force; no other thread, flag or step changes. -/
def Claims.SequencerPort : Prop := ∀ (s : State) (rd ra rb : BitVec 5), RunsSup s → domOn s.dev 7 = true →
  let k := coreIn s.dev
  let a := k.get ra
  let b := k.get rb
  let done := fun (d : Dev) => (∃ v, coreIn d = { k.put rd v with pc := k.pc + 4 }) ∧
    d = { s.dev with cpu := d.cpu, seq := d.seq, set0 := d.set0, set1 := d.set1, free := d.free }
  (b ≠ 0xFFFFFFFF → GivesDev (.tstart rd ra rb) s fun d => done d ∧ ∀ n, n < 4 →
    thr d n = if bit a n then { Thread.reset with
      st := .waiting, step := b.toNat % 4096, anchor := s.dev.now, fetchAt := s.dev.now, toFetch := true, op := (thr s.dev n).op }
    else thr s.dev n) ∧
  (GivesDev (.tresume rd ra rb) s fun d => done d ∧ ∀ n, n < 4 →
    thr d n = if bit a n ∧ (thr s.dev n).st = .suspended then { thr s.dev n with
      st := .waiting, toFetch := true, fetchAt := s.dev.now, abort := .none }
    else thr s.dev n) ∧
  (b.toNat ≤ 2 → GivesDev (.abreq rd ra rb) s fun d => done d ∧ ∀ n, n < 4 →
    thr d n = if bit a n ∧ ((thr s.dev n).st = .waiting ∨ (thr s.dev n).st = .held) then { thr s.dev n with
      abort := if b = 0 then .none else if b = 1 then .suspend else .cancel, abortAt := s.dev.now }
    else thr s.dev n) ∧
  (GivesDev (.swflag rd ra rb) s fun d => done d ∧ ∀ i, i < 8 →
    d.seq.sw.getLsbD i = (bit a i || (s.dev.seq.sw.getLsbD i && !bit b i))) ∧
  (GivesDev (.tpatch rd ra rb) s fun d => done d ∧ shadowSet d = shadowSet s.dev ∧ ∀ x,
    tabStep d x = if x = a.toNat % 4096 then b ++ k.get rd else tabStep s.dev x)

/-- R144, R387: THALT of thread A or B with no window open halts it with `SEQ_EVENT` bit n; a thread already HALTED is
unchanged; no other thread changes. -/
def Claims.ThreadHaltPort : Prop := ∀ (s : State) (rd ra rb : BitVec 5) (n : Nat), RunsSup s → domOn s.dev 7 = true →
  let k := coreIn s.dev
  (n = 1 ∨ n = 2) → k.get ra = BitVec.ofNat 32 (2 ^ n) → s.dev.chA.win = none → s.dev.chB.win = none → s.dev.ops = [] →
  GivesDev (.thalt rd ra rb) s fun d =>
    (thr d n).st = .halted ∧ (∀ m, m ≠ n → thr d m = thr s.dev m) ∧ (∃ v, coreIn d = { k.put rd v with pc := k.pc + 4 }) ∧
    ((thr s.dev n).st ≠ .halted → bit (reg d Reg.SEQ_EVENT) n = true) ∧
    ((thr s.dev n).st = .halted → thr d n = thr s.dev n ∧ reg d Reg.SEQ_EVENT = reg s.dev Reg.SEQ_EVENT)

/-- R154, R158, R387: CONDRD gives the low or high condition word of a thread, bit by bit the conditions of R154; LOGPOP moves
the oldest slot-log entry to memory and answers 1, or 0 with the log empty; DOORBELL answers the oldest code, or ones. -/
def Claims.SequencerReads : Prop := ∀ (s : State) (rd ra rb : BitVec 5), Runs s 4 → domOn s.dev 7 = true →
  let k := coreIn s.dev
  let a := k.get ra
  (∃ w, exec (.condrd rd ra rb) s = .next (rdNext s 4 rd w) ∧
    ∀ i, i < 32 → w.getLsbD i = condition s.dev (fld a 2 1) ((if bit a 0 then 32 else 0) + i)) ∧
  (k.sup = true →
    (s.dev.seq.log = [] → canWrite true a.toNat 4 = true → exec (.logpop rd ra rb) s = .next (rdNext s 4 rd 0)) ∧
    (∀ w0 w1 w2 w3 rest, s.dev.seq.log = [w0, w1, w2, w3] :: rest →
      0x10000000 ≤ a.toNat → a.toNat + 16 ≤ 0x10040000 → a.toNat % 4 = 0 →
      GivesDev (.logpop rd ra rb) s fun d =>
        d.seq.log = rest ∧ coreIn d = { k.put rd 1 with pc := k.pc + 4 } ∧
        ∀ x, memW d.cpu.dsram x = if x = (a.toNat - 0x10000000) / 4 then w0
          else if x = (a.toNat - 0x10000000) / 4 + 1 then w1
          else if x = (a.toNat - 0x10000000) / 4 + 2 then w2
          else if x = (a.toNat - 0x10000000) / 4 + 3 then w3 else memW s.dev.cpu.dsram x) ∧
    (s.dev.seq.bells = [] → exec (.doorbell rd ra rb) s = .next (rdNext s 4 rd 0xFFFFFFFF)) ∧
    (∀ n code rest, s.dev.seq.bells = (n, code) :: rest → GivesDev (.doorbell rd ra rb) s fun d =>
      d.seq = { s.dev.seq with bells := rest } ∧ coreIn d = { k.put rd (nw code) with pc := k.pc + 4 }))

/-- R226, R227, R229, R235, R387: the Comb port. LOOKUP answers the home cell of an EPC, or 0x1_FFFF; CELLRD copies the cell
by the dump rule; FREE leaves the cell not VALID; PLACE of a known tag answers its cell and counts the read; SWEEP of the
background sweep answers the bucket done. -/
def Claims.CombPort : Prop := ∀ (s : State) (rd ra rb : BitVec 5), Runs s 4 →
  let k := coreIn s.dev
  let a := k.get ra
  let b := k.get rb
  (∀ u epc, readEpc k.sup a.toNat s = some (u, epc) → coreIn u.dev = k →
    exec (.cp1Lookup rd ra rb) s = .next (rdNext u 4 rd (nw ((combFind u.dev epc).getD 0x1FFFF)))) ∧
  (b.toNat < 131072 → a.toNat % 4 = 0 → 0x1003C000 ≤ a.toNat → a.toNat + 32 ≤ 0x10040000 →
    GivesDev (.cp1Cellrd rd ra rb) s fun d => d.comb = s.dev.comb ∧ (∃ v, coreIn d = { k.put rd v with pc := k.pc + 4 }) ∧
      ∀ j, j < 8 → memW d.cpu.dsram ((a.toNat - 0x10000000) / 4 + j) = dumpWord s.dev (cellWords s.dev b.toNat) j) ∧
  (k.sup = true →
    (a.toNat < 131072 → GivesDev (.cp1Free rd ra rb) s fun d =>
      cellValid d a.toNat = false ∧ (∃ v, coreIn d = { k.put rd v with pc := k.pc + 4 }) ∧
      (cellExt s.dev a.toNat = false → ∀ c w, w < 8 → c ≠ a.toNat → cellW d c w = cellW s.dev c w)) ∧
    (∀ u r c, readDesc true a.toNat s = some (u, r) → coreIn u.dev = k → fenced u.dev 0x05 = false → domOn u.dev 5 = true →
      combFind u.dev r.epc = some c →
      Gives (.cp1Place rd ra rb) s fun x =>
        (∃ v, fld v 16 0 = c % 2 ^ 17 ∧ coreIn x.dev = { k.put rd v with pc := k.pc + 4 }) ∧
        cellW x.dev c 5 = u.dev.tb.cyc.extractLsb' 0 32 ∧ x.dev.comb.places = u.dev.comb.places + 1 ∧
        x.tagm = u.tagm ∧ x.dev.rings = u.dev.rings) ∧
    (s.dev.comb.sweep = none → s.dev.comb.retired.contains (s.dev.comb.pos / 8) = true →
      GivesDev (.cp1Sweep rd ra rb) s fun d =>
        d.comb = { s.dev.comb with pos := 8 * (s.dev.comb.pos / 8 + 1) % 131072 } ∧
        coreIn d = { k.put rd (nw (s.dev.comb.pos / 8)) with pc := k.pc + 4 }))

/-- R387: the check-code port keeps one context for each mode. CRCINIT presets the context of the mode, CRCFEED passes bytes
of memory through it, CRCRD reads its result, and the other mode's context never changes. -/
def Claims.CheckCodePort : Prop := ∀ (s : State) (rd ra rb : BitVec 5), Runs s 4 →
  let k := coreIn s.dev
  let a := k.get ra
  let b := k.get rb
  exec (.cp2Crcrd rd ra rb) s = .next (rdNext s 4 rd (crcResult (crcCtx k.sup s.dev))) ∧
  (fld a 1 0 = 2 → GivesDev (.cp2Crcinit rd ra rb) s fun d =>
    crcCtx k.sup d = ⟨2, bit a 4, 0xFFFFFFFF⟩ ∧ crcCtx (!k.sup) d = crcCtx (!k.sup) s.dev ∧
    (∃ v, coreIn d = { k.put rd v with pc := k.pc + 4 }) ∧ d = { s.dev with cpu := d.cpu, free := d.free }) ∧
  (fld a 1 0 = 1 → fld a 3 2 ≤ 2 → GivesDev (.cp2Crcinit rd ra rb) s fun d =>
    crcCtx k.sup d = ⟨1, bit a 4, if fld a 3 2 = 0 then 0xFFFF else if fld a 3 2 = 1 then 0x6363 else 0⟩) ∧
  (∀ u bs, 1 ≤ b.toNat → b.toNat ≤ 4096 → readBytes k.sup a.toNat b.toNat s = some (u, bs) → coreIn u.dev = k →
    Gives (.cp2Crcfeed rd ra rb) s fun x =>
      crcCtx k.sup x.dev = crcFeed (crcCtx k.sup u.dev) bs ∧ crcCtx (!k.sup) x.dev = crcCtx (!k.sup) u.dev ∧
      (∃ v, coreIn x.dev = { k.put rd v with pc := k.pc + 4 }) ∧ x.tagm = u.tagm)

/-- R237, R387: the hasher port. EPKEY loads the epoch key of E; PSEUD stores the pseudonym of an EPC under the epoch in
force, 8 bytes; SIPHASH stores the SipHash-2-4 of a message under the key before its result. -/
def Claims.HasherPort : Prop := ∀ (s : State) (rd ra rb : BitVec 5), Runs s 4 →
  let k := coreIn s.dev
  let a := k.get ra
  let b := k.get rb
  (∀ key, k.sup = true → s.dev.dmk.key = some key → GivesDev (.cp3Epkey rd ra rb) s fun d =>
    d.dmk = { s.dev.dmk with epKey := epochKey key a } ∧ (∃ v, coreIn d = { k.put rd v with pc := k.pc + 4 })) ∧
  (∀ u epc, readEpc k.sup a.toNat s = some (u, epc) → u.dev = s.dev → s.dev.dmk.key.isSome = true →
    b.toNat % 4 = 0 → 0x1003C000 ≤ b.toNat → b.toNat + 8 ≤ 0x10040000 →
    Gives (.cp3Pseud rd ra rb) s fun x =>
      memW x.dev.cpu.dsram ((b.toNat - 0x10000000) / 4) ++ memW x.dev.cpu.dsram ((b.toNat - 0x10000000) / 4 + 1) =
        pseudonym s.dev s.dev.dmk.epoch epc ∧ x.dev.dmk = s.dev.dmk ∧ (∃ v, coreIn x.dev = { k.put rd v with pc := k.pc + 4 })) ∧
  (∀ n u₁ u₂ u₃ msg key, readWords k.sup a.toNat 1 s = some (u₁, [n]) → n.toNat ≤ 0x40000 →
    readBytes k.sup b.toNat 16 s = some (u₂, key) → readBytes k.sup (a.toNat + 4) n.toNat s = some (u₃, msg) → u₃.dev = s.dev →
    b.toNat % 4 = 0 → 0x1003C000 ≤ b.toNat → b.toNat + 24 ≤ 0x10040000 →
    Gives (.cp3Siphash rd ra rb) s fun x =>
      memW x.dev.cpu.dsram ((b.toNat + 16 - 0x10000000) / 4) ++ memW x.dev.cpu.dsram ((b.toNat + 16 - 0x10000000) / 4 + 1) =
        leValue (sipHash (le64 (key.take 8)) (le64 (key.drop 8)) msg) ∧ (∃ v, coreIn x.dev = { k.put rd v with pc := k.pc + 4 }))

/-- R384, R397, R398: YIELD, WAIT_EVENT, WAIT_EVENT_TIMER, CMD_GET, CMD_REPLY, APPLET_POST, TAG_XCHG, TIME_SERVICE: a service ends with its results in p0 and p1 and the applet goes on after its TRAP: YIELD has none; WAIT_EVENT waits
for the events of its mask, and ends with a doorbell's code or with its timer; CMD_GET copies the oldest command's block; CMD_REPLY
writes the final REPLY of its command; POST writes its record or answers 1; TAG_XCHG is refused with a status or becomes an access
operation under its command's tag; TIME answers the cycle count and the phase word. -/
def Obligations.AppletServices : Prop := ∀ (s : State) (t : Nat),
  let d := tick t s.dev
  let a := s.dev.cpu.apl
  let arg := fun (n : Nat) => (coreIn s.dev).get (BitVec.ofNat 5 (24 + n))
  let withApl := fun (x : Applet) (e : Dev) => { e with cpu := { e.cpu with apl := x } }
  (∀ (k : Core) (v w : Word), let c := k.serviceEnd (some v) (some w)
    c.get 24 = v ∧ c.get 25 = w ∧ c.pc = k.tra ∧ c.sup = bit k.tstate 0 ∧ c.nest = bit k.tstate 1 ∧ c.inton = bit k.tstate 2 ∧
    c.g = k.g ∧ c.h = k.h ∧ c.win = k.win) ∧
  (Serving s 0 → Does (.yield t) s (serviced none none d)) ∧
  (Serving s 1 → (bit (arg 0) 0 = true → a.cmds = []) → (bit (arg 0) 2 = true → a.bells = []) → (bit (arg 0) 1 = true → 0 < (arg 1).toNat) →
    Does (.waitEvent t) s (withApl { a with waiting := some (arg 0, if bit (arg 0) 1 then some (d.now + 160 * (arg 1).toNat) else none) } d)) ∧
  (∀ b rest, Serving s 1 → a.bells = b :: rest → arg 0 = 4 → Does (.waitEvent t) s
    (serviced (some 4) (some (nw b)) (withApl { a with waiting := none, bells := rest } d))) ∧
  (∀ e, Serving s 1 → a.waiting = some (2, some e) → e ≤ d.now → GivesDev (.waitEventTimer t) s fun u => (coreIn u).get 24 = 2 ∧
    (coreIn u).pc = (coreIn s.dev).tra ∧ u.cpu.apl = { a with waiting := none }) ∧
  (∀ e, a.waiting = some (2, some e) → d.now < e → Does (.waitEventTimer t) s d) ∧
  (∀ tag rest o, Serving s 2 → a.cmds = tag :: rest → findOp s.dev tag = some o → 0x1003C000 ≤ (arg 0).toNat → (arg 0).toNat % 4 = 0 →
    (arg 0).toNat + 4 * min (arg 1).toNat o.block.length ≤ 0x10040000 → GivesDev (.cmdGet t) s fun u =>
      let n := min (arg 1).toNat o.block.length
      let x := ((arg 0).toNat - 0x10000000) / 4
      (∀ i, memW u.cpu.dsram i = if x ≤ i ∧ i < x + n then nth 0 o.block (i - x) else memW s.dev.cpu.dsram i) ∧
      u = serviced (some (nw tag)) (some (nw n)) { d with cpu := { d.cpu with
        dsram := u.cpu.dsram, apl := { a with cmds := rest, taken := a.taken ++ [tag] } } }) ∧
  (∀ o v ws, Serving s 3 → (a.cmds ++ a.taken).contains (arg 0).toNat = true → (arg 3).toNat ≤ 250 →
    readWords false (arg 2).toNat (arg 3).toNat { s with dev := d } = some (v, ws) → findOp s.dev (arg 0).toNat = some o → o.opcode = 0x904 →
    o.ended = false → 4 ≤ o.rring → RoomFor s.dev o.rring (4 + ws.length) → hasHeld s.dev o.tag = false → s.dev.acc.op ≠ some o.tag →
    s.dev.cal.cmd = none → s.dev.svc.test = none → GivesDev (.cmdReply t) s fun u =>
      let status := fld (arg 1) 7 0
      WithRecord (serviced (some 0) none (withApl { a with
        cmds := a.cmds.filter (· ≠ (arg 0).toNat), taken := a.taken.filter (· ≠ (arg 0).toNat) }
          { d with ops := s.dev.ops.filter fun p => p.tag ≠ o.tag })) u o.rring 0x0001
        (replyBody d status true o.tag 0x904 o.progress (if status = 0 then .done else .failed) o.cring ws)) ∧
  (∀ v ws, Serving s 4 → 4 ≤ (arg 0).toNat → (arg 0).toNat ≤ 31 → 0x980 ≤ (arg 1).toNat → (arg 1).toNat ≤ 0x9FF → 1 ≤ (arg 3).toNat →
    (arg 3).toNat ≤ 254 → readWords false (arg 2).toNat (arg 3).toNat { s with dev := d } = some (v, ws) →
    (RoomFor s.dev (arg 0).toNat ws.length → GivesDev (.appletPost t) s fun u =>
      WithRecord (serviced (some 0) none d) u (arg 0).toNat (arg 1).toNat ws) ∧
    ((ring s.dev (arg 0).toNat).en = false → GivesDev (.appletPost t) s fun u => u.rings = s.dev.rings ∧ (coreIn u).get 24 = 1 ∧
      (coreIn u).pc = (coreIn s.dev).tra)) ∧
  (∀ tag x o, Serving s 5 → a.taken.getLast? = some tag → readXchg (arg 0).toNat { s with dev := d } = some x → findOp s.dev tag = some o →
    let o' := { o with opcode := 0x409, st := .queued, pend := .none, block := xchgBlock x, need := 3, progress := 0 }
    (∀ st, ownRefusal d o' = some st → Does (.tagXchg t) s (serviced (some (nw st)) (some 0) d)) ∧
    (ownRefusal d o' = none → mayStart (updOp tag (fun _ => o') d) o' = false → Does (.tagXchg t) s
      (updOp tag (fun _ => o') (withApl { a with xchg := some ⟨tag, arg 1, o.block⟩ } d))) ∧
    (ownRefusal d o' = none → mayStart (updOp tag (fun _ => o') d) o' = true → (opDomains d o').all (domOn d) = true → GivesDev (.tagXchg t) s fun u =>
      (u.ops.any fun q => decide (q.tag = tag ∧ q.st = .running ∧ q.opcode = 0x409)) = true ∧ (thr u 0).op = some tag ∧
      u.cpu.apl = { a with xchg := some ⟨tag, arg 1, o.block⟩ })) ∧
  (a.run = true → inService s.dev 6 = true → Does (.timeService t) s
    (serviced (some (s.dev.tb.cyc.extractLsb' 0 32)) (some (timePhaseWord d)) d)) ∧
  (∀ n, a.run = false ∨ inService s.dev n = false → ∀ i ∈ ([(.yield t, 0), (.waitEvent t, 1), (.cmdGet t, 2), (.cmdReply t, 3), (.appletPost t, 4),
    (.tagXchg t, 5), (.timeService t, 6)] : List (Instr × Nat)), i.2 = n → Does i.1 s d)

/-- R400: FILTER_CALL, FILTER_RET, FILTER_BUDGET_EXPIRY: a record that waits is passed to the filter, on its own stack and in user mode, with its budget; a filter that keeps it leaves it
to be written with its words, one that drops it is counted, and one that is late is abandoned, counted, and the record goes on as it stood.
In each case the flow that was preempted goes on where it was. -/
def Obligations.FilterCalls : Prop := ∀ (s : State) (t : Nat) (f : FilterCall),
  let d := tick t s.dev
  let a := s.dev.cpu.apl
  let back := fun (e : Dev) => setCore ((coreIn e).restore f.back) { e with cpu := { e.cpu with apl := { a with filter := none } } }
  (∀ item rest, a.fq = item :: rest → a.filter = none → bit (reg s.dev Reg.CORE_APL_CFG) 0 = true → a.fentry ≠ 0 → a.run = true →
    coreRuns s.dev = true → GivesDev (.filterCall t) s fun u =>
      u.cpu.apl = { a with fq := rest, filter := some ⟨item, d.now + 160 * max 1 (fld (reg s.dev Reg.CORE_APL_CFG) 15 8), (coreIn s.dev).save⟩ } ∧
      (coreIn u).pc = a.fentry ∧ (coreIn u).get 7 = 0x1003FFF8 ∧ (coreIn u).sup = false ∧ (coreIn u).win = ((coreIn s.dev).win + 2) % 16) ∧
  (a.fq = [] ∨ a.filter.isSome = true ∨ a.run = false → Does (.filterCall t) s d) ∧
  (∀ ws, a.filter = some f → a.run = true → inService s.dev 7 = true → (coreIn s.dev).get 24 = 1 → GivesDev (.filterRet t ws) s fun u =>
    fld (reg u Reg.CORE_APL_CNT) 31 16 = min 65535 (fld (reg s.dev Reg.CORE_APL_CNT) 31 16 + 1) ∧
    u = { back d with regs := u.regs, marks := u.marks } ∧ u.rings = s.dev.rings) ∧
  (∀ ws, a.filter = some f → a.run = true → inService s.dev 7 = true → (coreIn s.dev).get 24 = 0 → ws.length = f.item.body.length → 4 ≤ f.item.ring →
    RoomFor s.dev f.item.ring ws.length → GivesDev (.filterRet t (some ws)) s fun u =>
      WithRecord { back d with comb := { s.dev.comb with recs := s.dev.comb.recs + 1 } } u f.item.ring f.item.type ws) ∧
  (a.filter = none → ∀ ws, Does (.filterRet t ws) s d ∧ Does (.filterBudgetExpiry t) s d) ∧
  (a.filter = some f → f.deadline ≤ d.now → 4 ≤ f.item.ring → f.item.ring < 32 → RoomFor s.dev f.item.ring f.item.body.length →
    GivesDev (.filterBudgetExpiry t) s fun u => (ring u f.item.ring).recs = (ring s.dev f.item.ring).recs ++
        [(put 31 16 f.item.type ||| put 15 8 (f.item.body.length + 1) ||| put 7 0 (ring s.dev f.item.ring).nseq.toNat) :: f.item.body] ∧
      fld (reg u Reg.CORE_APL_CNT) 15 0 = min 65535 (fld (reg s.dev Reg.CORE_APL_CNT) 15 0 + 1) ∧
      bit (reg u Reg.CORE_EVENT) 5 = true ∧ u.cpu.apl = { a with filter := none } ∧ coreIn u = coreIn (back d)) ∧
  (a.filter = some f → d.now < f.deadline → Does (.filterBudgetExpiry t) s d)

/-- R401, R402: IMG_DATA_WRITE, IMG_RESTART: a word written to the image port counts and joins its CRC; a header word that is not that of R401 makes the image bad with
IMG_REJ; a word of a section goes to its address; with an applet that runs its target takes no word; RESTART begins a new image. -/
def Claims.ImagePort : Prop := ∀ (s : State) (t : Nat) (r : Reader) (v : Word), s.tagm.hostW = none → r ≠ .applet →
  domPower s.dev (coreDom s.dev) = .on →
  let p := s.dev.cpu.img
  let d := tick t s.dev
  let withImg := fun (x : ImgPort) => { d with cpu := { d.cpu with img := x } }
  let target := imgTarget s.dev
  (target = 0 → s.dev.cpu.apl.run = true → GivesDev (.imgDataWrite t r v) s fun e => bit (reg e Reg.CORE_EVENT) 3 = true ∧
    e = { d with regs := e.regs, marks := e.marks }) ∧
  (¬ (target = 0 ∧ s.dev.cpu.apl.run = true) → 0 < p.bytes → p.bytes < 32 → imgHeaderOk target (p.bytes / 4) v = true →
    Does (.imgDataWrite t r v) s (withImg { p with bytes := p.bytes + 4, hdr := p.hdr ++ [v] })) ∧
  (target = 2 → p.bytes = 0 → p.bad = false → v ≠ 0xADEA7416 → GivesDev (.imgDataWrite t r v) s fun e =>
    e.cpu.img = { p with bytes := 4, hdr := p.hdr ++ [v], bad := true } ∧ bit (reg e Reg.CORE_EVENT) 3 = true ∧
    e = { d with cpu := { s.dev.cpu with img := e.cpu.img }, regs := e.regs, marks := e.marks }) ∧
  (target = 2 → 32 ≤ p.bytes → p.bad = false → p.left ≠ 0 → p.at_.toNat < 0x40000 → GivesDev (.imgDataWrite t r v) s fun e =>
    (∀ i, memW (coreIn e).isram i = if i = p.at_.toNat / 4 then v else memW (coreIn s.dev).isram i) ∧
    e.cpu.img = { p with bytes := p.bytes + 4, crc := crcWord p.crc v, at_ := p.at_ + 4, left := p.left - 4 } ∧
    coreIn e = { coreIn s.dev with isram := (coreIn e).isram } ∧ otherCore e = otherCore s.dev ∧
    e = { d with cpu := { s.dev.cpu with m := e.cpu.m, s := e.cpu.s, img := e.cpu.img } }) ∧
  (32 ≤ p.bytes → p.bad = true → target = 2 → Does (.imgDataWrite t r v) s
    (withImg { p with bytes := p.bytes + 4, crc := crcWord p.crc v })) ∧
  (p.target < 4 → s.dev.cpu.mboxScan = false → Does (.imgRestart t r) s (withImg { ImgPort.reset with target := p.target }))

/-- R403, R404, R453, R462: IMG_BOOT, BOOT_ROM, WDOG: BOOT starts firmware at the entry of an image that is good, with READY, and sets IMG_REJ for one that is not;
outside the boot ROM it does nothing. With the boot strap the ROM reads the image from flash itself. The watchdog restarts the core:
threads halt and firmware starts again. -/
def Claims.FirmwareStarts : Prop := ∀ (s : State) (t : Nat) (r : Reader), s.tagm.hostW = none → r ≠ .applet →
  domPower s.dev (coreDom s.dev) = .on →
  let p := s.dev.cpu.img
  let started := fun (hdr : List Word) (u : State) => u.dev.sys.ready = true ∧ u.dev.cpu.bootRom = false ∧ (coreIn u.dev).pc = nth 0 hdr 3 ∧
    (coreIn u.dev).st = .run ∧ u.dev.sys.fwVer = nth 0 hdr 2 ∧ bit (reg u.dev Reg.SYS_EVENT) 0 = true
  let good := fun (x : ImgPort) => imgCheck x (nth 0 x.hdr 4).toNat (nth 0 x.hdr 5) = true
  (romRuns s.dev = true → p.target = 2 → good p → Gives (.imgBoot t r) s (started p.hdr)) ∧
  (romRuns s.dev = true → p.target = 2 → ¬ good p → GivesDev (.imgBoot t r) s fun d => bit (reg d Reg.CORE_EVENT) 3 = true ∧
    d = { tick t s.dev with regs := d.regs, marks := d.marks }) ∧
  (romRuns s.dev = false → s.dev.cpu.mboxScan = false → p.target < 4 → Does (.imgBoot t r) s (tick t s.dev)) ∧
  (∀ flash, romRuns s.dev = true → s.dev.sys.flash = true →
    let read := flash.foldl (fun d v => (imgWord v d).1) { tick t s.dev with cpu := { s.dev.cpu with img := { ImgPort.reset with target := 2 } } }
    (good read.cpu.img → Gives (.bootRom t flash) s fun u => started read.cpu.img.hdr u ∧ u.dev.sys.flash = false ∧ u.dev.mst.on = false) ∧
    (¬ good read.cpu.img → GivesDev (.bootRom t flash) s fun d => d.sys.ready = false ∧ bit (reg d Reg.CORE_EVENT) 3 = true ∧
      d.sys.flash = false)) ∧
  (∀ flash, romRuns s.dev = false ∨ s.dev.sys.flash = false → Does (.bootRom t flash) s (tick t s.dev)) ∧
  (s.dev.cpu.bootRom = false → domOn s.dev (coreDom s.dev) = true → (coreIn s.dev).st ≠ .stopped → s.dev.svc.opens = [] → s.dev.svc.recent = [] →
    s.dev.cpu.apl.run = false → s.dev.cpu.apl.ok = false → (coreIn s.dev).entry ≠ 0 → GivesDev (.wdog t) s fun d =>
      (∀ n, n < 4 → (thr d n).st = .halted) ∧ (coreIn d).pc = (coreIn s.dev).entry ∧ (coreIn d).st = .run ∧ (coreIn d).sup = true ∧
      bit (reg d Reg.SYS_RST_CAUSE) 4 = true ∧ d.svc.next = s.dev.svc.next + 1 ∧ d.svc.opens.length = 1) ∧
  (s.dev.cpu.bootRom = true ∨ domOn s.dev (coreDom s.dev) = false ∨ (coreIn s.dev).st = .stopped → Does (.wdog t) s (tick t s.dev))

/-- R416, R417, R420: ENTRY_STAGE_DONE, QUIESCE_TIMEOUT: a stage of entry moves its domain on: out of quiesce only when the domain is idle, past the save stage for OFF; after
the last the domain is in RET with its content, or in OFF with reset content. A domain not idle in QTMO stays ON and its request waits. -/
def Claims.DomainEntry : Prop := ∀ (s : State) (t : Nat) (n : Fin 14) (off : Bool) (since : Nat),
  let x := dom s.dev n.val
  let d := tick t s.dev
  let q := us (max 1 (fld (reg s.dev Reg.PMU_CFG) 31 16))
  ((∀ k u o, x.pos ≠ .entering o k u) → Does (.entryStageDone t n) s d ∧ Does (.quiesceTimeout t n) s d) ∧
  (x.pos = .entering off 1 since → s.dev.cal.run = none →
    (domIdle d n.val = true → Does (.entryStageDone t n) s (setDom n.val { x with pos := .entering off (if off then 3 else 2) d.now } d) ∧
      Does (.quiesceTimeout t n) s d) ∧
    (domIdle d n.val = false → Does (.entryStageDone t n) s d) ∧
    (domIdle d n.val = false → since + q ≤ d.now → (∀ m, m < 14 → ∀ o u, (dom s.dev m).pos ≠ .entering o 0 u) → GivesDev (.quiesceTimeout t n) s fun e =>
      dom e n.val = { x with pos := .on, pend := some (x.pend.getD (if off then 2 else 1)) } ∧ bit (reg e Reg.PMU_EVENT) 3 = true ∧
      (∀ m, m ≠ n.val → dom e m = dom s.dev m) ∧ e = { d with pmu := e.pmu, regs := e.regs, marks := e.marks })) ∧
  (∀ k, k = 2 ∨ k = 3 ∨ k = 4 → x.pos = .entering off k since → (∀ m, m < 14 → ∀ o u, (dom s.dev m).pos ≠ .entering o 0 u) →
    Does (.entryStageDone t n) s (setDom n.val { x with pos := .entering off (k + 1) d.now } d)) ∧
  (x.pos = .entering false 5 since → x.pend = none → GivesDev (.entryStageDone t n) s fun e => (dom e n.val).pos = .ret ∧
    (∀ m, m ≠ n.val → dom e m = dom s.dev m) ∧ e = { d with pmu := e.pmu, regs := e.regs, marks := e.marks }) ∧
  (x.pos = .entering true 5 since → x.pend = none → GivesDev (.entryStageDone t n) s fun e => (dom e n.val).pos = .off ∧
    (∀ m, m ≠ n.val → dom e m = dom s.dev m) ∧ (n.val = 5 → e.comb = Comb.reset) ∧ (n.val = 6 → e.rings = (List.range 32).map Ring.reset) ∧
    (n.val = 7 → e.seq = Seq.reset ∧ e.gen2 = Gen2.reset ∧ e.set0.tab = [] ∧ e.set1.tab = []) ∧
    (n.val = 11 → e.hf = Hf.reset) ∧ e.tb = s.dev.tb ∧ e.svc = s.dev.svc ∧ e.dmk = s.dev.dmk)

/-- R305, R408, R421, R422: WAKE_STAGE_DONE: a stage of wake moves its domain on, the first with the core buck up and the second with the crystal; after the
fourth the domain is ON, a link domain with its wake event, and from OFF with a new epoch, UHF_TX in STANDBY, SEQ with its count at 0. -/
def Claims.DomainWake : Prop := ∀ (s : State) (t : Nat) (n : Fin 14) (off : Bool) (since k : Nat),
  let x := dom s.dev n.val
  let d := tick t s.dev
  s.dev.cpu.mboxScan = false → fld (reg s.dev Reg.CAL_CTRL) 4 0 = 0 →
  ((∀ k u o, x.pos ≠ .waking o k u) → Does (.wakeStageDone t n) s d) ∧
  (x.pos = .waking off k since → 1 ≤ k → k < 4 → GivesDev (.wakeStageDone t n) s fun e =>
    dom e n.val = { x with pos := .waking off (k + 1) d.now } ∧ (∀ m, m ≠ n.val → dom e m = dom s.dev m) ∧
    e.pmu.coreBuck = (s.dev.pmu.coreBuck || k == 1) ∧ e.pmu.xo = (s.dev.pmu.xo || k == 2) ∧
    e = { d with pmu := e.pmu }) ∧
  (x.pos = .waking off 4 since → x.pend = none → GivesDev (.wakeStageDone t n) s fun e => (dom e n.val).pos = .on ∧
    (∀ m, m ≠ n.val → dom e m = dom s.dev m) ∧
    (n.val = 1 → bit (reg e Reg.LINK_A_EVENT) 0 = true ∧
      e.portA.readyAt = d.now ∧
      (off = true → e.portA.epoch ≠ s.dev.portA.epoch ∧ e.portA.seq = 0) ∧ (off = false → e.portA = { s.dev.portA with readyAt := d.now })) ∧
    (n.val = 7 → off = true → e.seq.onAt = d.now) ∧ (n.val = 8 → off = true → e.uhf.st = .standby))

/-- R409, R410, R411, R421: AT_WAKE, VIO_CHANGE, VPA_CHANGE: the AT wake fires once at its cycle; a VIO rail that falls is recorded with its event; a fall of VPA sets its
event, and while the device emits it is a fault that puts the device in the safe state. -/
def Obligations.SuppliesAndAlarm : Prop := ∀ (s : State) (t : Nat),
  let d := tick t s.dev
  let cyc := s.dev.tb.cyc.extractLsb' 0 32
  (bit (reg s.dev Reg.PMU_CFG) 8 = false ∨ cyc ≠ reg s.dev Reg.PMU_WAKE_AT → Does (.atWake t) s d) ∧
  (bit (reg s.dev Reg.PMU_CFG) 8 = true → cyc = reg s.dev Reg.PMU_WAKE_AT → s.dev.pmu.wakeAt = none → GivesDev (.atWake t) s fun e =>
    bit (reg e Reg.PMU_CFG) 8 = false ∧ bit (reg e Reg.PMU_EVENT) 7 = true ∧ fld (reg e Reg.PMU_LAST_WAKE) 31 28 = 6 ∧
    (∀ n ∈ wakeMask s.dev (reg s.dev Reg.PMU_WAKE_TIME), (dom s.dev n).pos = .off → (dom e n).pos = .waking true 1 d.now)) ∧
  (∀ b, Does (.vioChange t b (if b then s.dev.pmu.vioB else s.dev.pmu.vioA)) s d) ∧
  (s.dev.pmu.vioB = false → Does (.vioChange t true true) s { d with pmu := { s.dev.pmu with vioB := true } }) ∧
  (s.dev.pmu.vioB = true → GivesDev (.vioChange t true false) s fun e => e.pmu = { s.dev.pmu with vioB := false } ∧
    bit (reg e Reg.PMU_EVENT) 6 = true ∧ bit (reg e Reg.SVC_EVENT) 0 = true ∧ e.svc.next = s.dev.svc.next + 1 ∧ e.svc.opens = s.dev.svc.opens) ∧
  (s.dev.pmu.vioA = true → GivesDev (.vioChange t false false) s fun e => e.pmu.vioA = false ∧ bit (reg e Reg.PMU_EVENT) 5 = true) ∧
  (Does (.vpaChange t s.dev.pmu.vpa) s d) ∧
  (s.dev.pmu.vpa = false → Does (.vpaChange t true) s { d with pmu := { s.dev.pmu with vpa := true } }) ∧
  (s.dev.pmu.vpa = true → s.dev.uhf.carrier = false → s.dev.uhf.move = none → s.dev.hf.field = 0 → s.dev.hf.pingEnd ≤ d.now →
    GivesDev (.vpaChange t false) s fun e => bit (reg e Reg.PMU_EVENT) 4 = true ∧
      e = { d with pmu := { s.dev.pmu with vpa := false }, regs := e.regs, marks := e.marks }) ∧
  (s.dev.pmu.vpa = true → s.dev.uhf.carrier = true ∨ s.dev.hf.field ≠ 0 → s.dev.svc.safe = false → GivesDev (.vpaChange t false) s fun e =>
    e.svc.safe = true ∧ e.uhf.carrier = false ∧ e.hf.field = 0 ∧ fld e.svc.safeCause 15 8 = 8 ∧ bit (reg e Reg.PMU_EVENT) 4 = true)

/-- What every kind of reset but the watchdog's leaves: no operation, record or set content, every domain but AON OFF. -/
def DomainsLost (d : Dev) : Prop :=
  d.ops = [] ∧ d.held = [] ∧ d.rings = (List.range 32).map Ring.reset ∧ d.set0 = CfgSet.reset ∧ d.set1 = CfgSet.reset ∧ d.sel = false ∧
  d.comb = Comb.reset ∧ d.sys.ready = false ∧ (∀ n, 0 < n → n < 14 → (dom d n).pos = .off) ∧ d.pmu.coreBuck = false ∧ d.pmu.xo = false

/-- R373, R459, R460, R477, R478: BROWN_OUT, POWER_ON_RESET, PIN_RESET: brown-out and power-on reset the always-on domain as well: the timebase is NONE with the cycle count at 0
and the safe state is over; a power-on that ends a brown-out keeps its cause, any other sets POR alone with AON. A pin reset keeps the
timebase, the scratch registers and the safe state. Each keeps the keeping store: ledger, fences,
retired slices, Damask's key; with the store fenced it holds what it held then (log entry 55). -/
def Claims.Resets : Prop := ∀ (s : State) (t : Nat),
  let x := tick t s.dev
  let cause := fun (d : Dev) (k : Nat) => bit (reg d Reg.SYS_RST_CAUSE) k
  let keeps := fun (d : Dev) => d.svc.ledger = s.dev.svc.ledger ∧ d.svc.next = s.dev.svc.next ∧ d.svc.fences = s.dev.svc.fences ∧
    d.svc.retired = s.dev.svc.retired ∧ d.dmk.key = s.dev.dmk.key ∧ d.dmk.epoch = s.dev.dmk.epoch ∧ d.cal.hours = s.dev.cal.hours
  let cold := fun (d : Dev) => DomainsLost d ∧ keeps d ∧ d.tb.st = .none ∧ d.tb.cyc = 0 ∧ d.svc.safe = false ∧ d.svc.opens = []
  (s.dev.svc.kept = none → GivesDev (.brownOut t) s fun d => cold d ∧ d.sys.stage = 0 ∧ cause d 1 = true ∧ cause d 6 = true) ∧
  (s.dev.sys.stage = 0 → cause x 1 = true → s.dev.svc.kept = none → GivesDev (.powerOnReset t) s fun d => cold d ∧ d.sys.stage = 1 ∧
    reg d Reg.SYS_RST_CAUSE = reg x Reg.SYS_RST_CAUSE) ∧
  (∀ k, s.dev.svc.kept = some k → GivesDev (.powerOnReset t) s fun d => DomainsLost d ∧ d.svc.ledger = k.ledger ∧ d.svc.fences = k.fences ∧ d.svc.retired = k.retired) ∧
  (s.dev.sys.stage ≠ 0 ∨ cause x 1 = false → s.dev.svc.kept = none → GivesDev (.powerOnReset t) s fun d => cold d ∧ d.sys.stage = 1 ∧
    reg d Reg.SYS_RST_CAUSE = 0x41) ∧
  (s.dev.pmu.vioA = true → 3 ≤ s.dev.sys.stage → s.dev.svc.kept = none → GivesDev (.pinReset t true) s fun d => DomainsLost d ∧ keeps d ∧ d.sys.stage = 3 ∧ d.sys.held = true ∧
    cause d 2 = true ∧ d.tb = s.dev.tb ∧ d.svc.safe = s.dev.svc.safe ∧
    (∀ i, i < 4 → reg d (Reg.SYS_SCRATCH_0 + i) = reg x (Reg.SYS_SCRATCH_0 + i))) ∧
  (s.dev.pmu.vioA = false ∨ s.dev.sys.stage = 0 → Does (.pinReset t true) s x) ∧
  (Does (.pinReset t false) s { x with sys := { s.dev.sys with held := false } })

/-- R326, R404, R474, R480: STARTUP_STAGE_DONE: the stages of start-up follow one another while the pin is high; straps are read at the fourth, 0 without their
rail; the last has the five domains ON, the ports at new epochs and the boot ROM at work. -/
def Claims.StartUp : Prop := ∀ (s : State) (t : Nat) (straps : BitVec 3),
  let d := tick t s.dev
  let k := s.dev.sys.stage
  let v := if s.dev.pmu.vioA then straps else 0
  (k = 0 ∨ 7 ≤ k ∨ s.dev.sys.held = true → Does (.startupStageDone t straps) s d) ∧
  (k = 1 ∨ k = 2 → s.dev.sys.held = false → Does (.startupStageDone t straps) s { d with sys := { s.dev.sys with stage := k + 1 } }) ∧
  (k = 3 → s.dev.sys.held = false → GivesDev (.startupStageDone t straps) s fun e => e.sys = { s.dev.sys with
      stage := 4, strapA := v.getLsbD 0, strapB := v.getLsbD 1, boot := v.getLsbD 2 } ∧ e.portA = { s.dev.portA with mode3 := v.getLsbD 0 } ∧
    e.portB = { s.dev.portB with mode3 := v.getLsbD 1 } ∧ e = { d with sys := e.sys, portA := e.portA, portB := e.portB }) ∧
  (k = 4 → s.dev.sys.held = false → Does (.startupStageDone t straps) s { d with sys := { s.dev.sys with stage := 5 }, pmu := { s.dev.pmu with coreBuck := true } }) ∧
  (k = 5 → s.dev.sys.held = false → Does (.startupStageDone t straps) s { d with sys := { s.dev.sys with stage := 6 }, pmu := { s.dev.pmu with xo := true } }) ∧
  (k = 6 → s.dev.sys.held = false → s.dev.cpu.onS = false → GivesDev (.startupStageDone t straps) s fun e => e.sys.stage = 7 ∧
    (∀ n, n < 13 → (dom e n).pos = if n ∈ [0, 1, 2, 3, 6, 7] then .on else .off) ∧ e.portA.epoch ≠ s.dev.portA.epoch ∧
    e.portB.epoch ≠ s.dev.portB.epoch ∧ e.cpu.bootRom = true ∧ (fenced s.dev 1 = true → e.portA.off = true))

/-- R433, R434, R440: TEMP_SAMPLE: with the core in service ON a sample of the die temperature is shown; a change of 1 degC forms every instance's codes
again; an instance with AUTO set whose last run lies further than `CAL_DT` away is pending. -/
def Claims.TemperatureSample : Prop := ∀ (s : State) (t : Nat) (temp : Int),
  let d := tick t s.dev
  let shown := { d with cal := { s.dev.cal with temp := temp } }
  (domOn s.dev (coreDom s.dev) = false → Does (.tempSample t temp) s d) ∧
  (domOn s.dev (coreDom s.dev) = true → fld (reg s.dev Reg.CAL_CTRL) 4 0 = 0 →
    ((temp - s.dev.cal.formed).natAbs < 4 → Does (.tempSample t temp) s shown) ∧
    (4 ≤ (temp - s.dev.cal.formed).natAbs → GivesDev (.tempSample t temp) s fun e => e.cal.temp = temp ∧ e.cal.formed = temp ∧
      (∀ i, i < 7 → calOf e i = { calOf s.dev i with next := calForm shown i }) ∧ e = { d with cal := e.cal })) ∧
  (∀ (i : Nat) (u : Int), domOn s.dev (coreDom s.dev) = true → i ∈ calOrder → bit (reg s.dev Reg.CAL_CTRL) (calBit i) = true →
    (calOf s.dev i).lastTemp = some u → calGoing s.dev i = false → GivesDev (.tempSample t temp) s fun e => e.cal.temp = temp ∧
      (calOf e i).pend = ((calOf s.dev i).pend || decide (4 * max 1 (fld (reg s.dev Reg.CAL_DT) 5 0) < (temp - u).natAbs)) ∧
      (calOf e i).again = (calOf s.dev i).again)

/-- R435: CAL_RUN_START: a run starts only with no RF emitted and no RF request held, outside the safe state and with the block not fenced, one at a time;
the first instance in run order that may start does, once CAL is ON, and CAL is requested ON first. -/
def Claims.CalibrationStart : Prop := ∀ (s : State) (t : Nat),
  let d := tick t s.dev
  let x := dom s.dev 12
  (∀ o ∈ s.dev.ops, o.pend = .none) →
  (emitting d = true ∨ s.dev.uhf.heldAt ≠ none ∨ s.dev.svc.safe = true ∨ fenced s.dev 0x12 = true ∨ s.dev.cal.run ≠ none → Does (.calRunStart t) s d) ∧
  (calQuiet d = true →
    ((∀ i ∈ calOrder, calMay d i = false) → Does (.calRunStart t) s d) ∧
    (∀ i, calOrder.find? (calMay d) = some i → x.pos = .on →
      Does (.calRunStart t) s { d with cal := { s.dev.cal with run := some ⟨i, false⟩ } }) ∧
    (∀ i, calOrder.find? (calMay d) = some i → x.pos = .off → GivesDev (.calRunStart t) s fun e => e.cal.run = none ∧
      e.cal.former = some (s.dev.cal.former.getD x.mode) ∧ dom e 12 = { x with pos := .waking true 1 d.now, mode := 0, pend := none } ∧
      (∀ n, n ≠ 12 → dom e n = dom s.dev n) ∧ e = { d with cal := e.cal, pmu := e.pmu }))

/-- R437, R438, R439, R441, R443: CAL_RUN_DONE: a run that ends is compared with the run before it. The first is kept to compare; two that agree within
`CAL_TOL` are accepted with the mean of their codes in the set of the band; the third disagreement marks it FAILED and changes no code. -/
def Obligations.CalibrationRuns : Prop := ∀ (s : State) (t : Nat) (m : CalMeasure) (i : Nat),
  let d := tick t s.dev
  let c := calOf s.dev i
  let quit := { d with cal := { s.dev.cal with run := none } }
  let temp := s.dev.cal.temp
  (s.dev.cal.run = none ∨ s.dev.cal.run = some ⟨i, true⟩ → Does (.calRunDone t m) s d) ∧
  (i ∈ calOrder → s.dev.cal.run = some ⟨i, false⟩ →
    (c.prev = none → c.pend = true ∨ s.dev.cal.cmd ≠ none →
      Does (.calRunDone t m) s (setCal i { c with prev := some m.codes, runs := c.runs + 1 } quit)) ∧
    (∀ p, c.prev = some p →
      (calTol s.dev i < calDiff p m.codes → c.disagree < 2 → c.pend = true ∨ s.dev.cal.cmd ≠ none → Does (.calRunDone t m) s
        (setCal i { c with prev := some m.codes, runs := c.runs + 1, disagree := c.disagree + 1 } quit)) ∧
      (calTol s.dev i < calDiff p m.codes → 2 ≤ c.disagree → s.dev.cal.cmd = none → GivesDev (.calRunDone t m) s fun e => e.cal.run = none ∧
        calOf e i = { c with pend := c.again, again := false, failed := true, reason := 0, runs := 0, disagree := 0, prev := none, lastTemp := some temp } ∧
        bit (reg e Reg.CAL_EVENT) 1 = true ∧ bit (reg e Reg.SVC_EVENT) 0 = true ∧ e.svc.next = s.dev.svc.next + 1 ∧ e.svc.opens = s.dev.svc.opens) ∧
      (calDiff p m.codes ≤ calTol s.dev i → s.dev.cal.cmd = none → m.storeOk = true → fenced s.dev 0x13 = false → GivesDev (.calRunDone t m) s fun e =>
        e.cal.run = none ∧ (calOf e i).sets = upd CalSet.reset c.sets (calBand temp)
          ⟨true, temp, calMean p m.codes, setCrc temp (calMean p m.codes)⟩ ∧
        (calOf e i).accepted = true ∧ (calOf e i).failed = false ∧ (calOf e i).lastTemp = some temp ∧ (calOf e i).prev = none ∧
        bit (reg e Reg.CAL_EVENT) 0 = true ∧ reg e Reg.CAL_LAST = stampL d ∧ e.cal.lastId = calIdCode i) ∧
      (calDiff p m.codes ≤ calTol s.dev i → s.dev.cal.cmd = none → m.storeOk = false → GivesDev (.calRunDone t m) s fun e =>
        (calOf e i).sets = c.sets ∧ (calOf e i).next = some (calMean p m.codes) ∧ (calOf e i).accepted = true ∧ bit (reg e Reg.CAL_EVENT) 2 = true)))

/-- R445: AGE_HOUR: an hour adds the stress of the present die temperature, which the keeping store counts as a write, and changes nothing
else. -/
def Claims.AgeHour : Prop := ∀ (s : State) (t : Nat),
  Does (.ageHour t) s (keepWrite 516 { tick t s.dev with cal := { s.dev.cal with hours := s.dev.cal.hours + stressHour s.dev.cal.temp } })

/-- R444, R446, R448: REPLAN: a re-plan is made only with AGE_EN at 1, CAL ON, no run in progress and when it is due; it shows the monitors and sets the
margins by their rules, none past its limit or back toward its reset value, with event 3, and event 4 where a limit is reached. -/
def Claims.MarginReplan : Prop := ∀ (s : State) (t : Nat) (m : AgeMeasure),
  let d := tick t s.dev
  let due := s.dev.cal.replanUp = true ∨ s.dev.cal.replanAt + max 1 (fld (reg s.dev Reg.CAL_REPLAN) 23 16) * 576000000000 ≤ d.now
  let f := ageFound d s.tagm m
  let bias := reg s.dev Reg.PMU_BIAS
  let marg := reg s.dev Reg.CAL_MARGIN
  (bit (reg s.dev Reg.CAL_CTRL) 8 = false ∨ domOn s.dev 12 = false ∨ s.dev.cal.run ≠ none ∨ ¬ due → Does (.replan t m) s d) ∧
  (bit (reg s.dev Reg.CAL_CTRL) 8 = true → domOn s.dev 12 = true → s.dev.cal.run = none → due → GivesDev (.replan t m) s fun e =>
    e.cal.replanUp = false ∧ e.cal.replanAt = d.now ∧ bit (reg e Reg.CAL_EVENT) 3 = true ∧
    fld (reg e Reg.PMU_BIAS) 23 16 = max (fld bias 23 16) (min 60 (40 + m.ro / 2500)) ∧
    fld (reg e Reg.PMU_BIAS) 15 8 = min (fld bias 15 8) (max 40 (60 - m.ro / 5000)) ∧
    fld (reg e Reg.PMU_BIAS) 7 0 = max (fld bias 7 0) (min 65 (55 + m.ro / 10000)) ∧
    fld (reg e Reg.CAL_MARGIN) 23 16 = max (fld marg 23 16) (min 100 (planHead300 f)) ∧
    fld (reg e Reg.CAL_MARGIN) 15 8 = max (fld marg 15 8) (min 150 (planHf f)) ∧
    fld (reg e Reg.CAL_MARGIN) 29 24 = max (fld marg 29 24) (min 16 (planFloor f)) ∧
    fld marg 7 0 ≤ fld (reg e Reg.CAL_MARGIN) 7 0 ∧ reg e Reg.CAL_AGE_XO = ofInt f.xo ∧ f.ro = m.ro ∧ f.pa = m.pa ∧ f.hf = m.hf ∧ reg e Reg.CAL_AGE_RO = nw m.ro ∧
    (planLimit f = true → bit (reg e Reg.CAL_EVENT) 4 = true ∧ bit (reg e Reg.SVC_EVENT) 0 = true))

/-- R453, R454, R455, R461, R465: a complete recovery closes the innermost handling, RECOVERED, and the one it interrupted goes on; a slice's
recovery retires the slice, and a chain's loads its default banks and runs it. The entry in the ledger takes the outcome and a new CRC. A
ledger write that fails is a fault one level deeper, and at level 3 the safe state. -/
def Claims.RecoveryDone : Prop := ∀ (s : State) (t : Nat) (writeOk : Bool) (h : Handling) (rest : List Handling),
  let d := tick t s.dev
  let n := s.dev.svc.next
  let closed := fun (ws : List Word) => if entryNum ws = h.num.toNat then sealEntry (upd 0 (ws.take 5) 2 (setFld (nth 0 ws 2) 23 16 1)) else ws
  let after : Svc := { (keepWrite (h.num.toNat % 512) d).svc with opens := rest, ledger := s.dev.svc.ledger.map closed }
  (s.dev.svc.opens = [] → Does (.faultRecoveryDone t writeOk) s d) ∧
  (s.dev.svc.opens = h :: rest →
    (writeOk = true ∨ fenced s.dev 0x13 = true → h.code ≠ 0x20 → h.code ≠ 0x21 → GivesDev (.faultRecoveryDone t writeOk) s fun e =>
      e.svc = after ∧
      (s.dev.svc.ledger.length ≤ 512 → (∃ ws ∈ s.dev.svc.ledger, ws.length = 6 ∧ entryNum ws = h.num.toNat) → bit (reg e Reg.SVC_EVENT) 1 = true) ∧
      (∀ ch : Bool, h.code = (if ch then 0x25 else 0x24) → fenced s.dev (if ch then 0x0D else 0x0C) = false →
        (chain e ch).stock = true ∧ (chain e ch).coef = [] ∧ ((chain d ch).st = .stopped → (chain e ch).runAt = some d.now))) ∧
    (∀ ch : Bool, writeOk = true → h.code = (if ch then 0x21 else 0x20) → (bestSpare d ch).isSome = true → (retiredOf s.dev ch).length < 2 →
      GivesDev (.faultRecoveryDone t writeOk) s fun e => e.svc.opens = rest ∧ bit (reg e Reg.SVC_EVENT) 4 = true ∧
        ((retiredOf s.dev ch).length = 0 → h.detail < 32 → retiredOf e ch = [h.detail]) ∧
        (h.detail < 18 → (activeNext e ch).getLsbD h.detail = false)) ∧
    (writeOk = false → fenced s.dev 0x13 = false → h.level < 2 → GivesDev (.faultRecoveryDone t writeOk) s fun e =>
      e.svc.opens = ⟨n, 0x13, 0x44, h.level + 1, d.now, h.num, 0⟩ :: h :: rest ∧ e.svc.next = n + 1 ∧ e.svc.safe = s.dev.svc.safe ∧
      bit (reg e Reg.SVC_EVENT) 0 = true) ∧
    (writeOk = false → fenced s.dev 0x13 = false → 2 ≤ h.level → GivesDev (.faultRecoveryDone t writeOk) s fun e =>
      e.svc.opens = [] ∧ e.svc.safe = true ∧ e.svc.next = n + 1))

/-- R452, R455, R457: a handling at level 1 or 2 whose window has ended: its block is fenced and its handlings closed where it can be fenced and
touches no RF; at level 2, or for an RF block, the safe state closes every handling. -/
def Claims.RecoveryTimeout : Prop := ∀ (s : State) (t : Nat) (h : Handling),
  let d := tick t s.dev
  let late := fun (x : Handling) => decide (x.level ≤ 2 ∧ 0 < blockWindow x.block ∧ x.start + blockWindow x.block ≤ d.now)
  ((∀ x ∈ s.dev.svc.opens, late x = false) → Does (.recoveryTmo t) s d) ∧
  (s.dev.svc.opens.find? late = some h →
    (h.level < 2 → h.block ∈ [0x05, 0x0C, 0x0D, 0x0E, 0x10, 0x11, 0x12, 0x13, 0x15] → GivesDev (.recoveryTmo t) s fun e =>
      fenced e h.block = true ∧ e.svc.opens = s.dev.svc.opens.filter (fun o => o.block ≠ h.block) ∧ e.svc.safe = s.dev.svc.safe ∧
      bit (reg e Reg.SVC_EVENT) 2 = true ∧ e.svc.next = s.dev.svc.next + 1) ∧
    (2 ≤ h.level ∨ blockRf h.block = true → GivesDev (.recoveryTmo t) s fun e =>
      e.svc.safe = true ∧ e.svc.opens = [] ∧ e.svc.fences = s.dev.svc.fences ∧ e.svc.next = s.dev.svc.next + 1))

/-- R456: with no handling open the first fault of the queue is handled from this tick; otherwise nothing happens. -/
def Claims.QueuedFaults : Prop := ∀ (s : State) (t : Nat),
  let d := tick t s.dev
  (s.dev.svc.opens ≠ [] ∨ s.dev.svc.queue = [] → Does (.queuedFaultStart t) s d) ∧
  (∀ h rest, s.dev.svc.opens = [] → s.dev.svc.queue = h :: rest → GivesDev (.queuedFaultStart t) s fun e =>
    e.svc.queue = rest ∧ e.svc.opens = [{ h with start := d.now }] ∧ e.svc.recent = { h with start := d.now } :: s.dev.svc.recent ∧
    e.svc.ledger = s.dev.svc.ledger ∧ e.svc.safe = s.dev.svc.safe ∧ e.svc.fences = s.dev.svc.fences)

/-- R453, R454, R456: a known-vector check that passes does nothing. One that fails is an independent fault: it opens a handling, with its ledger
entry; it waits in the queue while another block's handling without RF is open; within the block's window a second one fences Damask, and
puts the device in the safe state for the check units, which cannot be fenced. -/
def Claims.SelfChecks : Prop := ∀ (s : State) (t : Nat) (i : Bool → Instr) (code block : Nat),
  (i = Instr.checkSelf t ∧ code = 0x3A ∧ block = 0x14) ∨ (i = Instr.damaskSelf t ∧ code = 0x52 ∧ block = 0x15) →
  let d := tick t s.dev
  let n := s.dev.svc.next
  let h : Handling := ⟨n, block, code, 1, d.now, n, 0⟩
  let recent := s.dev.svc.recent.any fun x => decide (x.block = block) && decide (d.now < x.start + blockWindow block)
  Does (i true) s d ∧
  (recent = false → s.dev.svc.opens = [] → s.dev.svc.kept = none → s.dev.svc.ledger.length < 512 → GivesDev (i false) s fun e =>
    e.svc = { (keepWrite (n.toNat % 512) d).svc with next := n + 1, opens := [h], recent := h :: s.dev.svc.recent, ledger := s.dev.svc.ledger ++ [sealEntry (ledgerWords d h 0 false 0)] } ∧
    bit (reg e Reg.SVC_EVENT) 0 = true ∧ fld (reg e Reg.SVC_CNT) 31 24 = min 255 (fld (reg s.dev Reg.SVC_CNT) 31 24 + 1)) ∧
  (∀ o rest, recent = false → s.dev.svc.opens = o :: rest → blockRf o.block = false → s.dev.svc.queue.length < 8 → GivesDev (i false) s fun e =>
    e.svc.opens = s.dev.svc.opens ∧ e.svc.queue = s.dev.svc.queue ++ [h] ∧ e.svc.next = n + 1 ∧ e.svc.safe = s.dev.svc.safe) ∧
  (∀ o rest, recent = false → s.dev.svc.opens = o :: rest → blockRf o.block = true → GivesDev (i false) s fun e => e.svc.safe = true) ∧
  (recent = true → block = 0x15 → GivesDev (i false) s fun e => fenced e 0x15 = true ∧ e.svc.safe = s.dev.svc.safe ∧ e.svc.next = n + 1 ∧
    e.svc.opens = s.dev.svc.opens.filter fun o => o.block ≠ 0x15) ∧
  (recent = true → block = 0x14 → GivesDev (i false) s fun e => e.svc.safe = true ∧ e.svc.fences = s.dev.svc.fences)

/-- R466, R467: a phase of the test that passes is counted and the next one runs; the last one ends the test. A phase that fails raises TEST_FAIL
with the phase as detail, and the RESTORE phase runs. -/
def Claims.TestPhases : Prop := ∀ (s : State) (t : Nat) (ok : Bool) (addr : Word) (x : TestRun) (o : Op),
  let d := tick t s.dev
  ((s.dev.svc.test = none ∨ (s.dev.svc.test = some x ∧ x.now = 0)) → Does (.testPhaseDone t ok addr) s d) ∧
  (s.dev.svc.test = some x → findOp s.dev x.tag = some o → x.bad = 0 →
    (ok = true → x.now = 1 ∨ x.now = 2 ∨ x.now = 3 → o.pend = .none → o.failAs = none → GivesDev (.testPhaseDone t ok addr) s fun e =>
      e.svc = { s.dev.svc with test := some { x with phase := x.phase + 1, now := x.now + 1 } } ∧
      fld (reg e Reg.SVC_TEST) 15 8 = x.now + 1 ∧ (findOp e x.tag).map Op.progress = some (nw (x.phase + 1))) ∧
    (ok = true → x.now = 4 → GivesDev (.testPhaseDone t ok addr) s fun e => e.svc.test = none ∧ bit (reg e Reg.SVC_EVENT) 5 = true ∧
      bit (reg e Reg.SVC_TEST) 1 = false) ∧
    (ok = false → x.now = 1 ∨ x.now = 2 ∨ x.now = 3 → s.dev.svc.opens = [] → recentOf d x.block = false → GivesDev (.testPhaseDone t ok addr) s fun e =>
      e.svc.test = some { x with bad := x.now, addr := addr, now := 4 } ∧ bit (reg e Reg.SVC_EVENT) 0 = true ∧
      e.svc.opens = [⟨s.dev.svc.next, x.block, 0x58, 1, d.now, s.dev.svc.next, x.now⟩]))

/-- A step with a command in front is that command's execution with the queue's rest. -/
def Obligations.StepRunsFront : Prop := ∀ (s : State) (c : Instr) (rest : List Instr),
  step { s with pending := c :: rest } = exec c { s with pending := rest }

/-- The model's choice, log entry 1: on an empty queue one fine tick passes, and a host write of the mailbox goes on (R6, R290). -/
def Obligations.IdleStep : Prop := ∀ (s : State), s.pending = [] →
  step s = .next (hostRun { s with dev := tick (s.dev.now + 1) s.dev }) ∧
  (s.tagm.hostW = none → step s = .next { s with dev := tick (s.dev.now + 1) s.dev })

/-- Every command completes in every state with a next state, and leaves the queue as it is. -/
def Obligations.CommandsComplete : Prop := ∀ (c : Instr) (s : State), ∃ u, exec c s = .next u ∧ u.pending = s.pending

/-- R225, R305, R356, R370, R373, R429, R480: the machine right after reset: nothing waits; the timebase is NONE with its count 0; no
operation, no record, both sets alike at their reset values; the five domains of start-up and AON are ON, every other but TAGM OFF;
the boot ROM runs; the causes are POR and AON; nothing is fenced or open. -/
def Obligations.ResetState : Prop :=
  let d := State.reset.dev
  State.reset.pending = [] ∧ d.tb.st = .none ∧ d.tb.cyc = 0 ∧ d.ops = [] ∧ d.held = [] ∧
  (∀ n, n < 32 → (ring d n).recs = [] ∧ (ring d n).en = true ∧ (ring d n).nseq = 0) ∧
  d.set0 = CfgSet.reset ∧ d.set1 = CfgSet.reset ∧ d.portA.seq = 0 ∧ d.portB.seq = 0 ∧ d.comb.cells = [] ∧
  (∀ n, n < 13 → (dom d n).pos = if n ∈ [0, 1, 2, 3, 6, 7] then .on else .off) ∧
  d.cpu.bootRom = true ∧ d.cpu.onS = false ∧ d.sys.ready = false ∧ reg d Reg.SYS_RST_CAUSE = 0x41 ∧
  d.svc.fences = 0 ∧ d.svc.opens = [] ∧ d.svc.safe = false ∧ State.reset.tagm.sess = false ∧ State.reset.tagm.fprot = 0x8000

/-- The invariant of the commissioning tag holds after reset. -/
def Obligations.TagInvariantReset : Prop := TagmInv State.reset.tagm

/-- R283, R288, R298: whatever command is in front, a step keeps the invariant of the commissioning tag. -/
def Obligations.TagInvariantStep : Prop := ∀ (s u : State), TagmInv s.tagm → step s = .next u → TagmInv u.tagm

/-- R58: the frequency a lock takes for entry k of the channel list in force, in kHz. -/
def Obligations.ChannelFrequency : Prop := ∀ (d : Dev) (k : Nat), d.uhf.entry = some k →
  let c := activeSet d
  let raster := nth 500 [25, 50, 100, 125, 200, 250, 500] (fld (cfgOf c Reg.UHF_CHAN_CFG) 2 0)
  (ncoAtLock d).uhf.freq = fld (cfgOf c Reg.UHF_CHAN_BASE) 19 0 + fld (chanEntry c k) 11 0 * raster

/-- R439: the five sets, and the set an accepted result that is kept replaces, with its temperature in 0.25 degC. -/
def Obligations.TemperatureSets : Prop :=
  (∀ i, i < 7 → (calOf State.reset.dev i).sets.length = 5) ∧
  (∀ (s : State) (t k : Nat) (m : CalMeasure) (i : Nat) (p : List Int), i ∈ calOrder → s.dev.cal.run = some ⟨i, false⟩ →
    (calOf s.dev i).prev = some p → calDiff p m.codes ≤ calTol s.dev i → s.dev.cal.cmd = none → m.storeOk = true →
    fenced s.dev 0x13 = false → (calOf s.dev i).sets.length = 5 →
    let temp := s.dev.cal.temp
    (k = 0 ∧ temp < -100) ∨ (k = 1 ∧ -100 ≤ temp ∧ temp < 30) ∨ (k = 2 ∧ 30 ≤ temp ∧ temp < 170) ∨ (k = 3 ∧ 170 ≤ temp ∧ temp < 330) ∨
      (k = 4 ∧ 330 ≤ temp) →
    GivesDev (.calRunDone t m) s fun e => (calOf e i).sets =
      (calOf s.dev i).sets.set k ⟨true, temp, calMean p m.codes, setCrc temp (calMean p m.codes)⟩)

/-- R452: the window of each class, named by its blocks (R451), and that it is counted from the start of the handling in elapsed time: a
handling at level 1 or 2 has timed out from the window's end on, not before. -/
def Obligations.RecoveryWindows : Prop :=
  (∀ b ∈ [0x01, 0x02, 0x07, 0x14, 0x0C, 0x0D, 0x0E, 0x10], blockWindow b = us 1000000) ∧
  (∀ b ∈ [0x03, 0x04, 0x17], blockWindow b = us 60000000) ∧ (∀ b ∈ [0x05, 0x06, 0x11, 0x13], blockWindow b = us 10000000) ∧
  (∀ b ∈ [0x08, 0x09, 0x0A, 0x0B, 0x0F, 0x16], blockWindow b = us 200000) ∧ (∀ b ∈ [0x12, 0x15], blockWindow b = us 3600000000) ∧
  (∀ (s : State) (t : Nat) (h : Handling), s.dev.svc.opens = [h] → 1 ≤ h.block → h.block ≤ 0x17 → h.level < 3 →
    let d := tick t s.dev
    (d.now < h.start + blockWindow h.block → Does (.recoveryTmo t) s d) ∧
    (h.start + blockWindow h.block ≤ d.now → GivesDev (.recoveryTmo t) s fun e => e.svc.next = s.dev.svc.next + 1))

/-! ## The statements of several claims -/

/-- Zero crossings taken, waited for and missed: CrossingInput, TwoInputs, MissedCrossings together. -/
def Obligations.CrossingsTaken : Prop := Claims.CrossingInput ∧ Claims.TwoInputs ∧ Claims.MissedCrossings

/-- The states of the timebase and its controls: TimebaseStates, TimeControl together. -/
def Obligations.TimebaseCommands : Prop := Claims.TimebaseStates ∧ Claims.TimeControl

/-- Cycle starts and slot starts: CycleStarts, SlotStarts together. -/
def Obligations.CyclesAndSlots : Prop := Claims.CycleStarts ∧ Claims.SlotStarts

/-- Fetch, end of the wait and branch of a twill step: StepFetch, WaitEnds, BranchByBr, WaitRows together. -/
def Obligations.StepWaits : Prop := Claims.StepFetch ∧ Claims.WaitEnds ∧ Claims.BranchByBr ∧ Claims.WaitRows

/-- The actions of a twill step that pass no gate, and halts and suspensions: ThreadActions, PostAndAdjust, HaltAndClose, AbortTakesHold together. -/
def Obligations.StepActions : Prop := Claims.ThreadActions ∧ Claims.PostAndAdjust ∧ Claims.HaltAndClose ∧ Claims.AbortTakesHold

/-- The actions of a twill step that pass gates, and the frame a TXF sends: GatedActions, GatePass, ActionEffects, FrameEnd, UhfFrameBits together. -/
def Obligations.GatedActions : Prop := Claims.GatedActions ∧ Claims.GatePass ∧ Claims.ActionEffects ∧ Claims.FrameEnd ∧ Claims.UhfFrameBits

/-- A turn swaps the configuration sets; set-paired registers and latched pairs: Turns, SetCopies, LatchedPairs together. -/
def Obligations.SetTurns : Prop := Claims.Turns ∧ Claims.SetCopies ∧ Claims.LatchedPairs

/-- Dwell, couplers, blanking and the pins of the front end: UhfMonitors, Blanking, FrontEndPins together. -/
def Obligations.UhfMonitorsAndBlanking : Prop := Claims.UhfMonitors ∧ Claims.Blanking ∧ Claims.FrontEndPins

/-- Moves of the radio, the carrier and the lock: RadioTransitions, CarrierDown, LockWaits together. -/
def Obligations.CarrierAndLock : Prop := Claims.RadioTransitions ∧ Claims.CarrierDown ∧ Claims.LockWaits

/-- The cancellers and coexistence: Cancellers, Coexistence together. -/
def Obligations.CancellersAndCoexistence : Prop := Claims.Cancellers ∧ Claims.Coexistence

/-- Control of the receive chains, their coefficients, stage results and detectors: ChainControl, CoefficientPort, Detectors, StageResults together. -/
def Obligations.ReceiveChains : Prop := Claims.ChainControl ∧ Claims.CoefficientPort ∧ Claims.Detectors ∧ Claims.StageResults

/-- Frames received on the chains, diversity and separation: FramesReceived, FramesDecided, Separations together. -/
def Obligations.FramesReceived : Prop := Claims.FramesReceived ∧ Claims.FramesDecided ∧ Claims.Separations

/-- Slot-log entries of an inventory and units of an access operation: InventoryEntries, AccessUnits together. -/
def Obligations.InventoryAndAccess : Prop := Claims.InventoryEntries ∧ Claims.AccessUnits

/-- The Comb, its presence records, its sweeps and errors, and Damask: Presence, SweepVisits, RowErrors, DamaskState, DumpsAndSweeps together. -/
def Obligations.CombAndDamask : Prop := Claims.Presence ∧ Claims.SweepVisits ∧ Claims.RowErrors ∧ Claims.DamaskState ∧ Claims.DumpsAndSweeps

/-- Low-power card detection: LowPowerPings, PingRequests together. -/
def Obligations.LowPowerPings : Prop := Claims.LowPowerPings ∧ Claims.PingRequests

/-- HF windows, field, frames and card search: HfWindows, HfField, HfChoices, HfCheckCodes, HfFrames together. -/
def Obligations.HfWindowsAndField : Prop := Claims.HfWindows ∧ Claims.HfField ∧ Claims.HfChoices ∧ Claims.HfCheckCodes ∧ Claims.HfFrames

/-- Field sessions of the commissioning tag, its lock and its ports: TagSessions, TagPorts together. -/
def Obligations.TagSessionsAndPorts : Prop := Claims.TagSessions ∧ Claims.TagPorts

/-- Requests of the field to the commissioning tag: TagRequests, TagWrites together. -/
def Obligations.TagRequests : Prop := Claims.TagRequests ∧ Claims.TagWrites

/-- Set-paired memories through their ports: MemoryReads, MemoryWrites, MemoryRefusals together. -/
def Obligations.MemoryPorts : Prop := Claims.MemoryReads ∧ Claims.MemoryWrites ∧ Claims.MemoryRefusals

/-- The other memories behind a pointer, and the control store: PointerPorts, ControlStorePort together. -/
def Obligations.PointerPorts : Prop := Claims.PointerPorts ∧ Claims.ControlStorePort

/-- System control, power requests and fences through registers: SystemControl, ModeWrites, FenceControl together. -/
def Obligations.ControlRegisters : Prop := Claims.SystemControl ∧ Claims.ModeWrites ∧ Claims.FenceControl

/-- Port control and the SPI master: PortControl, SpiMaster together. -/
def Obligations.LinkRegisters : Prop := Claims.PortControl ∧ Claims.SpiMaster

/-- Registers and timers of the rings: RingRegisters, RingTimes together. -/
def Obligations.RingRegisters : Prop := Claims.RingRegisters ∧ Claims.RingTimes

/-- Held records, starts of operations and requests on them: HeldRecords, OperationStarts, OperationRequests together. -/
def Obligations.OperationsAndRecords : Prop := Claims.HeldRecords ∧ Claims.OperationStarts ∧ Claims.OperationRequests

/-- Packets taken and checked: PacketsTaken, PacketChecks together. -/
def Obligations.PacketsServed : Prop := Claims.PacketsTaken ∧ Claims.PacketChecks

/-- Short commands that read, and those of keys: ReadingCommands, KeyCommands together. -/
def Obligations.ReadingAndKeyCommands : Prop := Claims.ReadingCommands ∧ Claims.KeyCommands

/-- Commands that end later: WaitingCommands, LongCommands together. -/
def Obligations.WaitingAndLongCommands : Prop := Claims.WaitingCommands ∧ Claims.LongCommands

/-- Register and bulk frames of the host link: RegisterFrames, BulkFrames together. -/
def Obligations.RegisterAndBulkFrames : Prop := Claims.RegisterFrames ∧ Claims.BulkFrames

/-- Ring frames of the host link, and its wakes: RingFrames, LinkWakes together. -/
def Obligations.RingFrames : Prop := Claims.RingFrames ∧ Claims.LinkWakes

/-- Arithmetic instructions and their frame: RegisterAluResults, ShiftResults, MulDivResults, ImmediateResults, RdFrame together. -/
def Obligations.AluInstructions : Prop := Claims.RegisterAluResults ∧ Claims.ShiftResults ∧ Claims.MulDivResults ∧ Claims.ImmediateResults ∧ Claims.RdFrame

/-- Loads and stores, and their traps: LoadResults, StoreResults, AccessTraps together. -/
def Obligations.MemoryInstructions : Prop := Claims.LoadResults ∧ Claims.StoreResults ∧ Claims.AccessTraps

/-- Branches, calls and returns, and the window stack: BranchResults, CallReturn, WindowTraps, WindowStack together. -/
def Obligations.ControlFlow : Prop := Claims.BranchResults ∧ Claims.CallReturn ∧ Claims.WindowTraps ∧ Claims.WindowStack

/-- Control registers, traps, interrupts, waits and customer instructions: SystemInstructions, TrapEntry, AppletStops, WaitResults, CustomerInstruction together. -/
def Obligations.SystemInstructions : Prop := Claims.SystemInstructions ∧ Claims.TrapEntry ∧ Claims.AppletStops ∧ Claims.WaitResults ∧ Claims.CustomerInstruction

/-- The sequencer port of the core: SequencerPort, ThreadHaltPort, SequencerReads together. -/
def Obligations.SequencerPort : Prop := Claims.SequencerPort ∧ Claims.ThreadHaltPort ∧ Claims.SequencerReads

/-- The Comb, check-code and hasher ports of the core: CombPort, CheckCodePort, HasherPort together. -/
def Obligations.EnginePorts : Prop := Claims.CombPort ∧ Claims.CheckCodePort ∧ Claims.HasherPort

/-- Images and starts of firmware: ImagePort, FirmwareStarts together. -/
def Obligations.FirmwareImages : Prop := Claims.ImagePort ∧ Claims.FirmwareStarts

/-- Entry and wake of power domains: DomainEntry, DomainWake together. -/
def Obligations.DomainTransitions : Prop := Claims.DomainEntry ∧ Claims.DomainWake

/-- Resets and the start-up sequence: Resets, StartUp together. -/
def Obligations.ResetsAndStart : Prop := Claims.Resets ∧ Claims.StartUp

/-- Temperature samples and starts of calibration runs: TemperatureSample, CalibrationStart together. -/
def Obligations.CalibrationTriggers : Prop := Claims.TemperatureSample ∧ Claims.CalibrationStart

/-- Stress hours and re-planned margins: AgeHour, MarginReplan together. -/
def Obligations.Ageing : Prop := Claims.AgeHour ∧ Claims.MarginReplan

/-- Ends of fault handlings, and queued faults: RecoveryDone, RecoveryTimeout, QueuedFaults together. -/
def Obligations.FaultHandling : Prop := Claims.RecoveryDone ∧ Claims.RecoveryTimeout ∧ Claims.QueuedFaults

/-- Self-checks and in-service tests: SelfChecks, TestPhases together. -/
def Obligations.SelfChecksAndTests : Prop := Claims.SelfChecks ∧ Claims.TestPhases
end

