-- ==== Sys2Proof/Laws/Maps.lean ====
section
/-! SUPPORT. Read after write of lists and of canonical maps, and that every map operation keeps the canonical form. -/
namespace Sys2Proof.Machine

/-! Lists -/

@[simp] theorem nth_nil (a : α) (i : Nat) : nth a [] i = a := by simp [nth]
@[simp] theorem nth_cons_zero (a b : α) (l : List α) : nth a (b :: l) 0 = b := by simp [nth]
@[simp] theorem nth_cons_succ (a b : α) (l : List α) (i : Nat) : nth a (b :: l) (i + 1) = nth a l i := by simp [nth]

/-- An element written reads back; every other element reads as before. -/
theorem nth_upd (a : α) (l : List α) (i j : Nat) (v : α) : nth a (upd a l i v) j = if j = i then v else nth a l j := by
  fun_induction upd a l i v generalizing j with
  | case1 v => cases j <;> simp
  | case2 v i ih => cases j <;> simp [ih]
  | case3 v b l => cases j <;> simp
  | case4 v b l i ih => cases j <;> simp [ih]

@[simp] theorem nth_upd_self (a : α) (l : List α) (i : Nat) (v : α) : nth a (upd a l i v) i = v := by simp [nth_upd]

theorem nth_upd_ne (a : α) (l : List α) {i j : Nat} (v : α) (h : j ≠ i) : nth a (upd a l i v) j = nth a l j := by
  simp [nth_upd, h]

/-! Maps: read after write -/

@[simp] theorem CMap.get_nil (d : Nat → α) (k : Nat) : CMap.get d [] k = d k := rfl

theorem CMap.get_del (d : Nat → α) (m : CMap α) (k j : Nat) :
    CMap.get d (CMap.del m k) j = if j = k then d j else CMap.get d m j := by
  induction m with
  | nil => simp [CMap.del]
  | cons e m ih =>
    obtain ⟨i, v⟩ := e
    simp only [CMap.del] at ih ⊢
    by_cases hi : i = k
    · subst hi
      by_cases hj : j = i
      · simpa [List.filter, hj] using ih
      · have : i ≠ j := fun h => hj h.symm
        simpa [List.filter, CMap.get, hj, this] using ih
    · have hb : (i != k) = true := by simpa using hi
      rw [List.filter_cons_of_pos (by simpa using hi)]
      simp only [CMap.get, ih]
      by_cases hj : j = k
      · have : i ≠ j := fun h => hi (h.trans hj)
        simp [hj, hi]
      · simp [hj]

theorem CMap.get_ins (d : Nat → α) (m : CMap α) (k j : Nat) (v : α) (h : ∀ e ∈ m, e.1 ≠ k) :
    CMap.get d (CMap.ins m k v) j = if j = k then v else CMap.get d m j := by
  induction m with
  | nil =>
    by_cases hj : j = k
    · simp [CMap.ins, CMap.get, hj]
    · have : k ≠ j := fun h => hj h.symm
      simp [CMap.ins, CMap.get, hj, this]
  | cons e m ih =>
    obtain ⟨i, w⟩ := e
    have hi : i ≠ k := h (i, w) (by simp)
    simp only [CMap.ins]
    split
    · simp only [CMap.get, ih (fun e he => h e (by simp [he]))]
      by_cases hj : j = k
      · simp [hj, hi]
      · simp [hj]
    · by_cases hj : j = k
      · simp [CMap.get, hj]
      · have : k ≠ j := fun h => hj h.symm
        simp [CMap.get, hj, this]

/-- A word written reads back; every other key reads as before. -/
theorem CMap.get_set [DecidableEq α] (d : Nat → α) (m : CMap α) (k j : Nat) (v : α) :
    CMap.get d (CMap.set d m k v) j = if j = k then v else CMap.get d m j := by
  unfold CMap.set
  split
  · next h =>
    rw [CMap.get_del]
    by_cases hj : j = k
    · simp [hj, h]
    · simp [hj]
  · rw [CMap.get_ins _ _ _ _ _ (by simp [CMap.del]), CMap.get_del]
    by_cases hj : j = k <;> simp [hj]

@[simp] theorem CMap.get_set_self [DecidableEq α] (d : Nat → α) (m : CMap α) (k : Nat) (v : α) :
    CMap.get d (CMap.set d m k v) k = v := by simp [CMap.get_set]

theorem CMap.get_set_ne [DecidableEq α] (d : Nat → α) (m : CMap α) {k j : Nat} (v : α) (h : j ≠ k) :
    CMap.get d (CMap.set d m k v) j = CMap.get d m j := by simp [CMap.get_set, h]

/-! Maps: the canonical form -/

theorem CMap.sortedFrom_mono {m : CMap α} {a b : Nat} (hab : a ≤ b) (h : CMap.sortedFrom b m = true) :
    CMap.sortedFrom a m = true := by
  cases m with
  | nil => rfl
  | cons e m =>
    simp only [CMap.sortedFrom, Bool.and_eq_true, decide_eq_true_eq] at h ⊢
    exact ⟨Nat.le_trans hab h.1, h.2⟩

theorem CMap.sortedFrom_filter (p : Nat × α → Bool) {m : CMap α} {a : Nat} (h : CMap.sortedFrom a m = true) :
    CMap.sortedFrom a (m.filter p) = true := by
  induction m generalizing a with
  | nil => rfl
  | cons e m ih =>
    simp only [CMap.sortedFrom, Bool.and_eq_true, decide_eq_true_eq] at h
    rw [List.filter_cons]
    split
    · simp [CMap.sortedFrom, h.1, ih h.2]
    · exact CMap.sortedFrom_mono (Nat.le_succ_of_le h.1) (ih h.2)

theorem CMap.sortedFrom_ins {m : CMap α} {a k : Nat} {v : α} (hk : a ≤ k) (hn : ∀ e ∈ m, e.1 ≠ k)
    (h : CMap.sortedFrom a m = true) : CMap.sortedFrom a (CMap.ins m k v) = true := by
  induction m generalizing a with
  | nil => simp [CMap.ins, CMap.sortedFrom, hk]
  | cons e m ih =>
    obtain ⟨i, w⟩ := e
    simp only [CMap.sortedFrom, Bool.and_eq_true, decide_eq_true_eq] at h
    have hi : i ≠ k := hn (i, w) (by simp)
    simp only [CMap.ins]
    split
    · next hlt => simp [CMap.sortedFrom, h.1, ih hlt (fun e he => hn e (by simp [he])) h.2]
    · next hge =>
      have : k + 1 ≤ i := by omega
      simp [CMap.sortedFrom, hk, this, h.2]

theorem CMap.mem_ins {m : CMap α} {k : Nat} {v : α} {e : Nat × α} (h : e ∈ CMap.ins m k v) : e = (k, v) ∨ e ∈ m := by
  induction m with
  | nil => simpa [CMap.ins] using h
  | cons x m ih =>
    obtain ⟨i, w⟩ := x
    simp only [CMap.ins] at h
    split at h
    · rcases List.mem_cons.1 h with h | h
      · exact Or.inr (by simp [h])
      · exact (ih h).imp id (fun h => by simp [h])
    · simpa using h

theorem CMap.wf_filter [DecidableEq α] {d : Nat → α} (p : Nat × α → Bool) {m : CMap α} (h : CMap.wf d m = true) :
    CMap.wf d (m.filter p) = true := by
  simp only [CMap.wf, Bool.and_eq_true, List.all_eq_true] at h ⊢
  exact ⟨CMap.sortedFrom_filter p h.1, fun e he => h.2 e (List.mem_filter.1 he).1⟩

theorem CMap.wf_del [DecidableEq α] {d : Nat → α} {m : CMap α} (k : Nat) (h : CMap.wf d m = true) :
    CMap.wf d (CMap.del m k) = true := CMap.wf_filter _ h

theorem CMap.wf_clearRange [DecidableEq α] {d : Nat → α} {m : CMap α} (lo hi : Nat) (h : CMap.wf d m = true) :
    CMap.wf d (CMap.clearRange m lo hi) = true := CMap.wf_filter _ h

/-- Every write keeps the canonical form. -/
theorem CMap.wf_set [DecidableEq α] {d : Nat → α} {m : CMap α} (k : Nat) (v : α) (h : CMap.wf d m = true) :
    CMap.wf d (CMap.set d m k v) = true := by
  unfold CMap.set
  split
  · exact CMap.wf_del k h
  · next hv =>
    have hd := CMap.wf_del k h
    simp only [CMap.wf, Bool.and_eq_true, List.all_eq_true, decide_eq_true_eq] at hd ⊢
    refine ⟨CMap.sortedFrom_ins (Nat.zero_le _) (by simp [CMap.del]) hd.1, fun e he => ?_⟩
    rcases CMap.mem_ins he with rfl | he
    · exact hv
    · exact hd.2 e he

end Sys2Proof.Machine
end

