-- ==== Sys2Proof/Laws/State.lean ====
section
/-! SUPPORT. What each small update of the device leaves alone, one lemma for each field, and what it writes. -/
namespace Sys2Proof.Machine

@[simp] theorem setReg_now (a : Nat) (v : Word) (d : Dev) : (setReg a v d).now = d.now := rfl
@[simp] theorem setReg_free (a : Nat) (v : Word) (d : Dev) : (setReg a v d).free = d.free := rfl
@[simp] theorem setReg_rdata (a : Nat) (v : Word) (d : Dev) : (setReg a v d).rdata = d.rdata := rfl
@[simp] theorem setReg_marks (a : Nat) (v : Word) (d : Dev) : (setReg a v d).marks = d.marks := rfl
@[simp] theorem setReg_tb (a : Nat) (v : Word) (d : Dev) : (setReg a v d).tb = d.tb := rfl
@[simp] theorem setReg_uhf (a : Nat) (v : Word) (d : Dev) : (setReg a v d).uhf = d.uhf := rfl
@[simp] theorem setReg_chA (a : Nat) (v : Word) (d : Dev) : (setReg a v d).chA = d.chA := rfl
@[simp] theorem setReg_chB (a : Nat) (v : Word) (d : Dev) : (setReg a v d).chB = d.chB := rfl
@[simp] theorem setReg_pair (a : Nat) (v : Word) (d : Dev) : (setReg a v d).pair = d.pair := rfl
@[simp] theorem setReg_seq (a : Nat) (v : Word) (d : Dev) : (setReg a v d).seq = d.seq := rfl
@[simp] theorem setReg_gen2 (a : Nat) (v : Word) (d : Dev) : (setReg a v d).gen2 = d.gen2 := rfl
@[simp] theorem setReg_acc (a : Nat) (v : Word) (d : Dev) : (setReg a v d).acc = d.acc := rfl
@[simp] theorem setReg_comb (a : Nat) (v : Word) (d : Dev) : (setReg a v d).comb = d.comb := rfl
@[simp] theorem setReg_dmk (a : Nat) (v : Word) (d : Dev) : (setReg a v d).dmk = d.dmk := rfl
@[simp] theorem setReg_hf (a : Nat) (v : Word) (d : Dev) : (setReg a v d).hf = d.hf := rfl
@[simp] theorem setReg_portA (a : Nat) (v : Word) (d : Dev) : (setReg a v d).portA = d.portA := rfl
@[simp] theorem setReg_portB (a : Nat) (v : Word) (d : Dev) : (setReg a v d).portB = d.portB := rfl
@[simp] theorem setReg_mst (a : Nat) (v : Word) (d : Dev) : (setReg a v d).mst = d.mst := rfl
@[simp] theorem setReg_rings (a : Nat) (v : Word) (d : Dev) : (setReg a v d).rings = d.rings := rfl
@[simp] theorem setReg_ops (a : Nat) (v : Word) (d : Dev) : (setReg a v d).ops = d.ops := rfl
@[simp] theorem setReg_held (a : Nat) (v : Word) (d : Dev) : (setReg a v d).held = d.held := rfl
@[simp] theorem setReg_opSeq (a : Nat) (v : Word) (d : Dev) : (setReg a v d).opSeq = d.opSeq := rfl
@[simp] theorem setReg_sys (a : Nat) (v : Word) (d : Dev) : (setReg a v d).sys = d.sys := rfl
@[simp] theorem setReg_cpu (a : Nat) (v : Word) (d : Dev) : (setReg a v d).cpu = d.cpu := rfl
@[simp] theorem setReg_pmu (a : Nat) (v : Word) (d : Dev) : (setReg a v d).pmu = d.pmu := rfl
@[simp] theorem setReg_cal (a : Nat) (v : Word) (d : Dev) : (setReg a v d).cal = d.cal := rfl
@[simp] theorem setReg_svc (a : Nat) (v : Word) (d : Dev) : (setReg a v d).svc = d.svc := rfl
@[simp] theorem setReg_set0 (a : Nat) (v : Word) (d : Dev) : (setReg a v d).set0 = d.set0 := rfl
@[simp] theorem setReg_set1 (a : Nat) (v : Word) (d : Dev) : (setReg a v d).set1 = d.set1 := rfl
@[simp] theorem setReg_sel (a : Nat) (v : Word) (d : Dev) : (setReg a v d).sel = d.sel := rfl

@[simp] theorem setField_now (a hi lo v : Nat) (d : Dev) : (setField a hi lo v d).now = d.now := rfl
@[simp] theorem setField_free (a hi lo v : Nat) (d : Dev) : (setField a hi lo v d).free = d.free := rfl
@[simp] theorem setField_rdata (a hi lo v : Nat) (d : Dev) : (setField a hi lo v d).rdata = d.rdata := rfl
@[simp] theorem setField_marks (a hi lo v : Nat) (d : Dev) : (setField a hi lo v d).marks = d.marks := rfl
@[simp] theorem setField_tb (a hi lo v : Nat) (d : Dev) : (setField a hi lo v d).tb = d.tb := rfl
@[simp] theorem setField_uhf (a hi lo v : Nat) (d : Dev) : (setField a hi lo v d).uhf = d.uhf := rfl
@[simp] theorem setField_chA (a hi lo v : Nat) (d : Dev) : (setField a hi lo v d).chA = d.chA := rfl
@[simp] theorem setField_chB (a hi lo v : Nat) (d : Dev) : (setField a hi lo v d).chB = d.chB := rfl
@[simp] theorem setField_pair (a hi lo v : Nat) (d : Dev) : (setField a hi lo v d).pair = d.pair := rfl
@[simp] theorem setField_seq (a hi lo v : Nat) (d : Dev) : (setField a hi lo v d).seq = d.seq := rfl
@[simp] theorem setField_gen2 (a hi lo v : Nat) (d : Dev) : (setField a hi lo v d).gen2 = d.gen2 := rfl
@[simp] theorem setField_acc (a hi lo v : Nat) (d : Dev) : (setField a hi lo v d).acc = d.acc := rfl
@[simp] theorem setField_comb (a hi lo v : Nat) (d : Dev) : (setField a hi lo v d).comb = d.comb := rfl
@[simp] theorem setField_dmk (a hi lo v : Nat) (d : Dev) : (setField a hi lo v d).dmk = d.dmk := rfl
@[simp] theorem setField_hf (a hi lo v : Nat) (d : Dev) : (setField a hi lo v d).hf = d.hf := rfl
@[simp] theorem setField_portA (a hi lo v : Nat) (d : Dev) : (setField a hi lo v d).portA = d.portA := rfl
@[simp] theorem setField_portB (a hi lo v : Nat) (d : Dev) : (setField a hi lo v d).portB = d.portB := rfl
@[simp] theorem setField_mst (a hi lo v : Nat) (d : Dev) : (setField a hi lo v d).mst = d.mst := rfl
@[simp] theorem setField_rings (a hi lo v : Nat) (d : Dev) : (setField a hi lo v d).rings = d.rings := rfl
@[simp] theorem setField_ops (a hi lo v : Nat) (d : Dev) : (setField a hi lo v d).ops = d.ops := rfl
@[simp] theorem setField_held (a hi lo v : Nat) (d : Dev) : (setField a hi lo v d).held = d.held := rfl
@[simp] theorem setField_opSeq (a hi lo v : Nat) (d : Dev) : (setField a hi lo v d).opSeq = d.opSeq := rfl
@[simp] theorem setField_sys (a hi lo v : Nat) (d : Dev) : (setField a hi lo v d).sys = d.sys := rfl
@[simp] theorem setField_cpu (a hi lo v : Nat) (d : Dev) : (setField a hi lo v d).cpu = d.cpu := rfl
@[simp] theorem setField_pmu (a hi lo v : Nat) (d : Dev) : (setField a hi lo v d).pmu = d.pmu := rfl
@[simp] theorem setField_cal (a hi lo v : Nat) (d : Dev) : (setField a hi lo v d).cal = d.cal := rfl
@[simp] theorem setField_svc (a hi lo v : Nat) (d : Dev) : (setField a hi lo v d).svc = d.svc := rfl
@[simp] theorem setField_set0 (a hi lo v : Nat) (d : Dev) : (setField a hi lo v d).set0 = d.set0 := rfl
@[simp] theorem setField_set1 (a hi lo v : Nat) (d : Dev) : (setField a hi lo v d).set1 = d.set1 := rfl
@[simp] theorem setField_sel (a hi lo v : Nat) (d : Dev) : (setField a hi lo v d).sel = d.sel := rfl

@[simp] theorem clearBit_now (a b : Nat) (d : Dev) : (clearBit a b d).now = d.now := rfl
@[simp] theorem clearBit_free (a b : Nat) (d : Dev) : (clearBit a b d).free = d.free := rfl
@[simp] theorem clearBit_rdata (a b : Nat) (d : Dev) : (clearBit a b d).rdata = d.rdata := rfl
@[simp] theorem clearBit_marks (a b : Nat) (d : Dev) : (clearBit a b d).marks = d.marks := rfl
@[simp] theorem clearBit_tb (a b : Nat) (d : Dev) : (clearBit a b d).tb = d.tb := rfl
@[simp] theorem clearBit_uhf (a b : Nat) (d : Dev) : (clearBit a b d).uhf = d.uhf := rfl
@[simp] theorem clearBit_chA (a b : Nat) (d : Dev) : (clearBit a b d).chA = d.chA := rfl
@[simp] theorem clearBit_chB (a b : Nat) (d : Dev) : (clearBit a b d).chB = d.chB := rfl
@[simp] theorem clearBit_pair (a b : Nat) (d : Dev) : (clearBit a b d).pair = d.pair := rfl
@[simp] theorem clearBit_seq (a b : Nat) (d : Dev) : (clearBit a b d).seq = d.seq := rfl
@[simp] theorem clearBit_gen2 (a b : Nat) (d : Dev) : (clearBit a b d).gen2 = d.gen2 := rfl
@[simp] theorem clearBit_acc (a b : Nat) (d : Dev) : (clearBit a b d).acc = d.acc := rfl
@[simp] theorem clearBit_comb (a b : Nat) (d : Dev) : (clearBit a b d).comb = d.comb := rfl
@[simp] theorem clearBit_dmk (a b : Nat) (d : Dev) : (clearBit a b d).dmk = d.dmk := rfl
@[simp] theorem clearBit_hf (a b : Nat) (d : Dev) : (clearBit a b d).hf = d.hf := rfl
@[simp] theorem clearBit_portA (a b : Nat) (d : Dev) : (clearBit a b d).portA = d.portA := rfl
@[simp] theorem clearBit_portB (a b : Nat) (d : Dev) : (clearBit a b d).portB = d.portB := rfl
@[simp] theorem clearBit_mst (a b : Nat) (d : Dev) : (clearBit a b d).mst = d.mst := rfl
@[simp] theorem clearBit_rings (a b : Nat) (d : Dev) : (clearBit a b d).rings = d.rings := rfl
@[simp] theorem clearBit_ops (a b : Nat) (d : Dev) : (clearBit a b d).ops = d.ops := rfl
@[simp] theorem clearBit_held (a b : Nat) (d : Dev) : (clearBit a b d).held = d.held := rfl
@[simp] theorem clearBit_opSeq (a b : Nat) (d : Dev) : (clearBit a b d).opSeq = d.opSeq := rfl
@[simp] theorem clearBit_sys (a b : Nat) (d : Dev) : (clearBit a b d).sys = d.sys := rfl
@[simp] theorem clearBit_cpu (a b : Nat) (d : Dev) : (clearBit a b d).cpu = d.cpu := rfl
@[simp] theorem clearBit_pmu (a b : Nat) (d : Dev) : (clearBit a b d).pmu = d.pmu := rfl
@[simp] theorem clearBit_cal (a b : Nat) (d : Dev) : (clearBit a b d).cal = d.cal := rfl
@[simp] theorem clearBit_svc (a b : Nat) (d : Dev) : (clearBit a b d).svc = d.svc := rfl
@[simp] theorem clearBit_set0 (a b : Nat) (d : Dev) : (clearBit a b d).set0 = d.set0 := rfl
@[simp] theorem clearBit_set1 (a b : Nat) (d : Dev) : (clearBit a b d).set1 = d.set1 := rfl
@[simp] theorem clearBit_sel (a b : Nat) (d : Dev) : (clearBit a b d).sel = d.sel := rfl

@[simp] theorem event_now (a b : Nat) (d : Dev) : (event a b d).now = d.now := rfl
@[simp] theorem event_free (a b : Nat) (d : Dev) : (event a b d).free = d.free := rfl
@[simp] theorem event_rdata (a b : Nat) (d : Dev) : (event a b d).rdata = d.rdata := rfl
@[simp] theorem event_tb (a b : Nat) (d : Dev) : (event a b d).tb = d.tb := rfl
@[simp] theorem event_uhf (a b : Nat) (d : Dev) : (event a b d).uhf = d.uhf := rfl
@[simp] theorem event_chA (a b : Nat) (d : Dev) : (event a b d).chA = d.chA := rfl
@[simp] theorem event_chB (a b : Nat) (d : Dev) : (event a b d).chB = d.chB := rfl
@[simp] theorem event_pair (a b : Nat) (d : Dev) : (event a b d).pair = d.pair := rfl
@[simp] theorem event_seq (a b : Nat) (d : Dev) : (event a b d).seq = d.seq := rfl
@[simp] theorem event_gen2 (a b : Nat) (d : Dev) : (event a b d).gen2 = d.gen2 := rfl
@[simp] theorem event_acc (a b : Nat) (d : Dev) : (event a b d).acc = d.acc := rfl
@[simp] theorem event_comb (a b : Nat) (d : Dev) : (event a b d).comb = d.comb := rfl
@[simp] theorem event_dmk (a b : Nat) (d : Dev) : (event a b d).dmk = d.dmk := rfl
@[simp] theorem event_hf (a b : Nat) (d : Dev) : (event a b d).hf = d.hf := rfl
@[simp] theorem event_portA (a b : Nat) (d : Dev) : (event a b d).portA = d.portA := rfl
@[simp] theorem event_portB (a b : Nat) (d : Dev) : (event a b d).portB = d.portB := rfl
@[simp] theorem event_mst (a b : Nat) (d : Dev) : (event a b d).mst = d.mst := rfl
@[simp] theorem event_rings (a b : Nat) (d : Dev) : (event a b d).rings = d.rings := rfl
@[simp] theorem event_ops (a b : Nat) (d : Dev) : (event a b d).ops = d.ops := rfl
@[simp] theorem event_held (a b : Nat) (d : Dev) : (event a b d).held = d.held := rfl
@[simp] theorem event_opSeq (a b : Nat) (d : Dev) : (event a b d).opSeq = d.opSeq := rfl
@[simp] theorem event_sys (a b : Nat) (d : Dev) : (event a b d).sys = d.sys := rfl
@[simp] theorem event_cpu (a b : Nat) (d : Dev) : (event a b d).cpu = d.cpu := rfl
@[simp] theorem event_pmu (a b : Nat) (d : Dev) : (event a b d).pmu = d.pmu := rfl
@[simp] theorem event_cal (a b : Nat) (d : Dev) : (event a b d).cal = d.cal := rfl
@[simp] theorem event_svc (a b : Nat) (d : Dev) : (event a b d).svc = d.svc := rfl
@[simp] theorem event_set0 (a b : Nat) (d : Dev) : (event a b d).set0 = d.set0 := rfl
@[simp] theorem event_set1 (a b : Nat) (d : Dev) : (event a b d).set1 = d.set1 := rfl
@[simp] theorem event_sel (a b : Nat) (d : Dev) : (event a b d).sel = d.sel := rfl

@[simp] theorem count_now (a hi lo k : Nat) (d : Dev) : (count a hi lo k d).now = d.now := rfl
@[simp] theorem count_free (a hi lo k : Nat) (d : Dev) : (count a hi lo k d).free = d.free := rfl
@[simp] theorem count_rdata (a hi lo k : Nat) (d : Dev) : (count a hi lo k d).rdata = d.rdata := rfl
@[simp] theorem count_tb (a hi lo k : Nat) (d : Dev) : (count a hi lo k d).tb = d.tb := rfl
@[simp] theorem count_uhf (a hi lo k : Nat) (d : Dev) : (count a hi lo k d).uhf = d.uhf := rfl
@[simp] theorem count_chA (a hi lo k : Nat) (d : Dev) : (count a hi lo k d).chA = d.chA := rfl
@[simp] theorem count_chB (a hi lo k : Nat) (d : Dev) : (count a hi lo k d).chB = d.chB := rfl
@[simp] theorem count_pair (a hi lo k : Nat) (d : Dev) : (count a hi lo k d).pair = d.pair := rfl
@[simp] theorem count_seq (a hi lo k : Nat) (d : Dev) : (count a hi lo k d).seq = d.seq := rfl
@[simp] theorem count_gen2 (a hi lo k : Nat) (d : Dev) : (count a hi lo k d).gen2 = d.gen2 := rfl
@[simp] theorem count_acc (a hi lo k : Nat) (d : Dev) : (count a hi lo k d).acc = d.acc := rfl
@[simp] theorem count_comb (a hi lo k : Nat) (d : Dev) : (count a hi lo k d).comb = d.comb := rfl
@[simp] theorem count_dmk (a hi lo k : Nat) (d : Dev) : (count a hi lo k d).dmk = d.dmk := rfl
@[simp] theorem count_hf (a hi lo k : Nat) (d : Dev) : (count a hi lo k d).hf = d.hf := rfl
@[simp] theorem count_portA (a hi lo k : Nat) (d : Dev) : (count a hi lo k d).portA = d.portA := rfl
@[simp] theorem count_portB (a hi lo k : Nat) (d : Dev) : (count a hi lo k d).portB = d.portB := rfl
@[simp] theorem count_mst (a hi lo k : Nat) (d : Dev) : (count a hi lo k d).mst = d.mst := rfl
@[simp] theorem count_rings (a hi lo k : Nat) (d : Dev) : (count a hi lo k d).rings = d.rings := rfl
@[simp] theorem count_ops (a hi lo k : Nat) (d : Dev) : (count a hi lo k d).ops = d.ops := rfl
@[simp] theorem count_held (a hi lo k : Nat) (d : Dev) : (count a hi lo k d).held = d.held := rfl
@[simp] theorem count_opSeq (a hi lo k : Nat) (d : Dev) : (count a hi lo k d).opSeq = d.opSeq := rfl
@[simp] theorem count_sys (a hi lo k : Nat) (d : Dev) : (count a hi lo k d).sys = d.sys := rfl
@[simp] theorem count_cpu (a hi lo k : Nat) (d : Dev) : (count a hi lo k d).cpu = d.cpu := rfl
@[simp] theorem count_pmu (a hi lo k : Nat) (d : Dev) : (count a hi lo k d).pmu = d.pmu := rfl
@[simp] theorem count_cal (a hi lo k : Nat) (d : Dev) : (count a hi lo k d).cal = d.cal := rfl
@[simp] theorem count_svc (a hi lo k : Nat) (d : Dev) : (count a hi lo k d).svc = d.svc := rfl
@[simp] theorem count_set0 (a hi lo k : Nat) (d : Dev) : (count a hi lo k d).set0 = d.set0 := rfl
@[simp] theorem count_set1 (a hi lo k : Nat) (d : Dev) : (count a hi lo k d).set1 = d.set1 := rfl
@[simp] theorem count_sel (a hi lo k : Nat) (d : Dev) : (count a hi lo k d).sel = d.sel := rfl

@[simp] theorem w1c_now (a : Nat) (v : Word) (d : Dev) : (w1c a v d).now = d.now := rfl
@[simp] theorem w1c_free (a : Nat) (v : Word) (d : Dev) : (w1c a v d).free = d.free := rfl
@[simp] theorem w1c_rdata (a : Nat) (v : Word) (d : Dev) : (w1c a v d).rdata = d.rdata := rfl
@[simp] theorem w1c_marks (a : Nat) (v : Word) (d : Dev) : (w1c a v d).marks = d.marks := rfl
@[simp] theorem w1c_tb (a : Nat) (v : Word) (d : Dev) : (w1c a v d).tb = d.tb := rfl
@[simp] theorem w1c_uhf (a : Nat) (v : Word) (d : Dev) : (w1c a v d).uhf = d.uhf := rfl
@[simp] theorem w1c_chA (a : Nat) (v : Word) (d : Dev) : (w1c a v d).chA = d.chA := rfl
@[simp] theorem w1c_chB (a : Nat) (v : Word) (d : Dev) : (w1c a v d).chB = d.chB := rfl
@[simp] theorem w1c_pair (a : Nat) (v : Word) (d : Dev) : (w1c a v d).pair = d.pair := rfl
@[simp] theorem w1c_seq (a : Nat) (v : Word) (d : Dev) : (w1c a v d).seq = d.seq := rfl
@[simp] theorem w1c_gen2 (a : Nat) (v : Word) (d : Dev) : (w1c a v d).gen2 = d.gen2 := rfl
@[simp] theorem w1c_acc (a : Nat) (v : Word) (d : Dev) : (w1c a v d).acc = d.acc := rfl
@[simp] theorem w1c_comb (a : Nat) (v : Word) (d : Dev) : (w1c a v d).comb = d.comb := rfl
@[simp] theorem w1c_dmk (a : Nat) (v : Word) (d : Dev) : (w1c a v d).dmk = d.dmk := rfl
@[simp] theorem w1c_hf (a : Nat) (v : Word) (d : Dev) : (w1c a v d).hf = d.hf := rfl
@[simp] theorem w1c_portA (a : Nat) (v : Word) (d : Dev) : (w1c a v d).portA = d.portA := rfl
@[simp] theorem w1c_portB (a : Nat) (v : Word) (d : Dev) : (w1c a v d).portB = d.portB := rfl
@[simp] theorem w1c_mst (a : Nat) (v : Word) (d : Dev) : (w1c a v d).mst = d.mst := rfl
@[simp] theorem w1c_rings (a : Nat) (v : Word) (d : Dev) : (w1c a v d).rings = d.rings := rfl
@[simp] theorem w1c_ops (a : Nat) (v : Word) (d : Dev) : (w1c a v d).ops = d.ops := rfl
@[simp] theorem w1c_held (a : Nat) (v : Word) (d : Dev) : (w1c a v d).held = d.held := rfl
@[simp] theorem w1c_opSeq (a : Nat) (v : Word) (d : Dev) : (w1c a v d).opSeq = d.opSeq := rfl
@[simp] theorem w1c_sys (a : Nat) (v : Word) (d : Dev) : (w1c a v d).sys = d.sys := rfl
@[simp] theorem w1c_cpu (a : Nat) (v : Word) (d : Dev) : (w1c a v d).cpu = d.cpu := rfl
@[simp] theorem w1c_pmu (a : Nat) (v : Word) (d : Dev) : (w1c a v d).pmu = d.pmu := rfl
@[simp] theorem w1c_cal (a : Nat) (v : Word) (d : Dev) : (w1c a v d).cal = d.cal := rfl
@[simp] theorem w1c_svc (a : Nat) (v : Word) (d : Dev) : (w1c a v d).svc = d.svc := rfl
@[simp] theorem w1c_set0 (a : Nat) (v : Word) (d : Dev) : (w1c a v d).set0 = d.set0 := rfl
@[simp] theorem w1c_set1 (a : Nat) (v : Word) (d : Dev) : (w1c a v d).set1 = d.set1 := rfl
@[simp] theorem w1c_sel (a : Nat) (v : Word) (d : Dev) : (w1c a v d).sel = d.sel := rfl

@[simp] theorem setThr_now (n : Nat) (th : Thread) (d : Dev) : (setThr n th d).now = d.now := rfl
@[simp] theorem setThr_free (n : Nat) (th : Thread) (d : Dev) : (setThr n th d).free = d.free := rfl
@[simp] theorem setThr_rdata (n : Nat) (th : Thread) (d : Dev) : (setThr n th d).rdata = d.rdata := rfl
@[simp] theorem setThr_marks (n : Nat) (th : Thread) (d : Dev) : (setThr n th d).marks = d.marks := rfl
@[simp] theorem setThr_tb (n : Nat) (th : Thread) (d : Dev) : (setThr n th d).tb = d.tb := rfl
@[simp] theorem setThr_uhf (n : Nat) (th : Thread) (d : Dev) : (setThr n th d).uhf = d.uhf := rfl
@[simp] theorem setThr_chA (n : Nat) (th : Thread) (d : Dev) : (setThr n th d).chA = d.chA := rfl
@[simp] theorem setThr_chB (n : Nat) (th : Thread) (d : Dev) : (setThr n th d).chB = d.chB := rfl
@[simp] theorem setThr_pair (n : Nat) (th : Thread) (d : Dev) : (setThr n th d).pair = d.pair := rfl
@[simp] theorem setThr_gen2 (n : Nat) (th : Thread) (d : Dev) : (setThr n th d).gen2 = d.gen2 := rfl
@[simp] theorem setThr_acc (n : Nat) (th : Thread) (d : Dev) : (setThr n th d).acc = d.acc := rfl
@[simp] theorem setThr_comb (n : Nat) (th : Thread) (d : Dev) : (setThr n th d).comb = d.comb := rfl
@[simp] theorem setThr_dmk (n : Nat) (th : Thread) (d : Dev) : (setThr n th d).dmk = d.dmk := rfl
@[simp] theorem setThr_hf (n : Nat) (th : Thread) (d : Dev) : (setThr n th d).hf = d.hf := rfl
@[simp] theorem setThr_portA (n : Nat) (th : Thread) (d : Dev) : (setThr n th d).portA = d.portA := rfl
@[simp] theorem setThr_portB (n : Nat) (th : Thread) (d : Dev) : (setThr n th d).portB = d.portB := rfl
@[simp] theorem setThr_mst (n : Nat) (th : Thread) (d : Dev) : (setThr n th d).mst = d.mst := rfl
@[simp] theorem setThr_rings (n : Nat) (th : Thread) (d : Dev) : (setThr n th d).rings = d.rings := rfl
@[simp] theorem setThr_ops (n : Nat) (th : Thread) (d : Dev) : (setThr n th d).ops = d.ops := rfl
@[simp] theorem setThr_held (n : Nat) (th : Thread) (d : Dev) : (setThr n th d).held = d.held := rfl
@[simp] theorem setThr_opSeq (n : Nat) (th : Thread) (d : Dev) : (setThr n th d).opSeq = d.opSeq := rfl
@[simp] theorem setThr_sys (n : Nat) (th : Thread) (d : Dev) : (setThr n th d).sys = d.sys := rfl
@[simp] theorem setThr_cpu (n : Nat) (th : Thread) (d : Dev) : (setThr n th d).cpu = d.cpu := rfl
@[simp] theorem setThr_pmu (n : Nat) (th : Thread) (d : Dev) : (setThr n th d).pmu = d.pmu := rfl
@[simp] theorem setThr_cal (n : Nat) (th : Thread) (d : Dev) : (setThr n th d).cal = d.cal := rfl
@[simp] theorem setThr_svc (n : Nat) (th : Thread) (d : Dev) : (setThr n th d).svc = d.svc := rfl
@[simp] theorem setThr_regs (n : Nat) (th : Thread) (d : Dev) : (setThr n th d).regs = d.regs := rfl
@[simp] theorem setThr_set0 (n : Nat) (th : Thread) (d : Dev) : (setThr n th d).set0 = d.set0 := rfl
@[simp] theorem setThr_set1 (n : Nat) (th : Thread) (d : Dev) : (setThr n th d).set1 = d.set1 := rfl
@[simp] theorem setThr_sel (n : Nat) (th : Thread) (d : Dev) : (setThr n th d).sel = d.sel := rfl

@[simp] theorem setRing_now (n : Nat) (r : Ring) (d : Dev) : (setRing n r d).now = d.now := rfl
@[simp] theorem setRing_free (n : Nat) (r : Ring) (d : Dev) : (setRing n r d).free = d.free := rfl
@[simp] theorem setRing_rdata (n : Nat) (r : Ring) (d : Dev) : (setRing n r d).rdata = d.rdata := rfl
@[simp] theorem setRing_marks (n : Nat) (r : Ring) (d : Dev) : (setRing n r d).marks = d.marks := rfl
@[simp] theorem setRing_tb (n : Nat) (r : Ring) (d : Dev) : (setRing n r d).tb = d.tb := rfl
@[simp] theorem setRing_uhf (n : Nat) (r : Ring) (d : Dev) : (setRing n r d).uhf = d.uhf := rfl
@[simp] theorem setRing_chA (n : Nat) (r : Ring) (d : Dev) : (setRing n r d).chA = d.chA := rfl
@[simp] theorem setRing_chB (n : Nat) (r : Ring) (d : Dev) : (setRing n r d).chB = d.chB := rfl
@[simp] theorem setRing_pair (n : Nat) (r : Ring) (d : Dev) : (setRing n r d).pair = d.pair := rfl
@[simp] theorem setRing_seq (n : Nat) (r : Ring) (d : Dev) : (setRing n r d).seq = d.seq := rfl
@[simp] theorem setRing_gen2 (n : Nat) (r : Ring) (d : Dev) : (setRing n r d).gen2 = d.gen2 := rfl
@[simp] theorem setRing_acc (n : Nat) (r : Ring) (d : Dev) : (setRing n r d).acc = d.acc := rfl
@[simp] theorem setRing_comb (n : Nat) (r : Ring) (d : Dev) : (setRing n r d).comb = d.comb := rfl
@[simp] theorem setRing_dmk (n : Nat) (r : Ring) (d : Dev) : (setRing n r d).dmk = d.dmk := rfl
@[simp] theorem setRing_hf (n : Nat) (r : Ring) (d : Dev) : (setRing n r d).hf = d.hf := rfl
@[simp] theorem setRing_portA (n : Nat) (r : Ring) (d : Dev) : (setRing n r d).portA = d.portA := rfl
@[simp] theorem setRing_portB (n : Nat) (r : Ring) (d : Dev) : (setRing n r d).portB = d.portB := rfl
@[simp] theorem setRing_mst (n : Nat) (r : Ring) (d : Dev) : (setRing n r d).mst = d.mst := rfl
@[simp] theorem setRing_ops (n : Nat) (r : Ring) (d : Dev) : (setRing n r d).ops = d.ops := rfl
@[simp] theorem setRing_held (n : Nat) (r : Ring) (d : Dev) : (setRing n r d).held = d.held := rfl
@[simp] theorem setRing_opSeq (n : Nat) (r : Ring) (d : Dev) : (setRing n r d).opSeq = d.opSeq := rfl
@[simp] theorem setRing_sys (n : Nat) (r : Ring) (d : Dev) : (setRing n r d).sys = d.sys := rfl
@[simp] theorem setRing_cpu (n : Nat) (r : Ring) (d : Dev) : (setRing n r d).cpu = d.cpu := rfl
@[simp] theorem setRing_pmu (n : Nat) (r : Ring) (d : Dev) : (setRing n r d).pmu = d.pmu := rfl
@[simp] theorem setRing_cal (n : Nat) (r : Ring) (d : Dev) : (setRing n r d).cal = d.cal := rfl
@[simp] theorem setRing_svc (n : Nat) (r : Ring) (d : Dev) : (setRing n r d).svc = d.svc := rfl
@[simp] theorem setRing_regs (n : Nat) (r : Ring) (d : Dev) : (setRing n r d).regs = d.regs := rfl
@[simp] theorem setRing_set0 (n : Nat) (r : Ring) (d : Dev) : (setRing n r d).set0 = d.set0 := rfl
@[simp] theorem setRing_set1 (n : Nat) (r : Ring) (d : Dev) : (setRing n r d).set1 = d.set1 := rfl
@[simp] theorem setRing_sel (n : Nat) (r : Ring) (d : Dev) : (setRing n r d).sel = d.sel := rfl

@[simp] theorem updOp_now (g : Nat) (f : Op → Op) (d : Dev) : (updOp g f d).now = d.now := rfl
@[simp] theorem updOp_free (g : Nat) (f : Op → Op) (d : Dev) : (updOp g f d).free = d.free := rfl
@[simp] theorem updOp_rdata (g : Nat) (f : Op → Op) (d : Dev) : (updOp g f d).rdata = d.rdata := rfl
@[simp] theorem updOp_marks (g : Nat) (f : Op → Op) (d : Dev) : (updOp g f d).marks = d.marks := rfl
@[simp] theorem updOp_tb (g : Nat) (f : Op → Op) (d : Dev) : (updOp g f d).tb = d.tb := rfl
@[simp] theorem updOp_uhf (g : Nat) (f : Op → Op) (d : Dev) : (updOp g f d).uhf = d.uhf := rfl
@[simp] theorem updOp_chA (g : Nat) (f : Op → Op) (d : Dev) : (updOp g f d).chA = d.chA := rfl
@[simp] theorem updOp_chB (g : Nat) (f : Op → Op) (d : Dev) : (updOp g f d).chB = d.chB := rfl
@[simp] theorem updOp_pair (g : Nat) (f : Op → Op) (d : Dev) : (updOp g f d).pair = d.pair := rfl
@[simp] theorem updOp_seq (g : Nat) (f : Op → Op) (d : Dev) : (updOp g f d).seq = d.seq := rfl
@[simp] theorem updOp_gen2 (g : Nat) (f : Op → Op) (d : Dev) : (updOp g f d).gen2 = d.gen2 := rfl
@[simp] theorem updOp_acc (g : Nat) (f : Op → Op) (d : Dev) : (updOp g f d).acc = d.acc := rfl
@[simp] theorem updOp_comb (g : Nat) (f : Op → Op) (d : Dev) : (updOp g f d).comb = d.comb := rfl
@[simp] theorem updOp_dmk (g : Nat) (f : Op → Op) (d : Dev) : (updOp g f d).dmk = d.dmk := rfl
@[simp] theorem updOp_hf (g : Nat) (f : Op → Op) (d : Dev) : (updOp g f d).hf = d.hf := rfl
@[simp] theorem updOp_portA (g : Nat) (f : Op → Op) (d : Dev) : (updOp g f d).portA = d.portA := rfl
@[simp] theorem updOp_portB (g : Nat) (f : Op → Op) (d : Dev) : (updOp g f d).portB = d.portB := rfl
@[simp] theorem updOp_mst (g : Nat) (f : Op → Op) (d : Dev) : (updOp g f d).mst = d.mst := rfl
@[simp] theorem updOp_rings (g : Nat) (f : Op → Op) (d : Dev) : (updOp g f d).rings = d.rings := rfl
@[simp] theorem updOp_held (g : Nat) (f : Op → Op) (d : Dev) : (updOp g f d).held = d.held := rfl
@[simp] theorem updOp_opSeq (g : Nat) (f : Op → Op) (d : Dev) : (updOp g f d).opSeq = d.opSeq := rfl
@[simp] theorem updOp_sys (g : Nat) (f : Op → Op) (d : Dev) : (updOp g f d).sys = d.sys := rfl
@[simp] theorem updOp_cpu (g : Nat) (f : Op → Op) (d : Dev) : (updOp g f d).cpu = d.cpu := rfl
@[simp] theorem updOp_pmu (g : Nat) (f : Op → Op) (d : Dev) : (updOp g f d).pmu = d.pmu := rfl
@[simp] theorem updOp_cal (g : Nat) (f : Op → Op) (d : Dev) : (updOp g f d).cal = d.cal := rfl
@[simp] theorem updOp_svc (g : Nat) (f : Op → Op) (d : Dev) : (updOp g f d).svc = d.svc := rfl
@[simp] theorem updOp_regs (g : Nat) (f : Op → Op) (d : Dev) : (updOp g f d).regs = d.regs := rfl
@[simp] theorem updOp_set0 (g : Nat) (f : Op → Op) (d : Dev) : (updOp g f d).set0 = d.set0 := rfl
@[simp] theorem updOp_set1 (g : Nat) (f : Op → Op) (d : Dev) : (updOp g f d).set1 = d.set1 := rfl
@[simp] theorem updOp_sel (g : Nat) (f : Op → Op) (d : Dev) : (updOp g f d).sel = d.sel := rfl

@[simp] theorem setChain_now (b : Bool) (c : Chain) (d : Dev) : (setChain b c d).now = d.now := by cases b <;> rfl
@[simp] theorem setChain_free (b : Bool) (c : Chain) (d : Dev) : (setChain b c d).free = d.free := by cases b <;> rfl
@[simp] theorem setChain_rdata (b : Bool) (c : Chain) (d : Dev) : (setChain b c d).rdata = d.rdata := by cases b <;> rfl
@[simp] theorem setChain_marks (b : Bool) (c : Chain) (d : Dev) : (setChain b c d).marks = d.marks := by cases b <;> rfl
@[simp] theorem setChain_tb (b : Bool) (c : Chain) (d : Dev) : (setChain b c d).tb = d.tb := by cases b <;> rfl
@[simp] theorem setChain_uhf (b : Bool) (c : Chain) (d : Dev) : (setChain b c d).uhf = d.uhf := by cases b <;> rfl
@[simp] theorem setChain_pair (b : Bool) (c : Chain) (d : Dev) : (setChain b c d).pair = d.pair := by cases b <;> rfl
@[simp] theorem setChain_seq (b : Bool) (c : Chain) (d : Dev) : (setChain b c d).seq = d.seq := by cases b <;> rfl
@[simp] theorem setChain_gen2 (b : Bool) (c : Chain) (d : Dev) : (setChain b c d).gen2 = d.gen2 := by cases b <;> rfl
@[simp] theorem setChain_acc (b : Bool) (c : Chain) (d : Dev) : (setChain b c d).acc = d.acc := by cases b <;> rfl
@[simp] theorem setChain_comb (b : Bool) (c : Chain) (d : Dev) : (setChain b c d).comb = d.comb := by cases b <;> rfl
@[simp] theorem setChain_dmk (b : Bool) (c : Chain) (d : Dev) : (setChain b c d).dmk = d.dmk := by cases b <;> rfl
@[simp] theorem setChain_hf (b : Bool) (c : Chain) (d : Dev) : (setChain b c d).hf = d.hf := by cases b <;> rfl
@[simp] theorem setChain_portA (b : Bool) (c : Chain) (d : Dev) : (setChain b c d).portA = d.portA := by cases b <;> rfl
@[simp] theorem setChain_portB (b : Bool) (c : Chain) (d : Dev) : (setChain b c d).portB = d.portB := by cases b <;> rfl
@[simp] theorem setChain_mst (b : Bool) (c : Chain) (d : Dev) : (setChain b c d).mst = d.mst := by cases b <;> rfl
@[simp] theorem setChain_rings (b : Bool) (c : Chain) (d : Dev) : (setChain b c d).rings = d.rings := by cases b <;> rfl
@[simp] theorem setChain_ops (b : Bool) (c : Chain) (d : Dev) : (setChain b c d).ops = d.ops := by cases b <;> rfl
@[simp] theorem setChain_held (b : Bool) (c : Chain) (d : Dev) : (setChain b c d).held = d.held := by cases b <;> rfl
@[simp] theorem setChain_opSeq (b : Bool) (c : Chain) (d : Dev) : (setChain b c d).opSeq = d.opSeq := by cases b <;> rfl
@[simp] theorem setChain_sys (b : Bool) (c : Chain) (d : Dev) : (setChain b c d).sys = d.sys := by cases b <;> rfl
@[simp] theorem setChain_cpu (b : Bool) (c : Chain) (d : Dev) : (setChain b c d).cpu = d.cpu := by cases b <;> rfl
@[simp] theorem setChain_pmu (b : Bool) (c : Chain) (d : Dev) : (setChain b c d).pmu = d.pmu := by cases b <;> rfl
@[simp] theorem setChain_cal (b : Bool) (c : Chain) (d : Dev) : (setChain b c d).cal = d.cal := by cases b <;> rfl
@[simp] theorem setChain_svc (b : Bool) (c : Chain) (d : Dev) : (setChain b c d).svc = d.svc := by cases b <;> rfl
@[simp] theorem setChain_regs (b : Bool) (c : Chain) (d : Dev) : (setChain b c d).regs = d.regs := by cases b <;> rfl
@[simp] theorem setChain_set0 (b : Bool) (c : Chain) (d : Dev) : (setChain b c d).set0 = d.set0 := by cases b <;> rfl
@[simp] theorem setChain_set1 (b : Bool) (c : Chain) (d : Dev) : (setChain b c d).set1 = d.set1 := by cases b <;> rfl
@[simp] theorem setChain_sel (b : Bool) (c : Chain) (d : Dev) : (setChain b c d).sel = d.sel := by cases b <;> rfl

@[simp] theorem setPort_now (b : Bool) (p : Port) (d : Dev) : (setPort b p d).now = d.now := by cases b <;> rfl
@[simp] theorem setPort_free (b : Bool) (p : Port) (d : Dev) : (setPort b p d).free = d.free := by cases b <;> rfl
@[simp] theorem setPort_rdata (b : Bool) (p : Port) (d : Dev) : (setPort b p d).rdata = d.rdata := by cases b <;> rfl
@[simp] theorem setPort_marks (b : Bool) (p : Port) (d : Dev) : (setPort b p d).marks = d.marks := by cases b <;> rfl
@[simp] theorem setPort_tb (b : Bool) (p : Port) (d : Dev) : (setPort b p d).tb = d.tb := by cases b <;> rfl
@[simp] theorem setPort_uhf (b : Bool) (p : Port) (d : Dev) : (setPort b p d).uhf = d.uhf := by cases b <;> rfl
@[simp] theorem setPort_chA (b : Bool) (p : Port) (d : Dev) : (setPort b p d).chA = d.chA := by cases b <;> rfl
@[simp] theorem setPort_chB (b : Bool) (p : Port) (d : Dev) : (setPort b p d).chB = d.chB := by cases b <;> rfl
@[simp] theorem setPort_pair (b : Bool) (p : Port) (d : Dev) : (setPort b p d).pair = d.pair := by cases b <;> rfl
@[simp] theorem setPort_seq (b : Bool) (p : Port) (d : Dev) : (setPort b p d).seq = d.seq := by cases b <;> rfl
@[simp] theorem setPort_gen2 (b : Bool) (p : Port) (d : Dev) : (setPort b p d).gen2 = d.gen2 := by cases b <;> rfl
@[simp] theorem setPort_acc (b : Bool) (p : Port) (d : Dev) : (setPort b p d).acc = d.acc := by cases b <;> rfl
@[simp] theorem setPort_comb (b : Bool) (p : Port) (d : Dev) : (setPort b p d).comb = d.comb := by cases b <;> rfl
@[simp] theorem setPort_dmk (b : Bool) (p : Port) (d : Dev) : (setPort b p d).dmk = d.dmk := by cases b <;> rfl
@[simp] theorem setPort_hf (b : Bool) (p : Port) (d : Dev) : (setPort b p d).hf = d.hf := by cases b <;> rfl
@[simp] theorem setPort_mst (b : Bool) (p : Port) (d : Dev) : (setPort b p d).mst = d.mst := by cases b <;> rfl
@[simp] theorem setPort_rings (b : Bool) (p : Port) (d : Dev) : (setPort b p d).rings = d.rings := by cases b <;> rfl
@[simp] theorem setPort_ops (b : Bool) (p : Port) (d : Dev) : (setPort b p d).ops = d.ops := by cases b <;> rfl
@[simp] theorem setPort_held (b : Bool) (p : Port) (d : Dev) : (setPort b p d).held = d.held := by cases b <;> rfl
@[simp] theorem setPort_opSeq (b : Bool) (p : Port) (d : Dev) : (setPort b p d).opSeq = d.opSeq := by cases b <;> rfl
@[simp] theorem setPort_sys (b : Bool) (p : Port) (d : Dev) : (setPort b p d).sys = d.sys := by cases b <;> rfl
@[simp] theorem setPort_cpu (b : Bool) (p : Port) (d : Dev) : (setPort b p d).cpu = d.cpu := by cases b <;> rfl
@[simp] theorem setPort_pmu (b : Bool) (p : Port) (d : Dev) : (setPort b p d).pmu = d.pmu := by cases b <;> rfl
@[simp] theorem setPort_cal (b : Bool) (p : Port) (d : Dev) : (setPort b p d).cal = d.cal := by cases b <;> rfl
@[simp] theorem setPort_svc (b : Bool) (p : Port) (d : Dev) : (setPort b p d).svc = d.svc := by cases b <;> rfl
@[simp] theorem setPort_regs (b : Bool) (p : Port) (d : Dev) : (setPort b p d).regs = d.regs := by cases b <;> rfl
@[simp] theorem setPort_set0 (b : Bool) (p : Port) (d : Dev) : (setPort b p d).set0 = d.set0 := by cases b <;> rfl
@[simp] theorem setPort_set1 (b : Bool) (p : Port) (d : Dev) : (setPort b p d).set1 = d.set1 := by cases b <;> rfl
@[simp] theorem setPort_sel (b : Bool) (p : Port) (d : Dev) : (setPort b p d).sel = d.sel := by cases b <;> rfl

@[simp] theorem setCore_now (c : Core) (d : Dev) : (setCore c d).now = d.now := by unfold setCore; split <;> rfl
@[simp] theorem setCore_free (c : Core) (d : Dev) : (setCore c d).free = d.free := by unfold setCore; split <;> rfl
@[simp] theorem setCore_rdata (c : Core) (d : Dev) : (setCore c d).rdata = d.rdata := by unfold setCore; split <;> rfl
@[simp] theorem setCore_marks (c : Core) (d : Dev) : (setCore c d).marks = d.marks := by unfold setCore; split <;> rfl
@[simp] theorem setCore_tb (c : Core) (d : Dev) : (setCore c d).tb = d.tb := by unfold setCore; split <;> rfl
@[simp] theorem setCore_uhf (c : Core) (d : Dev) : (setCore c d).uhf = d.uhf := by unfold setCore; split <;> rfl
@[simp] theorem setCore_chA (c : Core) (d : Dev) : (setCore c d).chA = d.chA := by unfold setCore; split <;> rfl
@[simp] theorem setCore_chB (c : Core) (d : Dev) : (setCore c d).chB = d.chB := by unfold setCore; split <;> rfl
@[simp] theorem setCore_pair (c : Core) (d : Dev) : (setCore c d).pair = d.pair := by unfold setCore; split <;> rfl
@[simp] theorem setCore_seq (c : Core) (d : Dev) : (setCore c d).seq = d.seq := by unfold setCore; split <;> rfl
@[simp] theorem setCore_gen2 (c : Core) (d : Dev) : (setCore c d).gen2 = d.gen2 := by unfold setCore; split <;> rfl
@[simp] theorem setCore_acc (c : Core) (d : Dev) : (setCore c d).acc = d.acc := by unfold setCore; split <;> rfl
@[simp] theorem setCore_comb (c : Core) (d : Dev) : (setCore c d).comb = d.comb := by unfold setCore; split <;> rfl
@[simp] theorem setCore_dmk (c : Core) (d : Dev) : (setCore c d).dmk = d.dmk := by unfold setCore; split <;> rfl
@[simp] theorem setCore_hf (c : Core) (d : Dev) : (setCore c d).hf = d.hf := by unfold setCore; split <;> rfl
@[simp] theorem setCore_portA (c : Core) (d : Dev) : (setCore c d).portA = d.portA := by unfold setCore; split <;> rfl
@[simp] theorem setCore_portB (c : Core) (d : Dev) : (setCore c d).portB = d.portB := by unfold setCore; split <;> rfl
@[simp] theorem setCore_mst (c : Core) (d : Dev) : (setCore c d).mst = d.mst := by unfold setCore; split <;> rfl
@[simp] theorem setCore_rings (c : Core) (d : Dev) : (setCore c d).rings = d.rings := by unfold setCore; split <;> rfl
@[simp] theorem setCore_ops (c : Core) (d : Dev) : (setCore c d).ops = d.ops := by unfold setCore; split <;> rfl
@[simp] theorem setCore_held (c : Core) (d : Dev) : (setCore c d).held = d.held := by unfold setCore; split <;> rfl
@[simp] theorem setCore_opSeq (c : Core) (d : Dev) : (setCore c d).opSeq = d.opSeq := by unfold setCore; split <;> rfl
@[simp] theorem setCore_sys (c : Core) (d : Dev) : (setCore c d).sys = d.sys := by unfold setCore; split <;> rfl
@[simp] theorem setCore_pmu (c : Core) (d : Dev) : (setCore c d).pmu = d.pmu := by unfold setCore; split <;> rfl
@[simp] theorem setCore_cal (c : Core) (d : Dev) : (setCore c d).cal = d.cal := by unfold setCore; split <;> rfl
@[simp] theorem setCore_svc (c : Core) (d : Dev) : (setCore c d).svc = d.svc := by unfold setCore; split <;> rfl
@[simp] theorem setCore_regs (c : Core) (d : Dev) : (setCore c d).regs = d.regs := by unfold setCore; split <;> rfl
@[simp] theorem setCore_set0 (c : Core) (d : Dev) : (setCore c d).set0 = d.set0 := by unfold setCore; split <;> rfl
@[simp] theorem setCore_set1 (c : Core) (d : Dev) : (setCore c d).set1 = d.set1 := by unfold setCore; split <;> rfl
@[simp] theorem setCore_sel (c : Core) (d : Dev) : (setCore c d).sel = d.sel := by unfold setCore; split <;> rfl

/-! What they write -/

@[simp] theorem setReg_regs (a : Nat) (v : Word) (d : Dev) : (setReg a v d).regs = CMap.set regReset d.regs a v := rfl
@[simp] theorem updOp_ops (g : Nat) (f : Op → Op) (d : Dev) :
    (updOp g f d).ops = d.ops.map fun o => if o.tag = g then f o else o := rfl

/-- A register written reads back; every other one reads as before. -/
theorem reg_setReg (a b : Nat) (v : Word) (d : Dev) : reg (setReg a v d) b = if b = a then v else reg d b :=
  CMap.get_set _ _ _ _ _

@[simp] theorem reg_setReg_self (a : Nat) (v : Word) (d : Dev) : reg (setReg a v d) a = v := by simp [reg_setReg]

theorem reg_setReg_ne {a b : Nat} (v : Word) (d : Dev) (h : b ≠ a) : reg (setReg a v d) b = reg d b := by simp [reg_setReg, h]

/-- Two devices with the same register words read alike. -/
theorem reg_of_regs {d e : Dev} (h : e.regs = d.regs) (a : Nat) : reg e a = reg d a := by simp [reg, h]

@[simp] theorem reg_setThr (n : Nat) (th : Thread) (d : Dev) (a : Nat) : reg (setThr n th d) a = reg d a := rfl
@[simp] theorem reg_setRing (n : Nat) (r : Ring) (d : Dev) (a : Nat) : reg (setRing n r d) a = reg d a := rfl
@[simp] theorem reg_updOp (g : Nat) (f : Op → Op) (d : Dev) (a : Nat) : reg (updOp g f d) a = reg d a := rfl
@[simp] theorem reg_setChain (b : Bool) (c : Chain) (d : Dev) (a : Nat) : reg (setChain b c d) a = reg d a := by cases b <;> rfl
@[simp] theorem reg_setPort (b : Bool) (p : Port) (d : Dev) (a : Nat) : reg (setPort b p d) a = reg d a := by cases b <;> rfl
@[simp] theorem reg_setCore (c : Core) (d : Dev) (a : Nat) : reg (setCore c d) a = reg d a := by unfold setCore; split <;> rfl

/-- An event sets its bit and changes no other register. -/
theorem reg_event (a b x : Nat) (d : Dev) : reg (event a b d) x = if x = a then reg d a ||| putB b true else reg d x :=
  CMap.get_set _ _ _ _ _

theorem reg_event_ne {a x : Nat} (b : Nat) (d : Dev) (h : x ≠ a) : reg (event a b d) x = reg d x := by simp [reg_event, h]

/-- A cleared bit changes no other register. -/
theorem reg_clearBit (a b x : Nat) (d : Dev) : reg (clearBit a b d) x = if x = a then reg d a &&& ~~~ putB b true else reg d x :=
  CMap.get_set _ _ _ _ _

/-- A field replaced changes no other register. -/
theorem reg_setField (a hi lo v x : Nat) (d : Dev) : reg (setField a hi lo v d) x = if x = a then setFld (reg d a) hi lo v else reg d x :=
  CMap.get_set _ _ _ _ _

/-- A counter counts in its own register. -/
theorem reg_count (a hi lo k x : Nat) (d : Dev) : reg (count a hi lo k d) x =
    if x = a then setFld (reg d a) hi lo (satInc (2 ^ (hi - lo + 1) - 1) (fld (reg d a) hi lo) k) else reg d x :=
  CMap.get_set _ _ _ _ _

theorem reg_count_ne {a x : Nat} (hi lo k : Nat) (d : Dev) (h : x ≠ a) : reg (count a hi lo k d) x = reg d x := by
  simp [reg_count, h]

/-! Threads, rings, chains, ports and cores -/

theorem thr_setThr (n m : Nat) (th : Thread) (d : Dev) : thr (setThr n th d) m = if m = n then th else thr d m := nth_upd _ _ _ _ _
@[simp] theorem thr_setThr_self (n : Nat) (th : Thread) (d : Dev) : thr (setThr n th d) n = th := by simp [thr_setThr]
theorem ring_setRing (n m : Nat) (r : Ring) (d : Dev) : ring (setRing n r d) m = if m = n then r else ring d m := nth_upd _ _ _ _ _
@[simp] theorem ring_setRing_self (n : Nat) (r : Ring) (d : Dev) : ring (setRing n r d) n = r := by simp [ring_setRing]
theorem chain_setChain (b c : Bool) (x : Chain) (d : Dev) : chain (setChain b x d) c = if c = b then x else chain d c := by
  cases b <;> cases c <;> rfl
theorem port_setPort (b c : Bool) (x : Port) (d : Dev) : port (setPort b x d) c = if c = b then x else port d c := by
  cases b <;> cases c <;> rfl
@[simp] theorem core_setCore (c : Core) (d : Dev) : coreIn (setCore c d) = c := by
  unfold coreIn setCore; cases h : d.cpu.onS <;> simp [h]
@[simp] theorem setCore_setCore (c e : Core) (d : Dev) : setCore c (setCore e d) = setCore c d := by
  unfold setCore; cases h : d.cpu.onS <;> simp [h]
@[simp] theorem otherCore_setCore (c : Core) (d : Dev) : otherCore (setCore c d) = otherCore d := by
  unfold otherCore setCore; cases h : d.cpu.onS <;> simp [h]

/-! Register codes of a core -/

@[simp] theorem Core.put_pc (c : Core) (r : BitVec 5) (v : Word) : (c.put r v).pc = c.pc := by
  unfold Core.put; split <;> rfl

/-- A register written reads back; a code at another place reads as before. -/
theorem Core.get_put (c : Core) (r q : BitVec 5) (v : Word) :
    (c.put r v).get q = if regPlace c q.toNat = regPlace c r.toNat then v else c.get q := by
  have hp : regPlace (c.put r v) q.toNat = regPlace c q.toNat := by
    unfold Core.put; split <;> rfl
  unfold Core.get
  rw [hp]
  cases hr : regPlace c r.toNat <;> cases hq : regPlace c q.toNat <;> simp [Core.put, hr, nth_upd]

@[simp] theorem Core.get_put_self (c : Core) (r : BitVec 5) (v : Word) : (c.put r v).get r = v := by simp [Core.get_put]

end Sys2Proof.Machine
end

