-- ==== Sys2Proof/Laws/Core.lean ====
section
/-! SUPPORT. What an instruction of the Adeara core does when the core runs and may fetch it. -/
namespace Sys2Proof.Machine

/-- An instruction the core may fetch takes its effect. -/
theorem instr_runs {s : State} {len : Nat} (h : Runs s len) (f : State → State) : instr len f s = .next (f s) := by
  simp [instr, h.1, h.2]

/-- A register ALU instruction writes rd, and the pc moves on. -/
theorem alu_runs {s : State} {c : Bool} {rd : BitVec 5} {v : Core → Word} (h : Runs s (instrLen c)) :
    aluInstr c rd v s = .next (rdNext s (instrLen c) rd (v (coreIn s.dev))) := by
  simp only [aluInstr, instr_runs h]
  simp only [rdNext, withCore, writeRd, advance, core_setCore, setCore_setCore, Core.put_pc]

end Sys2Proof.Machine
end

