-- ==== Sys2Proof/Laws/Dispatch.lean ====
section
/-! SUPPORT. Each command's arm of `exec`, so that no proof unfolds the dispatch. -/
namespace Sys2Proof.Machine

variable (s : State)

@[simp] theorem exec_zcEdge (t : Nat) (inp falling : Bool) (held : Nat) : exec (Instr.zcEdge t inp falling held) s = execZcEdge t inp falling held s := rfl
@[simp] theorem exec_zcPrimaryWaitExpiry (t : Nat) : exec (Instr.zcPrimaryWaitExpiry t) s = execZcPrimaryWaitExpiry t s := rfl
@[simp] theorem exec_zcDisagree (t : Nat) : exec (Instr.zcDisagree t) s = execZcDisagree t s := rfl
@[simp] theorem exec_missedCrossing (t : Nat) : exec (Instr.missedCrossing t) s = execMissedCrossing t s := rfl
@[simp] theorem exec_selfStart (t : Nat) (sixty : Bool) : exec (Instr.selfStart t sixty) s = execSelfStart t sixty s := rfl
@[simp] theorem exec_cycleStart (t : Nat) (src : CycleSrc) : exec (Instr.cycleStart t src) s = execCycleStart t src s := rfl
@[simp] theorem exec_slotBoundary (t b : Nat) (meas : Option Nat) : exec (Instr.slotBoundary t b meas) s = execSlotBoundary t b meas s := rfl
@[simp] theorem exec_planSyncRequest (t : Nat) (r : Reader) : exec (Instr.planSyncRequest t r) s = execPlanSyncRequest t r s := rfl
@[simp] theorem exec_noiseClr (t : Nat) (r : Reader) : exec (Instr.noiseClr t r) s = execNoiseClr t r s := rfl
@[simp] theorem exec_planDataAccess (t : Nat) (r : Reader) (shadow : Bool) (wr : Option Word) : exec (Instr.planDataAccess t r shadow wr) s = execPlanDataAccess t r shadow wr s := rfl
@[simp] theorem exec_enterFree (t : Nat) : exec (Instr.enterFree t) s = execEnterFree t s := rfl
@[simp] theorem exec_slewDone (t : Nat) : exec (Instr.slewDone t) s = execSlewDone t s := rfl
@[simp] theorem exec_stepApply (t : Nat) : exec (Instr.stepApply t) s = execStepApply t s := rfl
@[simp] theorem exec_stepHoldEnd (t : Nat) : exec (Instr.stepHoldEnd t) s = execStepHoldEnd t s := rfl
@[simp] theorem exec_oscSwitch (t : Nat) (toRc : Bool) : exec (Instr.oscSwitch t toRc) s = execOscSwitch t toRc s := rfl
@[simp] theorem exec_chanDataWrite (t : Nat) (r : Reader) (shadow : Bool) (v : Word) : exec (Instr.chanDataWrite t r shadow v) s = execChanDataWrite t r shadow v s := rfl
@[simp] theorem exec_dwellExpiry (t : Nat) : exec (Instr.dwellExpiry t) s = execDwellExpiry t s := rfl
@[simp] theorem exec_paLim (t : Nat) (lim : Bool) : exec (Instr.paLim t lim) s = execPaLim t lim s := rfl
@[simp] theorem exec_reflDetect (t : Nat) (port : Bool) (fwd ref : Nat) (cw : Option Nat) : exec (Instr.reflDetect t port fwd ref cw) s = execReflDetect t port fwd ref cw s := rfl
@[simp] theorem exec_radioTransitionDone (t : Nat) (biasOk readbackOk : Bool) : exec (Instr.radioTransitionDone t biasOk readbackOk) s = execRadioTransitionDone t biasOk readbackOk s := rfl
@[simp] theorem exec_windowEndRampdown (t : Nat) : exec (Instr.windowEndRampdown t) s = execWindowEndRampdown t s := rfl
@[simp] theorem exec_lockLost (t : Nat) : exec (Instr.lockLost t) s = execLockLost t s := rfl
@[simp] theorem exec_lockAcquired (t : Nat) : exec (Instr.lockAcquired t) s = execLockAcquired t s := rfl
@[simp] theorem exec_lockHoldExpiry (t : Nat) : exec (Instr.lockHoldExpiry t) s = execLockHoldExpiry t s := rfl
@[simp] theorem exec_calResume (t : Nat) : exec (Instr.calResume t) s = execCalResume t s := rfl
@[simp] theorem exec_cancConverged (t : Nat) (chain : Bool) (wi wq : BitVec 10) (residual : Int) : exec (Instr.cancConverged t chain wi wq residual) s = execCancConverged t chain wi wq residual s := rfl
@[simp] theorem exec_cancTimeout (t : Nat) (chain : Bool) : exec (Instr.cancTimeout t chain) s = execCancTimeout t chain s := rfl
@[simp] theorem exec_cancDataAccess (t : Nat) (r : Reader) (wr : Option Word) : exec (Instr.cancDataAccess t r wr) s = execCancDataAccess t r wr s := rfl
@[simp] theorem exec_seedClear (t : Nat) (r : Reader) : exec (Instr.seedClear t r) s = execSeedClear t r s := rfl
@[simp] theorem exec_coexReqLead (t : Nat) : exec (Instr.coexReqLead t) s = execCoexReqLead t s := rfl
@[simp] theorem exec_coexGrant (t : Nat) : exec (Instr.coexGrant t) s = execCoexGrant t s := rfl
@[simp] theorem exec_coexHoldExpiry (t : Nat) : exec (Instr.coexHoldExpiry t) s = execCoexHoldExpiry t s := rfl
@[simp] theorem exec_coexWithdraw (t : Nat) : exec (Instr.coexWithdraw t) s = execCoexWithdraw t s := rfl
@[simp] theorem exec_blankInput (t : Nat) (which level : Bool) : exec (Instr.blankInput t which level) s = execBlankInput t which level s := rfl
@[simp] theorem exec_blankExtExpiry (t : Nat) (which : Bool) : exec (Instr.blankExtExpiry t which) s = execBlankExtExpiry t which s := rfl
@[simp] theorem exec_coefDataAccess (t : Nat) (r : Reader) (chain : Bool) (wr : Option Word) : exec (Instr.coefDataAccess t r chain wr) s = execCoefDataAccess t r chain wr s := rfl
@[simp] theorem exec_chainRun (t : Nat) (r : Reader) (chain : Bool) : exec (Instr.chainRun t r chain) s = execChainRun t r chain s := rfl
@[simp] theorem exec_chainStop (t : Nat) (r : Reader) (chain : Bool) : exec (Instr.chainStop t r chain) s = execChainStop t r chain s := rfl
@[simp] theorem exec_drcLearnEnd (t : Nat) (chain : Bool) (samples : List (Int × Int)) : exec (Instr.drcLearnEnd t chain samples) s = execDrcLearnEnd t chain samples s := rfl
@[simp] theorem exec_detectorBlock (t : Nat) (chain : Bool) (blk : DetBlock) : exec (Instr.detectorBlock t chain blk) s = execDetectorBlock t chain blk s := rfl
@[simp] theorem exec_frameSync (t : Nat) (chain : Bool) (snr blf : Nat) : exec (Instr.frameSync t chain snr blf) s = execFrameSync t chain snr blf s := rfl
@[simp] theorem exec_diversityDecide (t : Nat) : exec (Instr.diversityDecide t) s = execDiversityDecide t s := rfl
@[simp] theorem exec_frameDecoded (t : Nat) (chain : Bool) (bits : List Bool) (stages : List StageIn) : exec (Instr.frameDecoded t chain bits stages) s = execFrameDecoded t chain bits stages s := rfl
@[simp] theorem exec_sepDone (t : Nat) (res : SepResult) : exec (Instr.sepDone t res) s = execSepDone t res s := rfl
@[simp] theorem exec_tstart (rd ra rb : BitVec 5) : exec (Instr.tstart rd ra rb) s = execTstart rd ra rb s := rfl
@[simp] theorem exec_thalt (rd ra rb : BitVec 5) : exec (Instr.thalt rd ra rb) s = execThalt rd ra rb s := rfl
@[simp] theorem exec_tpatch (rd ra rb : BitVec 5) : exec (Instr.tpatch rd ra rb) s = execTpatch rd ra rb s := rfl
@[simp] theorem exec_swflag (rd ra rb : BitVec 5) : exec (Instr.swflag rd ra rb) s = execSwflag rd ra rb s := rfl
@[simp] theorem exec_abreq (rd ra rb : BitVec 5) : exec (Instr.abreq rd ra rb) s = execAbreq rd ra rb s := rfl
@[simp] theorem exec_tresume (rd ra rb : BitVec 5) : exec (Instr.tresume rd ra rb) s = execTresume rd ra rb s := rfl
@[simp] theorem exec_condrd (rd ra rb : BitVec 5) : exec (Instr.condrd rd ra rb) s = execCondrd rd ra rb s := rfl
@[simp] theorem exec_logpop (rd ra rb : BitVec 5) : exec (Instr.logpop rd ra rb) s = execLogpop rd ra rb s := rfl
@[simp] theorem exec_doorbell (rd ra rb : BitVec 5) : exec (Instr.doorbell rd ra rb) s = execDoorbell rd ra rb s := rfl
@[simp] theorem exec_stepFetch (t th : Nat) (ecc : EccRead) : exec (Instr.stepFetch t th ecc) s = execStepFetch t th ecc s := rfl
@[simp] theorem exec_waitTimeExpiry (t th : Nat) : exec (Instr.waitTimeExpiry t th) s = execWaitTimeExpiry t th s := rfl
@[simp] theorem exec_waitFlagTrue (t th : Nat) : exec (Instr.waitFlagTrue t th) s = execWaitFlagTrue t th s := rfl
@[simp] theorem exec_waitFlagTimeout (t th : Nat) : exec (Instr.waitFlagTimeout t th) s = execWaitFlagTimeout t th s := rfl
@[simp] theorem exec_waitSlot (t th : Nat) : exec (Instr.waitSlot t th) s = execWaitSlot t th s := rfl
@[simp] theorem exec_seqNop (t th : Nat) : exec (Instr.seqNop t th) s = execSeqNop t th s := rfl
@[simp] theorem exec_seqHalt (t th : Nat) : exec (Instr.seqHalt t th) s = execSeqHalt t th s := rfl
@[simp] theorem exec_seqCall (t th : Nat) : exec (Instr.seqCall t th) s = execSeqCall t th s := rfl
@[simp] theorem exec_seqRet (t th : Nat) : exec (Instr.seqRet t th) s = execSeqRet t th s := rfl
@[simp] theorem exec_loop (t th : Nat) : exec (Instr.loop t th) s = execLoop t th s := rfl
@[simp] theorem exec_setcnt (t th : Nat) : exec (Instr.setcnt t th) s = execSetcnt t th s := rfl
@[simp] theorem exec_anchor (t th : Nat) : exec (Instr.anchor t th) s = execAnchor t th s := rfl
@[simp] theorem exec_signal (t th : Nat) : exec (Instr.signal t th) s = execSignal t th s := rfl
@[simp] theorem exec_seqPost (t th : Nat) : exec (Instr.seqPost t th) s = execSeqPost t th s := rfl
@[simp] theorem exec_radio (t th : Nat) : exec (Instr.radio t th) s = execRadio t th s := rfl
@[simp] theorem exec_hop (t th : Nat) : exec (Instr.hop t th) s = execHop t th s := rfl
@[simp] theorem exec_aerial (t th : Nat) : exec (Instr.aerial t th) s = execAerial t th s := rfl
@[simp] theorem exec_txf (t th : Nat) : exec (Instr.txf t th) s = execTxf t th s := rfl
@[simp] theorem exec_pwradj (t th : Nat) : exec (Instr.pwradj t th) s = execPwradj t th s := rfl
@[simp] theorem exec_rxopen (t th : Nat) : exec (Instr.rxopen t th) s = execRxopen t th s := rfl
@[simp] theorem exec_seqRxclose (t th : Nat) : exec (Instr.seqRxclose t th) s = execSeqRxclose t th s := rfl
@[simp] theorem exec_hffield (t th : Nat) (extLevel : Nat) : exec (Instr.hffield t th extLevel) s = execHffield t th extLevel s := rfl
@[simp] theorem exec_hftx (t th : Nat) : exec (Instr.hftx t th) s = execHftx t th s := rfl
@[simp] theorem exec_hfrx (t th : Nat) : exec (Instr.hfrx t th) s = execHfrx t th s := rfl
@[simp] theorem exec_hfclose (t th : Nat) : exec (Instr.hfclose t th) s = execHfclose t th s := rfl
@[simp] theorem exec_hfping (t th : Nat) (ping : Ping) : exec (Instr.hfping t th ping) s = execHfping t th ping s := rfl
@[simp] theorem exec_gatePass (t th : Nat) : exec (Instr.gatePass t th) s = execGatePass t th s := rfl
@[simp] theorem exec_txFrameEnd (t : Nat) : exec (Instr.txFrameEnd t) s = execTxFrameEnd t s := rfl
@[simp] theorem exec_abortTakeHold (t th : Nat) : exec (Instr.abortTakeHold t th) s = execAbortTakeHold t th s := rfl
@[simp] theorem exec_turnCommit (t : Nat) : exec (Instr.turnCommit t) s = execTurnCommit t s := rfl
@[simp] theorem exec_turnAbandon (t : Nat) : exec (Instr.turnAbandon t) s = execTurnAbandon t s := rfl
@[simp] theorem exec_tabDataHAccess (t : Nat) (r : Reader) (shadow : Bool) (wr : Option Word) : exec (Instr.tabDataHAccess t r shadow wr) s = execTabDataHAccess t r shadow wr s := rfl
@[simp] theorem exec_slotLogEntry (t : Nat) (read : Option TagRead) : exec (Instr.slotLogEntry t read) s = execSlotLogEntry t read s := rfl
@[simp] theorem exec_fbDataAccess (t : Nat) (r : Reader) (shadow : Bool) (wr : Option Word) : exec (Instr.fbDataAccess t r shadow wr) s = execFbDataAccess t r shadow wr s := rfl
@[simp] theorem exec_coverCodePrepare (t : Nat) : exec (Instr.coverCodePrepare t) s = execCoverCodePrepare t s := rfl
@[simp] theorem exec_accessUnitJudge (t : Nat) : exec (Instr.accessUnitJudge t) s = execAccessUnitJudge t s := rfl
@[simp] theorem exec_cp1Place (rd ra rb : BitVec 5) : exec (Instr.cp1Place rd ra rb) s = execCp1Place rd ra rb s := rfl
@[simp] theorem exec_cp1Lookup (rd ra rb : BitVec 5) : exec (Instr.cp1Lookup rd ra rb) s = execCp1Lookup rd ra rb s := rfl
@[simp] theorem exec_cp1Cellrd (rd ra rb : BitVec 5) : exec (Instr.cp1Cellrd rd ra rb) s = execCp1Cellrd rd ra rb s := rfl
@[simp] theorem exec_cp1Sweep (rd ra rb : BitVec 5) : exec (Instr.cp1Sweep rd ra rb) s = execCp1Sweep rd ra rb s := rfl
@[simp] theorem exec_cp1Free (rd ra rb : BitVec 5) : exec (Instr.cp1Free rd ra rb) s = execCp1Free rd ra rb s := rfl
@[simp] theorem exec_sweepVisit (t : Nat) : exec (Instr.sweepVisit t) s = execSweepVisit t s := rfl
@[simp] theorem exec_rowSpare (t bucket : Nat) (uncor : List Nat) : exec (Instr.rowSpare t bucket uncor) s = execRowSpare t bucket uncor s := rfl
@[simp] theorem exec_combDumpRead (t : Nat) (r : Reader) : exec (Instr.combDumpRead t r) s = execCombDumpRead t r s := rfl
@[simp] theorem exec_epochAdvance (t : Nat) : exec (Instr.epochAdvance t) s = execEpochAdvance t s := rfl
@[simp] theorem exec_dmkCfgWrite (t : Nat) (r : Reader) (v : Word) : exec (Instr.dmkCfgWrite t r v) s = execDmkCfgWrite t r v s := rfl
@[simp] theorem exec_sweepRoomWaitEnd (t : Nat) : exec (Instr.sweepRoomWaitEnd t) s = execSweepRoomWaitEnd t s := rfl
@[simp] theorem exec_lpcdPing (t : Nat) (ping : Ping) : exec (Instr.lpcdPing t ping) s = execLpcdPing t ping s := rfl
@[simp] theorem exec_lpcdConfirmPing (t : Nat) (ping : Ping) : exec (Instr.lpcdConfirmPing t ping) s = execLpcdConfirmPing t ping s := rfl
@[simp] theorem exec_rebase (t : Nat) (r : Reader) : exec (Instr.rebase t r) s = execRebase t r s := rfl
@[simp] theorem exec_hfFbDataAccess (t : Nat) (r : Reader) (shadow : Bool) (wr : Option Word) : exec (Instr.hfFbDataAccess t r shadow wr) s = execHfFbDataAccess t r shadow wr s := rfl
@[simp] theorem exec_hfRxDataRead (t : Nat) (r : Reader) : exec (Instr.hfRxDataRead t r) s = execHfRxDataRead t r s := rfl
@[simp] theorem exec_hfTxEnd (t : Nat) : exec (Instr.hfTxEnd t) s = execHfTxEnd t s := rfl
@[simp] theorem exec_hfFrameDecoded (t : Nat) (raw : List Bool) (erased : Bool) : exec (Instr.hfFrameDecoded t raw erased) s = execHfFrameDecoded t raw erased s := rfl
@[simp] theorem exec_hfColl (t : Nat) (pos : Nat) : exec (Instr.hfColl t pos) s = execHfColl t pos s := rfl
@[simp] theorem exec_hfWindowTmo (t : Nat) : exec (Instr.hfWindowTmo t) s = execHfWindowTmo t s := rfl
@[simp] theorem exec_hfWindowEnd (t : Nat) : exec (Instr.hfWindowEnd t) s = execHfWindowEnd t s := rfl
@[simp] theorem exec_hfOverrunExpiry (t : Nat) : exec (Instr.hfOverrunExpiry t) s = execHfOverrunExpiry t s := rfl
@[simp] theorem exec_hfAcChoice (t : Nat) : exec (Instr.hfAcChoice t) s = execHfAcChoice t s := rfl
@[simp] theorem exec_tagmSessionStart (t vh : Nat) : exec (Instr.tagmSessionStart t vh) s = execTagmSessionStart t vh s := rfl
@[simp] theorem exec_tagmSessionEnd (t vh : Nat) : exec (Instr.tagmSessionEnd t vh) s = execTagmSessionEnd t vh s := rfl
@[simp] theorem exec_inventory15693 (f : TagFrame) (slots16 : Bool) (afi : Option Byte) (mask : List Bool) : exec (Instr.inventory15693 f slots16 afi mask) s = execInventory15693 f slots16 afi mask s := rfl
@[simp] theorem exec_stayQuiet (f : TagFrame) : exec (Instr.stayQuiet f) s = execStayQuiet f s := rfl
@[simp] theorem exec_readSingleBlock (f : TagFrame) (blk : Byte) : exec (Instr.readSingleBlock f blk) s = execReadSingleBlock f blk s := rfl
@[simp] theorem exec_writeSingleBlock (f : TagFrame) (blk : Byte) (data : List Word) : exec (Instr.writeSingleBlock f blk data) s = execWriteSingleBlock f blk data s := rfl
@[simp] theorem exec_readMultipleBlocks (f : TagFrame) (first : Byte) (count : Nat) : exec (Instr.readMultipleBlocks f first count) s = execReadMultipleBlocks f first count s := rfl
@[simp] theorem exec_select15693 (f : TagFrame) : exec (Instr.select15693 f) s = execSelect15693 f s := rfl
@[simp] theorem exec_resetToReady (f : TagFrame) : exec (Instr.resetToReady f) s = execResetToReady f s := rfl
@[simp] theorem exec_getSystemInformation (f : TagFrame) : exec (Instr.getSystemInformation f) s = execGetSystemInformation f s := rfl
@[simp] theorem exec_getMultipleBlockSecurity (f : TagFrame) (first : Byte) (count : Nat) : exec (Instr.getMultipleBlockSecurity f first count) s = execGetMultipleBlockSecurity f first count s := rfl
@[simp] theorem exec_unsupportedTagCommand (f : TagFrame) (code : Byte) : exec (Instr.unsupportedTagCommand f code) s = execUnsupportedTagCommand f code s := rfl
@[simp] theorem exec_mboxLockTimeout (t : Nat) : exec (Instr.mboxLockTimeout t) s = execMboxLockTimeout t s := rfl
@[simp] theorem exec_tagmMbDataRead (t : Nat) (r : Reader) : exec (Instr.tagmMbDataRead t r) s = execTagmMbDataRead t r s := rfl
@[simp] theorem exec_tagmConfigWrite (t : Nat) (r : Reader) (which : TagmReg) (v : Word) : exec (Instr.tagmConfigWrite t r which v) s = execTagmConfigWrite t r which v s := rfl
@[simp] theorem exec_registerWrite (f : FrameIn) (shadow : Bool) (addr : BitVec 13) (data : List Word) : exec (Instr.registerWrite f shadow addr data) s = execRegisterWrite f shadow addr data s := rfl
@[simp] theorem exec_registerRead (f : FrameIn) (shadow : Bool) (addr : BitVec 13) (n : Nat) : exec (Instr.registerRead f shadow addr n) s = execRegisterRead f shadow addr n s := rfl
@[simp] theorem exec_commandPush (f : FrameIn) (ring : Nat) (packet : List Word) : exec (Instr.commandPush f ring packet) s = execCommandPush f ring packet s := rfl
@[simp] theorem exec_ringPull (f : FrameIn) (ring max ack : Nat) (ecc : Bool) : exec (Instr.ringPull f ring max ack ecc) s = execRingPull f ring max ack ecc s := rfl
@[simp] theorem exec_bulkWrite (f : FrameIn) (shadow : Bool) (addr : BitVec 13) (data : List Word) : exec (Instr.bulkWrite f shadow addr data) s = execBulkWrite f shadow addr data s := rfl
@[simp] theorem exec_bulkRead (f : FrameIn) (shadow : Bool) (addr : BitVec 13) : exec (Instr.bulkRead f shadow addr) s = execBulkRead f shadow addr s := rfl
@[simp] theorem exec_bulkApplyDone (t : Nat) (port : Bool) : exec (Instr.bulkApplyDone t port) s = execBulkApplyDone t port s := rfl
@[simp] theorem exec_frameAbort (fall t : Nat) (port : Bool) : exec (Instr.frameAbort fall t port) s = execFrameAbort fall t port s := rfl
@[simp] theorem exec_selectWake (t : Nat) (port : Bool) : exec (Instr.selectWake t port) s = execSelectWake t port s := rfl
@[simp] theorem exec_waggle (fall t : Nat) (port : Bool) : exec (Instr.waggle fall t port) s = execWaggle fall t port s := rfl
@[simp] theorem exec_reepoch (t : Nat) (r : Reader) (port : Bool) : exec (Instr.reepoch t r port) s = execReepoch t r port s := rfl
@[simp] theorem exec_portOff (t : Nat) (r : Reader) (port off : Bool) : exec (Instr.portOff t r port off) s = execPortOff t r port off s := rfl
@[simp] theorem exec_masterMode (t : Nat) (r : Reader) (on : Bool) : exec (Instr.masterMode t r on) s = execMasterMode t r on s := rfl
@[simp] theorem exec_masterTransfer (t : Nat) (r : Reader) : exec (Instr.masterTransfer t r) s = execMasterTransfer t r s := rfl
@[simp] theorem exec_masterTransferDone (t : Nat) (rx : List Word) : exec (Instr.masterTransferDone t rx) s = execMasterTransferDone t rx s := rfl
@[simp] theorem exec_packetTake (t : Nat) : exec (Instr.packetTake t) s = execPacketTake t s := rfl
@[simp] theorem exec_cmdNop (t : Nat) (p : Packet) : exec (Instr.cmdNop t p) s = execCmdNop t p s := rfl
@[simp] theorem exec_getInfo (t : Nat) (p : Packet) : exec (Instr.getInfo t p) s = execGetInfo t p s := rfl
@[simp] theorem exec_setTurn (t : Nat) (p : Packet) : exec (Instr.setTurn t p) s = execSetTurn t p s := rfl
@[simp] theorem exec_suspend (t : Nat) (p : Packet) : exec (Instr.suspend t p) s = execSuspend t p s := rfl
@[simp] theorem exec_resume (t : Nat) (p : Packet) : exec (Instr.resume t p) s = execResume t p s := rfl
@[simp] theorem exec_cancel (t : Nat) (p : Packet) : exec (Instr.cancel t p) s = execCancel t p s := rfl
@[simp] theorem exec_queryOp (t : Nat) (p : Packet) : exec (Instr.queryOp t p) s = execQueryOp t p s := rfl
@[simp] theorem exec_data (t : Nat) (p : Packet) : exec (Instr.data t p) s = execData t p s := rfl
@[simp] theorem exec_timeRead (t : Nat) (p : Packet) : exec (Instr.timeRead t p) s = execTimeRead t p s := rfl
@[simp] theorem exec_listen (t : Nat) (p : Packet) : exec (Instr.listen t p) s = execListen t p s := rfl
@[simp] theorem exec_inventory (t : Nat) (p : Packet) : exec (Instr.inventory t p) s = execInventory t p s := rfl
@[simp] theorem exec_selectSet (t : Nat) (p : Packet) : exec (Instr.selectSet t p) s = execSelectSet t p s := rfl
@[simp] theorem exec_tagRead (t : Nat) (p : Packet) : exec (Instr.tagRead t p) s = execTagRead t p s := rfl
@[simp] theorem exec_tagWrite (t : Nat) (p : Packet) : exec (Instr.tagWrite t p) s = execTagWrite t p s := rfl
@[simp] theorem exec_tagBlockwrite (t : Nat) (p : Packet) : exec (Instr.tagBlockwrite t p) s = execTagBlockwrite t p s := rfl
@[simp] theorem exec_tagBlockerase (t : Nat) (p : Packet) : exec (Instr.tagBlockerase t p) s = execTagBlockerase t p s := rfl
@[simp] theorem exec_tagLock (t : Nat) (p : Packet) : exec (Instr.tagLock t p) s = execTagLock t p s := rfl
@[simp] theorem exec_tagKill (t : Nat) (p : Packet) : exec (Instr.tagKill t p) s = execTagKill t p s := rfl
@[simp] theorem exec_tagPermalock (t : Nat) (p : Packet) : exec (Instr.tagPermalock t p) s = execTagPermalock t p s := rfl
@[simp] theorem exec_tagUntraceable (t : Nat) (p : Packet) : exec (Instr.tagUntraceable t p) s = execTagUntraceable t p s := rfl
@[simp] theorem exec_tagAuth (t : Nat) (p : Packet) : exec (Instr.tagAuth t p) s = execTagAuth t p s := rfl
@[simp] theorem exec_hfCampaign (t : Nat) (p : Packet) : exec (Instr.hfCampaign t p) s = execHfCampaign t p s := rfl
@[simp] theorem exec_hfApdu (t : Nat) (p : Packet) : exec (Instr.hfApdu t p) s = execHfApdu t p s := rfl
@[simp] theorem exec_hfRelease (t : Nat) (p : Packet) : exec (Instr.hfRelease t p) s = execHfRelease t p s := rfl
@[simp] theorem exec_mboxRead (t : Nat) (p : Packet) : exec (Instr.mboxRead t p) s = execMboxRead t p s := rfl
@[simp] theorem exec_mboxWrite (t : Nat) (p : Packet) : exec (Instr.mboxWrite t p) s = execMboxWrite t p s := rfl
@[simp] theorem exec_combSweepReport (t : Nat) (p : Packet) : exec (Instr.combSweepReport t p) s = execCombSweepReport t p s := rfl
@[simp] theorem exec_combSweepPurge (t : Nat) (p : Packet) : exec (Instr.combSweepPurge t p) s = execCombSweepPurge t p s := rfl
@[simp] theorem exec_combSweepDepart (t : Nat) (p : Packet) : exec (Instr.combSweepDepart t p) s = execCombSweepDepart t p s := rfl
@[simp] theorem exec_combSweepPin (t : Nat) (p : Packet) : exec (Instr.combSweepPin t p) s = execCombSweepPin t p s := rfl
@[simp] theorem exec_combSweepUnpin (t : Nat) (p : Packet) : exec (Instr.combSweepUnpin t p) s = execCombSweepUnpin t p s := rfl
@[simp] theorem exec_combSweepLink (t : Nat) (p : Packet) : exec (Instr.combSweepLink t p) s = execCombSweepLink t p s := rfl
@[simp] theorem exec_combLookup (t : Nat) (p : Packet) : exec (Instr.combLookup t p) s = execCombLookup t p s := rfl
@[simp] theorem exec_damaskKeyLoad (t : Nat) (p : Packet) : exec (Instr.damaskKeyLoad t p) s = execDamaskKeyLoad t p s := rfl
@[simp] theorem exec_damaskKeyGenerate (t : Nat) (p : Packet) : exec (Instr.damaskKeyGenerate t p) s = execDamaskKeyGenerate t p s := rfl
@[simp] theorem exec_damaskKeyMarkNx (t : Nat) (p : Packet) : exec (Instr.damaskKeyMarkNx t p) s = execDamaskKeyMarkNx t p s := rfl
@[simp] theorem exec_damaskKeyExport (t : Nat) (p : Packet) : exec (Instr.damaskKeyExport t p) s = execDamaskKeyExport t p s := rfl
@[simp] theorem exec_damaskKeyErase (t : Nat) (p : Packet) : exec (Instr.damaskKeyErase t p) s = execDamaskKeyErase t p s := rfl
@[simp] theorem exec_damaskEpoch (t : Nat) (p : Packet) : exec (Instr.damaskEpoch t p) s = execDamaskEpoch t p s := rfl
@[simp] theorem exec_calRun (t : Nat) (p : Packet) : exec (Instr.calRun t p) s = execCalRun t p s := rfl
@[simp] theorem exec_onlineTest (t : Nat) (p : Packet) : exec (Instr.onlineTest t p) s = execOnlineTest t p s := rfl
@[simp] theorem exec_serviceFence (t : Nat) (p : Packet) : exec (Instr.serviceFence t p) s = execServiceFence t p s := rfl
@[simp] theorem exec_serviceUnfence (t : Nat) (p : Packet) : exec (Instr.serviceUnfence t p) s = execServiceUnfence t p s := rfl
@[simp] theorem exec_serviceRetire (t : Nat) (p : Packet) : exec (Instr.serviceRetire t p) s = execServiceRetire t p s := rfl
@[simp] theorem exec_leaveSafe (t : Nat) (p : Packet) : exec (Instr.leaveSafe t p) s = execLeaveSafe t p s := rfl
@[simp] theorem exec_enterSafe (t : Nat) (p : Packet) : exec (Instr.enterSafe t p) s = execEnterSafe t p s := rfl
@[simp] theorem exec_ledgerRead (t : Nat) (p : Packet) : exec (Instr.ledgerRead t p) s = execLedgerRead t p s := rfl
@[simp] theorem exec_imageCommit (t : Nat) (p : Packet) : exec (Instr.imageCommit t p) s = execImageCommit t p s := rfl
@[simp] theorem exec_appletStart (t : Nat) (p : Packet) : exec (Instr.appletStart t p) s = execAppletStart t p s := rfl
@[simp] theorem exec_appletStop (t : Nat) (p : Packet) : exec (Instr.appletStop t p) s = execAppletStop t p s := rfl
@[simp] theorem exec_swapCore (t : Nat) (p : Packet) : exec (Instr.swapCore t p) s = execSwapCore t p s := rfl
@[simp] theorem exec_appletCmd (t : Nat) (p : Packet) : exec (Instr.appletCmd t p) s = execAppletCmd t p s := rfl
@[simp] theorem exec_operationStart (t tag : Nat) (ecc : Bool) : exec (Instr.operationStart t tag ecc) s = execOperationStart t tag ecc s := rfl
@[simp] theorem exec_heldRecordWrite (t : Nat) : exec (Instr.heldRecordWrite t) s = execHeldRecordWrite t s := rfl
@[simp] theorem exec_gapDeferredWrite (t ring : Nat) : exec (Instr.gapDeferredWrite t ring) s = execGapDeferredWrite t ring s := rfl
@[simp] theorem exec_ringCfgWrite (t : Nat) (r : Reader) (ring : Nat) (v : Word) : exec (Instr.ringCfgWrite t r ring v) s = execRingCfgWrite t r ring v s := rfl
@[simp] theorem exec_ringFlush (t : Nat) (r : Reader) (ring : Nat) : exec (Instr.ringFlush t r ring) s = execRingFlush t r ring s := rfl
@[simp] theorem exec_ringStale (t ring : Nat) : exec (Instr.ringStale t ring) s = execRingStale t ring s := rfl
@[simp] theorem exec_setCopy (t : Nat) (r : Reader) : exec (Instr.setCopy t r) s = execSetCopy t r s := rfl
@[simp] theorem exec_copyDone (t : Nat) : exec (Instr.copyDone t) s = execCopyDone t s := rfl
@[simp] theorem exec_sysCtrlSafe (t : Nat) (r : Reader) (v : Word) : exec (Instr.sysCtrlSafe t r v) s = execSysCtrlSafe t r v s := rfl
@[simp] theorem exec_softReset (t : Nat) (r : Reader) (v : Word) : exec (Instr.softReset t r v) s = execSoftReset t r v s := rfl
@[simp] theorem exec_latchedPairRead (t : Nat) (r : Reader) (addr : BitVec 13) : exec (Instr.latchedPairRead t r addr) s = execLatchedPairRead t r addr s := rfl
@[simp] theorem exec_genericRegisterWrite (t : Nat) (r : Reader) (shadow : Bool) (addr : BitVec 13) (v : Word) : exec (Instr.genericRegisterWrite t r shadow addr v) s = execGenericRegisterWrite t r shadow addr v s := rfl
@[simp] theorem exec_add (c : Bool) (rd ra rb : BitVec 5) : exec (Instr.add c rd ra rb) s = execAdd c rd ra rb s := rfl
@[simp] theorem exec_sub (c : Bool) (rd ra rb : BitVec 5) : exec (Instr.sub c rd ra rb) s = execSub c rd ra rb s := rfl
@[simp] theorem exec_and (c : Bool) (rd ra rb : BitVec 5) : exec (Instr.and c rd ra rb) s = execAnd c rd ra rb s := rfl
@[simp] theorem exec_or (c : Bool) (rd ra rb : BitVec 5) : exec (Instr.or c rd ra rb) s = execOr c rd ra rb s := rfl
@[simp] theorem exec_xor (rd ra rb : BitVec 5) : exec (Instr.xor rd ra rb) s = execXor rd ra rb s := rfl
@[simp] theorem exec_shl (rd ra rb : BitVec 5) : exec (Instr.shl rd ra rb) s = execShl rd ra rb s := rfl
@[simp] theorem exec_shr (rd ra rb : BitVec 5) : exec (Instr.shr rd ra rb) s = execShr rd ra rb s := rfl
@[simp] theorem exec_sra (rd ra rb : BitVec 5) : exec (Instr.sra rd ra rb) s = execSra rd ra rb s := rfl
@[simp] theorem exec_slt (rd ra rb : BitVec 5) : exec (Instr.slt rd ra rb) s = execSlt rd ra rb s := rfl
@[simp] theorem exec_sltu (rd ra rb : BitVec 5) : exec (Instr.sltu rd ra rb) s = execSltu rd ra rb s := rfl
@[simp] theorem exec_min (rd ra rb : BitVec 5) : exec (Instr.min rd ra rb) s = execMin rd ra rb s := rfl
@[simp] theorem exec_max (rd ra rb : BitVec 5) : exec (Instr.max rd ra rb) s = execMax rd ra rb s := rfl
@[simp] theorem exec_minu (rd ra rb : BitVec 5) : exec (Instr.minu rd ra rb) s = execMinu rd ra rb s := rfl
@[simp] theorem exec_maxu (rd ra rb : BitVec 5) : exec (Instr.maxu rd ra rb) s = execMaxu rd ra rb s := rfl
@[simp] theorem exec_mov (c : Bool) (rd ra : BitVec 5) : exec (Instr.mov c rd ra) s = execMov c rd ra s := rfl
@[simp] theorem exec_mul (rd ra rb : BitVec 5) : exec (Instr.mul rd ra rb) s = execMul rd ra rb s := rfl
@[simp] theorem exec_mulh (rd ra rb : BitVec 5) : exec (Instr.mulh rd ra rb) s = execMulh rd ra rb s := rfl
@[simp] theorem exec_mulhu (rd ra rb : BitVec 5) : exec (Instr.mulhu rd ra rb) s = execMulhu rd ra rb s := rfl
@[simp] theorem exec_div (rd ra rb : BitVec 5) : exec (Instr.div rd ra rb) s = execDiv rd ra rb s := rfl
@[simp] theorem exec_divu (rd ra rb : BitVec 5) : exec (Instr.divu rd ra rb) s = execDivu rd ra rb s := rfl
@[simp] theorem exec_rem (rd ra rb : BitVec 5) : exec (Instr.rem rd ra rb) s = execRem rd ra rb s := rfl
@[simp] theorem exec_remu (rd ra rb : BitVec 5) : exec (Instr.remu rd ra rb) s = execRemu rd ra rb s := rfl
@[simp] theorem exec_clz (rd ra : BitVec 5) : exec (Instr.clz rd ra) s = execClz rd ra s := rfl
@[simp] theorem exec_popc (rd ra : BitVec 5) : exec (Instr.popc rd ra) s = execPopc rd ra s := rfl
@[simp] theorem exec_addi (c : Bool) (rd ra : BitVec 5) (imm : BitVec 14) : exec (Instr.addi c rd ra imm) s = execAddi c rd ra imm s := rfl
@[simp] theorem exec_andi (rd ra : BitVec 5) (imm : BitVec 14) : exec (Instr.andi rd ra imm) s = execAndi rd ra imm s := rfl
@[simp] theorem exec_ori (rd ra : BitVec 5) (imm : BitVec 14) : exec (Instr.ori rd ra imm) s = execOri rd ra imm s := rfl
@[simp] theorem exec_xori (rd ra : BitVec 5) (imm : BitVec 14) : exec (Instr.xori rd ra imm) s = execXori rd ra imm s := rfl
@[simp] theorem exec_shli (c : Bool) (rd ra : BitVec 5) (imm : BitVec 14) : exec (Instr.shli c rd ra imm) s = execShli c rd ra imm s := rfl
@[simp] theorem exec_shri (c : Bool) (rd ra : BitVec 5) (imm : BitVec 14) : exec (Instr.shri c rd ra imm) s = execShri c rd ra imm s := rfl
@[simp] theorem exec_srai (rd ra : BitVec 5) (imm : BitVec 14) : exec (Instr.srai rd ra imm) s = execSrai rd ra imm s := rfl
@[simp] theorem exec_slti (rd ra : BitVec 5) (imm : BitVec 14) : exec (Instr.slti rd ra imm) s = execSlti rd ra imm s := rfl
@[simp] theorem exec_sltiu (rd ra : BitVec 5) (imm : BitVec 14) : exec (Instr.sltiu rd ra imm) s = execSltiu rd ra imm s := rfl
@[simp] theorem exec_lui (rd : BitVec 5) (imm : BitVec 19) : exec (Instr.lui rd imm) s = execLui rd imm s := rfl
@[simp] theorem exec_li (c : Bool) (rd : BitVec 5) (imm : BitVec 19) : exec (Instr.li c rd imm) s = execLi c rd imm s := rfl
@[simp] theorem exec_ldw (c : Bool) (rd ra : BitVec 5) (imm : BitVec 14) (ecc : Bool) : exec (Instr.ldw c rd ra imm ecc) s = execLdw c rd ra imm ecc s := rfl
@[simp] theorem exec_ldh (rd ra : BitVec 5) (imm : BitVec 14) (ecc : Bool) : exec (Instr.ldh rd ra imm ecc) s = execLdh rd ra imm ecc s := rfl
@[simp] theorem exec_ldhu (rd ra : BitVec 5) (imm : BitVec 14) (ecc : Bool) : exec (Instr.ldhu rd ra imm ecc) s = execLdhu rd ra imm ecc s := rfl
@[simp] theorem exec_ldb (rd ra : BitVec 5) (imm : BitVec 14) (ecc : Bool) : exec (Instr.ldb rd ra imm ecc) s = execLdb rd ra imm ecc s := rfl
@[simp] theorem exec_ldbu (rd ra : BitVec 5) (imm : BitVec 14) (ecc : Bool) : exec (Instr.ldbu rd ra imm ecc) s = execLdbu rd ra imm ecc s := rfl
@[simp] theorem exec_stw (c : Bool) (rd ra : BitVec 5) (imm : BitVec 14) : exec (Instr.stw c rd ra imm) s = execStw c rd ra imm s := rfl
@[simp] theorem exec_sth (rd ra : BitVec 5) (imm : BitVec 14) : exec (Instr.sth rd ra imm) s = execSth rd ra imm s := rfl
@[simp] theorem exec_stb (rd ra : BitVec 5) (imm : BitVec 14) : exec (Instr.stb rd ra imm) s = execStb rd ra imm s := rfl
@[simp] theorem exec_beq (ra rb : BitVec 5) (off : BitVec 14) : exec (Instr.beq ra rb off) s = execBeq ra rb off s := rfl
@[simp] theorem exec_bne (ra rb : BitVec 5) (off : BitVec 14) : exec (Instr.bne ra rb off) s = execBne ra rb off s := rfl
@[simp] theorem exec_blt (ra rb : BitVec 5) (off : BitVec 14) : exec (Instr.blt ra rb off) s = execBlt ra rb off s := rfl
@[simp] theorem exec_bge (ra rb : BitVec 5) (off : BitVec 14) : exec (Instr.bge ra rb off) s = execBge ra rb off s := rfl
@[simp] theorem exec_bltu (ra rb : BitVec 5) (off : BitVec 14) : exec (Instr.bltu ra rb off) s = execBltu ra rb off s := rfl
@[simp] theorem exec_bgeu (ra rb : BitVec 5) (off : BitVec 14) : exec (Instr.bgeu ra rb off) s = execBgeu ra rb off s := rfl
@[simp] theorem exec_bz (c : Bool) (ra : BitVec 5) (off : BitVec 14) : exec (Instr.bz c ra off) s = execBz c ra off s := rfl
@[simp] theorem exec_bnz (c : Bool) (ra : BitVec 5) (off : BitVec 14) : exec (Instr.bnz c ra off) s = execBnz c ra off s := rfl
@[simp] theorem exec_j (c : Bool) (off : BitVec 24) : exec (Instr.j c off) s = execJ c off s := rfl
@[simp] theorem exec_call (off : BitVec 24) : exec (Instr.call off) s = execCall off s := rfl
@[simp] theorem exec_callr (ra : BitVec 5) : exec (Instr.callr ra) s = execCallr ra s := rfl
@[simp] theorem exec_jr (ra : BitVec 5) : exec (Instr.jr ra) s = execJr ra s := rfl
@[simp] theorem exec_ret (c : Bool) : exec (Instr.ret c) s = execRet c s := rfl
@[simp] theorem exec_rtt  : exec (Instr.rtt) s = execRtt s := rfl
@[simp] theorem exec_wait (t : Nat) (irq : Bool) : exec (Instr.wait t irq) s = execWait t irq s := rfl
@[simp] theorem exec_csrrd (rd : BitVec 5) (csr : BitVec 5) : exec (Instr.csrrd rd csr) s = execCsrrd rd csr s := rfl
@[simp] theorem exec_csrwr (ra : BitVec 5) (csr : BitVec 5) : exec (Instr.csrwr ra csr) s = execCsrwr ra csr s := rfl
@[simp] theorem exec_fence  : exec (Instr.fence) s = execFence s := rfl
@[simp] theorem exec_wspill  : exec (Instr.wspill) s = execWspill s := rfl
@[simp] theorem exec_wfill  : exec (Instr.wfill) s = execWfill s := rfl
@[simp] theorem exec_trap (imm : BitVec 14) : exec (Instr.trap imm) s = execTrap imm s := rfl
@[simp] theorem exec_cus (sel : Fin 16) (rd ra rb imm : BitVec 5) (ecc : Bool) : exec (Instr.cus sel rd ra rb imm ecc) s = execCus sel rd ra rb imm ecc s := rfl
@[simp] theorem exec_cp2Crcinit (rd ra rb : BitVec 5) : exec (Instr.cp2Crcinit rd ra rb) s = execCp2Crcinit rd ra rb s := rfl
@[simp] theorem exec_cp2Crcfeed (rd ra rb : BitVec 5) : exec (Instr.cp2Crcfeed rd ra rb) s = execCp2Crcfeed rd ra rb s := rfl
@[simp] theorem exec_cp2Crcrd (rd ra rb : BitVec 5) : exec (Instr.cp2Crcrd rd ra rb) s = execCp2Crcrd rd ra rb s := rfl
@[simp] theorem exec_cp3Pseud (rd ra rb : BitVec 5) : exec (Instr.cp3Pseud rd ra rb) s = execCp3Pseud rd ra rb s := rfl
@[simp] theorem exec_cp3Epkey (rd ra rb : BitVec 5) : exec (Instr.cp3Epkey rd ra rb) s = execCp3Epkey rd ra rb s := rfl
@[simp] theorem exec_cp3Siphash (rd ra rb : BitVec 5) : exec (Instr.cp3Siphash rd ra rb) s = execCp3Siphash rd ra rb s := rfl
@[simp] theorem exec_interruptEntry (t : Nat) (cause : Fin 16) : exec (Instr.interruptEntry t cause) s = execInterruptEntry t cause s := rfl
@[simp] theorem exec_yield (t : Nat) : exec (Instr.yield t) s = execYield t s := rfl
@[simp] theorem exec_waitEvent (t : Nat) : exec (Instr.waitEvent t) s = execWaitEvent t s := rfl
@[simp] theorem exec_waitEventTimer (t : Nat) : exec (Instr.waitEventTimer t) s = execWaitEventTimer t s := rfl
@[simp] theorem exec_cmdGet (t : Nat) : exec (Instr.cmdGet t) s = execCmdGet t s := rfl
@[simp] theorem exec_cmdReply (t : Nat) : exec (Instr.cmdReply t) s = execCmdReply t s := rfl
@[simp] theorem exec_appletPost (t : Nat) : exec (Instr.appletPost t) s = execAppletPost t s := rfl
@[simp] theorem exec_tagXchg (t : Nat) : exec (Instr.tagXchg t) s = execTagXchg t s := rfl
@[simp] theorem exec_timeService (t : Nat) : exec (Instr.timeService t) s = execTimeService t s := rfl
@[simp] theorem exec_filterRet (t : Nat) (words : Option (List Word)) : exec (Instr.filterRet t words) s = execFilterRet t words s := rfl
@[simp] theorem exec_filterCall (t : Nat) : exec (Instr.filterCall t) s = execFilterCall t s := rfl
@[simp] theorem exec_filterBudgetExpiry (t : Nat) : exec (Instr.filterBudgetExpiry t) s = execFilterBudgetExpiry t s := rfl
@[simp] theorem exec_ucDataHWrite (t : Nat) (r : Reader) (v : Word) : exec (Instr.ucDataHWrite t r v) s = execUcDataHWrite t r v s := rfl
@[simp] theorem exec_ucDecWrite (t : Nat) (r : Reader) (n : Fin 16) (v : Word) : exec (Instr.ucDecWrite t r n v) s = execUcDecWrite t r n v s := rfl
@[simp] theorem exec_imgDataWrite (t : Nat) (r : Reader) (v : Word) : exec (Instr.imgDataWrite t r v) s = execImgDataWrite t r v s := rfl
@[simp] theorem exec_imgRestart (t : Nat) (r : Reader) : exec (Instr.imgRestart t r) s = execImgRestart t r s := rfl
@[simp] theorem exec_imgBoot (t : Nat) (r : Reader) : exec (Instr.imgBoot t r) s = execImgBoot t r s := rfl
@[simp] theorem exec_bootRom (t : Nat) (flash : List Word) : exec (Instr.bootRom t flash) s = execBootRom t flash s := rfl
@[simp] theorem exec_wdog (t : Nat) : exec (Instr.wdog t) s = execWdog t s := rfl
@[simp] theorem exec_pmuModeWrite (t : Nat) (r : Reader) (v : Word) : exec (Instr.pmuModeWrite t r v) s = execPmuModeWrite t r v s := rfl
@[simp] theorem exec_entryStageDone (t : Nat) (dom : Fin 14) : exec (Instr.entryStageDone t dom) s = execEntryStageDone t dom s := rfl
@[simp] theorem exec_quiesceTimeout (t : Nat) (dom : Fin 14) : exec (Instr.quiesceTimeout t dom) s = execQuiesceTimeout t dom s := rfl
@[simp] theorem exec_wakeStageDone (t : Nat) (dom : Fin 14) : exec (Instr.wakeStageDone t dom) s = execWakeStageDone t dom s := rfl
@[simp] theorem exec_atWake (t : Nat) : exec (Instr.atWake t) s = execAtWake t s := rfl
@[simp] theorem exec_vioChange (t : Nat) (railB up : Bool) : exec (Instr.vioChange t railB up) s = execVioChange t railB up s := rfl
@[simp] theorem exec_vpaChange (t : Nat) (up : Bool) : exec (Instr.vpaChange t up) s = execVpaChange t up s := rfl
@[simp] theorem exec_brownOut (t : Nat) : exec (Instr.brownOut t) s = execBrownOut t s := rfl
@[simp] theorem exec_powerOnReset (t : Nat) : exec (Instr.powerOnReset t) s = execPowerOnReset t s := rfl
@[simp] theorem exec_pinReset (t : Nat) (low : Bool) : exec (Instr.pinReset t low) s = execPinReset t low s := rfl
@[simp] theorem exec_startupStageDone (t : Nat) (straps : BitVec 3) : exec (Instr.startupStageDone t straps) s = execStartupStageDone t straps s := rfl
@[simp] theorem exec_tempSample (t : Nat) (temp : Int) : exec (Instr.tempSample t temp) s = execTempSample t temp s := rfl
@[simp] theorem exec_calRunStart (t : Nat) : exec (Instr.calRunStart t) s = execCalRunStart t s := rfl
@[simp] theorem exec_calRunDone (t : Nat) (m : CalMeasure) : exec (Instr.calRunDone t m) s = execCalRunDone t m s := rfl
@[simp] theorem exec_ageHour (t : Nat) : exec (Instr.ageHour t) s = execAgeHour t s := rfl
@[simp] theorem exec_replan (t : Nat) (m : AgeMeasure) : exec (Instr.replan t m) s = execReplan t m s := rfl
@[simp] theorem exec_faultRecoveryDone (t : Nat) (writeOk : Bool) : exec (Instr.faultRecoveryDone t writeOk) s = execFaultRecoveryDone t writeOk s := rfl
@[simp] theorem exec_recoveryTmo (t : Nat) : exec (Instr.recoveryTmo t) s = execRecoveryTmo t s := rfl
@[simp] theorem exec_queuedFaultStart (t : Nat) : exec (Instr.queuedFaultStart t) s = execQueuedFaultStart t s := rfl
@[simp] theorem exec_checkSelf (t : Nat) (ok : Bool) : exec (Instr.checkSelf t ok) s = execCheckSelf t ok s := rfl
@[simp] theorem exec_damaskSelf (t : Nat) (ok : Bool) : exec (Instr.damaskSelf t ok) s = execDamaskSelf t ok s := rfl
@[simp] theorem exec_testPhaseDone (t : Nat) (ok : Bool) (addr : Word) : exec (Instr.testPhaseDone t ok addr) s = execTestPhaseDone t ok addr s := rfl
@[simp] theorem exec_fenceCtrlWrite (t : Nat) (r : Reader) (v : Word) : exec (Instr.fenceCtrlWrite t r v) s = execFenceCtrlWrite t r v s := rfl
@[simp] theorem exec_ledgerDataRead (t : Nat) (r : Reader) : exec (Instr.ledgerDataRead t r) s = execLedgerDataRead t r s := rfl
@[simp] theorem exec_hfLim (t : Nat) (allowed : Nat) : exec (Instr.hfLim t allowed) s = execHfLim t allowed s := rfl
@[simp] theorem exec_paBuck (t : Nat) : exec (Instr.paBuck t) s = execPaBuck t s := rfl
@[simp] theorem exec_hfDrv (t : Nat) : exec (Instr.hfDrv t) s = execHfDrv t s := rfl
@[simp] theorem exec_hfStartOfFrame (t : Nat) (framed erased : Bool) : exec (Instr.hfStartOfFrame t framed erased) s = execHfStartOfFrame t framed erased s := rfl
@[simp] theorem exec_malformedFrame (f : FrameIn) (header : Word) (rest : List Word) : exec (Instr.malformedFrame f header rest) s = execMalformedFrame f header rest s := rfl
@[simp] theorem exec_uhfChanDataRead (t : Nat) (r : Reader) (shadow : Bool) : exec (Instr.uhfChanDataRead t r shadow) s = execUhfChanDataRead t r shadow s := rfl
@[simp] theorem exec_linkMDataAccess (t : Nat) (r : Reader) (wr : Option Word) : exec (Instr.linkMDataAccess t r wr) s = execLinkMDataAccess t r wr s := rfl
@[simp] theorem exec_calSnrDataRead (t : Nat) (r : Reader) : exec (Instr.calSnrDataRead t r) s = execCalSnrDataRead t r s := rfl
@[simp] theorem exec_ucDataHRead (t : Nat) (r : Reader) : exec (Instr.ucDataHRead t r) s = execUcDataHRead t r s := rfl

end Sys2Proof.Machine
end

