-- ==== Sys2Proof/Laws/Memory.lean ====
section
/-! SUPPORT. The memories of the device: each write puts its word at its address and nowhere else, and keeps the canonical
form; the machine after reset has it. -/
namespace Sys2Proof.Machine

/-- A word of a memory written reads back; every other word reads as before. -/
theorem memW_memSet (m : CMap Word) (k j : Nat) (v : Word) : memW (memSet m k v) j = if j = k then v else memW m j :=
  CMap.get_set _ _ _ _ _

@[simp] theorem memW_memSet_self (m : CMap Word) (k : Nat) (v : Word) : memW (memSet m k v) k = v := by simp [memW_memSet]

theorem memW_memSet_ne (m : CMap Word) {k j : Nat} (v : Word) (h : j ≠ k) : memW (memSet m k v) j = memW m j := by
  simp [memW_memSet, h]

/-- A write of a memory keeps its canonical form. -/
theorem memSet_wf {m : CMap Word} (k : Nat) (v : Word) (h : CMap.wf zeroW m = true) : CMap.wf zeroW (memSet m k v) = true :=
  CMap.wf_set k v h

/-- A write of a register keeps the canonical form of the bank. -/
theorem setReg_wf {d : Dev} (a : Nat) (v : Word) (h : CMap.wf regReset d.regs = true) :
    CMap.wf regReset (setReg a v d).regs = true := CMap.wf_set a v h

/-- After reset every memory is in canonical form. -/
theorem memory_wf_reset : Sys2Proof.Memory.wf State.reset = true := by
  simp only [Sys2Proof.Memory.wf]
  decide

end Sys2Proof.Machine
end

