-- ==== Sys2Proof/Laws/Records.lean ====
section
/-! SUPPORT. Everything that placing a record can do: it touches rings, ring registers and the marks of the tick. -/
namespace Sys2Proof.Machine

/-- Only rings, registers and marks differ, and of the registers only EVENT and the drop count of ring `n`. -/
def RecFrame (n : Nat) (d e : Dev) : Prop :=
  e = { d with rings := e.rings, regs := e.regs, marks := e.marks } ∧
  ∀ a, a ≠ ringReg n 5 → a ≠ ringReg n 6 → reg e a = reg d a

theorem RecFrame.refl (n : Nat) (d : Dev) : RecFrame n d d := ⟨rfl, fun _ _ _ => rfl⟩

theorem RecFrame.trans {n : Nat} {d e f : Dev} (h : RecFrame n d e) (g : RecFrame n e f) : RecFrame n d f := by
  refine ⟨?_, fun a h5 h6 => (g.2 a h5 h6).trans (h.2 a h5 h6)⟩
  have h1 := h.1; have g1 := g.1
  rw [g1]
  rw [h1]

theorem RecFrame.setRing (n m : Nat) (r : Ring) (d : Dev) : RecFrame n d (Machine.setRing m r d) := ⟨rfl, fun _ _ _ => rfl⟩

theorem RecFrame.event6 (n b : Nat) (d : Dev) : RecFrame n d (event (ringReg n 6) b d) :=
  ⟨rfl, fun _ _ h => reg_event_ne _ _ h⟩

theorem RecFrame.count5 (n hi lo k : Nat) (d : Dev) : RecFrame n d (count (ringReg n 5) hi lo k d) :=
  ⟨rfl, fun _ h _ => reg_count_ne _ _ _ _ h⟩

theorem ringPlace_frame (n : Nat) (ws : List Word) (gap : Bool) (d : Dev) : RecFrame n d (ringPlace n ws gap d) := by
  simp only [ringPlace]
  split
  · exact ((RecFrame.setRing n n _ d).trans (RecFrame.event6 n 0 _)).trans (RecFrame.event6 n 5 _)
  · exact (RecFrame.setRing n n _ d).trans (RecFrame.event6 n 0 _)

theorem recPlace_frame (n ty : Nat) (body : List Word) (gap : Bool) (d : Dev) : RecFrame n d (recPlace n ty body gap d) :=
  ringPlace_frame _ _ _ _

theorem gapFlush_frame (n : Nat) (d : Dev) : RecFrame n d (gapFlush n d) := by
  simp only [gapFlush]
  split
  · exact (RecFrame.setRing n n _ d).trans (recPlace_frame _ _ _ _ _)
  · exact RecFrame.refl n d

theorem recDrop_frame (n : Nat) (d : Dev) : RecFrame n d (recDrop n d) := by
  have h : RecFrame n d (count (ringReg n 5) 31 16 1 (event (ringReg n 6) 3 d)) :=
    (RecFrame.event6 n 3 d).trans (RecFrame.count5 n _ _ _ _)
  simp only [recDrop]
  split
  · exact h.trans (RecFrame.setRing n n _ _)
  · exact (h.trans (RecFrame.setRing n n _ _)).trans (gapFlush_frame n _)

theorem offer_frame (n ty : Nat) (body : List Word) (d : Dev) : RecFrame n d (offer n ty body d).1 := by
  simp only [offer]
  split
  · split
    · exact (gapFlush_frame n d).trans (recPlace_frame _ _ _ _ _)
    · exact (gapFlush_frame n d).trans (recDrop_frame _ _)
  · exact RecFrame.count5 n _ _ _ d

/-- A record offered: rings, that ring's registers and the marks, nothing else. -/
theorem writeRecord_frame (n ty : Nat) (body : List Word) (d : Dev) : RecFrame n d (writeRecord n ty body d) :=
  offer_frame n ty body d

theorem timeRecord_frame (cause : Nat) (st : TbState) (e : Int) (d : Dev) : RecFrame 5 d (timeRecord cause st e d) :=
  writeRecord_frame 5 _ _ d

@[simp] theorem writeRecord_now (n ty : Nat) (body : List Word) (d : Dev) : (writeRecord n ty body d).now = d.now := (congrArg Dev.now (writeRecord_frame n ty body d).1 :)
@[simp] theorem writeRecord_free (n ty : Nat) (body : List Word) (d : Dev) : (writeRecord n ty body d).free = d.free := (congrArg Dev.free (writeRecord_frame n ty body d).1 :)
@[simp] theorem writeRecord_rdata (n ty : Nat) (body : List Word) (d : Dev) : (writeRecord n ty body d).rdata = d.rdata := (congrArg Dev.rdata (writeRecord_frame n ty body d).1 :)
@[simp] theorem writeRecord_tb (n ty : Nat) (body : List Word) (d : Dev) : (writeRecord n ty body d).tb = d.tb := (congrArg Dev.tb (writeRecord_frame n ty body d).1 :)
@[simp] theorem writeRecord_uhf (n ty : Nat) (body : List Word) (d : Dev) : (writeRecord n ty body d).uhf = d.uhf := (congrArg Dev.uhf (writeRecord_frame n ty body d).1 :)
@[simp] theorem writeRecord_chA (n ty : Nat) (body : List Word) (d : Dev) : (writeRecord n ty body d).chA = d.chA := (congrArg Dev.chA (writeRecord_frame n ty body d).1 :)
@[simp] theorem writeRecord_chB (n ty : Nat) (body : List Word) (d : Dev) : (writeRecord n ty body d).chB = d.chB := (congrArg Dev.chB (writeRecord_frame n ty body d).1 :)
@[simp] theorem writeRecord_pair (n ty : Nat) (body : List Word) (d : Dev) : (writeRecord n ty body d).pair = d.pair := (congrArg Dev.pair (writeRecord_frame n ty body d).1 :)
@[simp] theorem writeRecord_seq (n ty : Nat) (body : List Word) (d : Dev) : (writeRecord n ty body d).seq = d.seq := (congrArg Dev.seq (writeRecord_frame n ty body d).1 :)
@[simp] theorem writeRecord_gen2 (n ty : Nat) (body : List Word) (d : Dev) : (writeRecord n ty body d).gen2 = d.gen2 := (congrArg Dev.gen2 (writeRecord_frame n ty body d).1 :)
@[simp] theorem writeRecord_acc (n ty : Nat) (body : List Word) (d : Dev) : (writeRecord n ty body d).acc = d.acc := (congrArg Dev.acc (writeRecord_frame n ty body d).1 :)
@[simp] theorem writeRecord_comb (n ty : Nat) (body : List Word) (d : Dev) : (writeRecord n ty body d).comb = d.comb := (congrArg Dev.comb (writeRecord_frame n ty body d).1 :)
@[simp] theorem writeRecord_dmk (n ty : Nat) (body : List Word) (d : Dev) : (writeRecord n ty body d).dmk = d.dmk := (congrArg Dev.dmk (writeRecord_frame n ty body d).1 :)
@[simp] theorem writeRecord_hf (n ty : Nat) (body : List Word) (d : Dev) : (writeRecord n ty body d).hf = d.hf := (congrArg Dev.hf (writeRecord_frame n ty body d).1 :)
@[simp] theorem writeRecord_portA (n ty : Nat) (body : List Word) (d : Dev) : (writeRecord n ty body d).portA = d.portA := (congrArg Dev.portA (writeRecord_frame n ty body d).1 :)
@[simp] theorem writeRecord_portB (n ty : Nat) (body : List Word) (d : Dev) : (writeRecord n ty body d).portB = d.portB := (congrArg Dev.portB (writeRecord_frame n ty body d).1 :)
@[simp] theorem writeRecord_mst (n ty : Nat) (body : List Word) (d : Dev) : (writeRecord n ty body d).mst = d.mst := (congrArg Dev.mst (writeRecord_frame n ty body d).1 :)
@[simp] theorem writeRecord_ops (n ty : Nat) (body : List Word) (d : Dev) : (writeRecord n ty body d).ops = d.ops := (congrArg Dev.ops (writeRecord_frame n ty body d).1 :)
@[simp] theorem writeRecord_held (n ty : Nat) (body : List Word) (d : Dev) : (writeRecord n ty body d).held = d.held := (congrArg Dev.held (writeRecord_frame n ty body d).1 :)
@[simp] theorem writeRecord_opSeq (n ty : Nat) (body : List Word) (d : Dev) : (writeRecord n ty body d).opSeq = d.opSeq := (congrArg Dev.opSeq (writeRecord_frame n ty body d).1 :)
@[simp] theorem writeRecord_sys (n ty : Nat) (body : List Word) (d : Dev) : (writeRecord n ty body d).sys = d.sys := (congrArg Dev.sys (writeRecord_frame n ty body d).1 :)
@[simp] theorem writeRecord_cpu (n ty : Nat) (body : List Word) (d : Dev) : (writeRecord n ty body d).cpu = d.cpu := (congrArg Dev.cpu (writeRecord_frame n ty body d).1 :)
@[simp] theorem writeRecord_pmu (n ty : Nat) (body : List Word) (d : Dev) : (writeRecord n ty body d).pmu = d.pmu := (congrArg Dev.pmu (writeRecord_frame n ty body d).1 :)
@[simp] theorem writeRecord_cal (n ty : Nat) (body : List Word) (d : Dev) : (writeRecord n ty body d).cal = d.cal := (congrArg Dev.cal (writeRecord_frame n ty body d).1 :)
@[simp] theorem writeRecord_svc (n ty : Nat) (body : List Word) (d : Dev) : (writeRecord n ty body d).svc = d.svc := (congrArg Dev.svc (writeRecord_frame n ty body d).1 :)
@[simp] theorem writeRecord_set0 (n ty : Nat) (body : List Word) (d : Dev) : (writeRecord n ty body d).set0 = d.set0 := (congrArg Dev.set0 (writeRecord_frame n ty body d).1 :)
@[simp] theorem writeRecord_set1 (n ty : Nat) (body : List Word) (d : Dev) : (writeRecord n ty body d).set1 = d.set1 := (congrArg Dev.set1 (writeRecord_frame n ty body d).1 :)
@[simp] theorem writeRecord_sel (n ty : Nat) (body : List Word) (d : Dev) : (writeRecord n ty body d).sel = d.sel := (congrArg Dev.sel (writeRecord_frame n ty body d).1 :)

@[simp] theorem timeRecord_now (cause : Nat) (st : TbState) (e : Int) (d : Dev) : (timeRecord cause st e d).now = d.now := (congrArg Dev.now (timeRecord_frame cause st e d).1 :)
@[simp] theorem timeRecord_free (cause : Nat) (st : TbState) (e : Int) (d : Dev) : (timeRecord cause st e d).free = d.free := (congrArg Dev.free (timeRecord_frame cause st e d).1 :)
@[simp] theorem timeRecord_rdata (cause : Nat) (st : TbState) (e : Int) (d : Dev) : (timeRecord cause st e d).rdata = d.rdata := (congrArg Dev.rdata (timeRecord_frame cause st e d).1 :)
@[simp] theorem timeRecord_tb (cause : Nat) (st : TbState) (e : Int) (d : Dev) : (timeRecord cause st e d).tb = d.tb := (congrArg Dev.tb (timeRecord_frame cause st e d).1 :)
@[simp] theorem timeRecord_uhf (cause : Nat) (st : TbState) (e : Int) (d : Dev) : (timeRecord cause st e d).uhf = d.uhf := (congrArg Dev.uhf (timeRecord_frame cause st e d).1 :)
@[simp] theorem timeRecord_chA (cause : Nat) (st : TbState) (e : Int) (d : Dev) : (timeRecord cause st e d).chA = d.chA := (congrArg Dev.chA (timeRecord_frame cause st e d).1 :)
@[simp] theorem timeRecord_chB (cause : Nat) (st : TbState) (e : Int) (d : Dev) : (timeRecord cause st e d).chB = d.chB := (congrArg Dev.chB (timeRecord_frame cause st e d).1 :)
@[simp] theorem timeRecord_pair (cause : Nat) (st : TbState) (e : Int) (d : Dev) : (timeRecord cause st e d).pair = d.pair := (congrArg Dev.pair (timeRecord_frame cause st e d).1 :)
@[simp] theorem timeRecord_seq (cause : Nat) (st : TbState) (e : Int) (d : Dev) : (timeRecord cause st e d).seq = d.seq := (congrArg Dev.seq (timeRecord_frame cause st e d).1 :)
@[simp] theorem timeRecord_gen2 (cause : Nat) (st : TbState) (e : Int) (d : Dev) : (timeRecord cause st e d).gen2 = d.gen2 := (congrArg Dev.gen2 (timeRecord_frame cause st e d).1 :)
@[simp] theorem timeRecord_acc (cause : Nat) (st : TbState) (e : Int) (d : Dev) : (timeRecord cause st e d).acc = d.acc := (congrArg Dev.acc (timeRecord_frame cause st e d).1 :)
@[simp] theorem timeRecord_comb (cause : Nat) (st : TbState) (e : Int) (d : Dev) : (timeRecord cause st e d).comb = d.comb := (congrArg Dev.comb (timeRecord_frame cause st e d).1 :)
@[simp] theorem timeRecord_dmk (cause : Nat) (st : TbState) (e : Int) (d : Dev) : (timeRecord cause st e d).dmk = d.dmk := (congrArg Dev.dmk (timeRecord_frame cause st e d).1 :)
@[simp] theorem timeRecord_hf (cause : Nat) (st : TbState) (e : Int) (d : Dev) : (timeRecord cause st e d).hf = d.hf := (congrArg Dev.hf (timeRecord_frame cause st e d).1 :)
@[simp] theorem timeRecord_portA (cause : Nat) (st : TbState) (e : Int) (d : Dev) : (timeRecord cause st e d).portA = d.portA := (congrArg Dev.portA (timeRecord_frame cause st e d).1 :)
@[simp] theorem timeRecord_portB (cause : Nat) (st : TbState) (e : Int) (d : Dev) : (timeRecord cause st e d).portB = d.portB := (congrArg Dev.portB (timeRecord_frame cause st e d).1 :)
@[simp] theorem timeRecord_mst (cause : Nat) (st : TbState) (e : Int) (d : Dev) : (timeRecord cause st e d).mst = d.mst := (congrArg Dev.mst (timeRecord_frame cause st e d).1 :)
@[simp] theorem timeRecord_ops (cause : Nat) (st : TbState) (e : Int) (d : Dev) : (timeRecord cause st e d).ops = d.ops := (congrArg Dev.ops (timeRecord_frame cause st e d).1 :)
@[simp] theorem timeRecord_held (cause : Nat) (st : TbState) (e : Int) (d : Dev) : (timeRecord cause st e d).held = d.held := (congrArg Dev.held (timeRecord_frame cause st e d).1 :)
@[simp] theorem timeRecord_opSeq (cause : Nat) (st : TbState) (e : Int) (d : Dev) : (timeRecord cause st e d).opSeq = d.opSeq := (congrArg Dev.opSeq (timeRecord_frame cause st e d).1 :)
@[simp] theorem timeRecord_sys (cause : Nat) (st : TbState) (e : Int) (d : Dev) : (timeRecord cause st e d).sys = d.sys := (congrArg Dev.sys (timeRecord_frame cause st e d).1 :)
@[simp] theorem timeRecord_cpu (cause : Nat) (st : TbState) (e : Int) (d : Dev) : (timeRecord cause st e d).cpu = d.cpu := (congrArg Dev.cpu (timeRecord_frame cause st e d).1 :)
@[simp] theorem timeRecord_pmu (cause : Nat) (st : TbState) (e : Int) (d : Dev) : (timeRecord cause st e d).pmu = d.pmu := (congrArg Dev.pmu (timeRecord_frame cause st e d).1 :)
@[simp] theorem timeRecord_cal (cause : Nat) (st : TbState) (e : Int) (d : Dev) : (timeRecord cause st e d).cal = d.cal := (congrArg Dev.cal (timeRecord_frame cause st e d).1 :)
@[simp] theorem timeRecord_svc (cause : Nat) (st : TbState) (e : Int) (d : Dev) : (timeRecord cause st e d).svc = d.svc := (congrArg Dev.svc (timeRecord_frame cause st e d).1 :)
@[simp] theorem timeRecord_set0 (cause : Nat) (st : TbState) (e : Int) (d : Dev) : (timeRecord cause st e d).set0 = d.set0 := (congrArg Dev.set0 (timeRecord_frame cause st e d).1 :)
@[simp] theorem timeRecord_set1 (cause : Nat) (st : TbState) (e : Int) (d : Dev) : (timeRecord cause st e d).set1 = d.set1 := (congrArg Dev.set1 (timeRecord_frame cause st e d).1 :)
@[simp] theorem timeRecord_sel (cause : Nat) (st : TbState) (e : Int) (d : Dev) : (timeRecord cause st e d).sel = d.sel := (congrArg Dev.sel (timeRecord_frame cause st e d).1 :)

/-- A TIME record leaves every register but those of ring 5. -/
theorem reg_timeRecord (cause : Nat) (st : TbState) (e : Int) (d : Dev) {a : Nat} (h5 : a ≠ ringReg 5 5) (h6 : a ≠ ringReg 5 6) :
    reg (timeRecord cause st e d) a = reg d a := (timeRecord_frame cause st e d).2 a h5 h6

end Sys2Proof.Machine
end

