-- ==== Sys2Proof/Laws/Tick.lean ====
section
/-! SUPPORT. Everything the coming of a tick can do: time, the samples of the sequencer, and the receive chains. -/
namespace Sys2Proof.Machine

/-- Only the receive chains, the register words, the marks of the tick, the calibration and the present time differ. -/
def ChainFrame (d e : Dev) : Prop :=
  e = { d with now := e.now, chA := e.chA, chB := e.chB, regs := e.regs, marks := e.marks, cal := e.cal }

theorem ChainFrame.refl (d : Dev) : ChainFrame d d := rfl

theorem ChainFrame.trans {d e f : Dev} (h : ChainFrame d e) (g : ChainFrame e f) : ChainFrame d f := by
  unfold ChainFrame at *; rw [g, h]

theorem setChain_frame (b : Bool) (c : Chain) (d : Dev) : ChainFrame d (setChain b c d) := by cases b <;> rfl
theorem event_frame (a b : Nat) (d : Dev) : ChainFrame d (event a b d) := rfl
theorem clearBit_frame (a b : Nat) (d : Dev) : ChainFrame d (clearBit a b d) := rfl

theorem calApply_frame (i a b : Nat) (d : Dev) : ChainFrame d (calApply i a b d) := by
  unfold calApply; simp only; split <;> rfl

theorem calApplyChain_frame (ch : Bool) (d : Dev) : ChainFrame d (calApplyChain ch d) := by
  unfold calApplyChain; split <;> exact (calApply_frame _ _ _ _).trans (calApply_frame _ _ _ _)

theorem ncoTake_frame (ch : Bool) (d : Dev) : ChainFrame d (ncoTake ch d) := setChain_frame _ _ _
theorem drcLatch_frame (ch : Bool) (d : Dev) : ChainFrame d (drcLatch ch d) := setChain_frame _ _ _

theorem enterSampling_frame (ch : Bool) (d : Dev) : ChainFrame d (enterSampling ch d) := by
  unfold enterSampling; simp only
  refine .trans (calApplyChain_frame ch d) (.trans ?_ (.trans (setChain_frame ch _ _) (ncoTake_frame ch _)))
  refine .trans ?_ (.trans (clearBit_frame _ _ _) (.trans (clearBit_frame _ _ _) (clearBit_frame _ _ _)))
  split
  · exact event_frame _ _ _
  · exact .refl _

theorem chainStopped_frame (ch : Bool) (d : Dev) : ChainFrame d (chainStopped ch d) := (setChain_frame _ _ _).trans (event_frame _ _ _)

theorem leaveSampling_frame (ch : Bool) (d : Dev) : ChainFrame d (leaveSampling ch d) := by
  unfold leaveSampling; split
  · simp only; split
    · exact (drcLatch_frame ch d).trans ((setChain_frame ch _ _).trans (chainStopped_frame _ _))
    · exact (drcLatch_frame ch d).trans (setChain_frame ch _ _)
  · exact .refl _

theorem chainsFollow_frame (d : Dev) : ChainFrame d (chainsFollow d) := by
  have go : ∀ ch (d : Dev), ChainFrame d (match radioReceives d, (chain d ch).st with
      | true, .idle => if domOn d (if ch then 10 else 9) then enterSampling ch d else d
      | false, .sampling => leaveSampling ch d
      | _, _ => d) := by
    intro ch d; split
    · by_cases h : domOn d (if ch then 10 else 9) = true
      · rw [if_pos h]; exact enterSampling_frame _ _
      · rw [if_neg h]; exact .refl _
    · exact leaveSampling_frame _ _
    · exact .refl _
  exact (go false d).trans (go true _)

theorem chainReady_frame (ch : Bool) (d : Dev) : ChainFrame d (chainReady ch d) := by
  unfold chainReady; simp only; split
  · have h0 : ∀ n : Nat, ChainFrame d { d with now := n } := fun _ => rfl
    split
    · exact (h0 _).trans ((setChain_frame ch _ _).trans ((setChain_frame ch _ _).trans (chainsFollow_frame _)))
    · exact (h0 _).trans ((setChain_frame ch _ _).trans (event_frame _ _ _))
  · exact .refl _

theorem markSpan_frame (t : Nat) (ch : Bool) (d : Dev) : ChainFrame d (markSpan t ch d) := by
  unfold markSpan; split
  · exact setChain_frame _ _ _
  · exact .refl _

theorem chainsTick_frame (t : Nat) (d : Dev) : ChainFrame d (chainsTick t d) := by
  unfold chainsTick; split
  · exact (markSpan_frame t false d).trans ((markSpan_frame t true _).trans ((chainReady_frame false _).trans (chainReady_frame true _)))
  · exact .refl _

@[simp] theorem tick_free (t : Nat) (d : Dev) : (tick t d).free = d.free := by
  have h := chainsTick_frame t d
  exact (congrArg Dev.free h).trans rfl
@[simp] theorem tick_rdata (t : Nat) (d : Dev) : (tick t d).rdata = d.rdata := by
  have h := chainsTick_frame t d
  exact (congrArg Dev.rdata h).trans rfl
@[simp] theorem tick_tb (t : Nat) (d : Dev) : (tick t d).tb = d.tb := by
  have h := chainsTick_frame t d
  exact (congrArg Dev.tb h).trans rfl
@[simp] theorem tick_uhf (t : Nat) (d : Dev) : (tick t d).uhf = d.uhf := by
  have h := chainsTick_frame t d
  exact (congrArg Dev.uhf h).trans rfl
@[simp] theorem tick_pair (t : Nat) (d : Dev) : (tick t d).pair = d.pair := by
  have h := chainsTick_frame t d
  exact (congrArg Dev.pair h).trans rfl
@[simp] theorem tick_gen2 (t : Nat) (d : Dev) : (tick t d).gen2 = d.gen2 := by
  have h := chainsTick_frame t d
  exact (congrArg Dev.gen2 h).trans rfl
@[simp] theorem tick_acc (t : Nat) (d : Dev) : (tick t d).acc = d.acc := by
  have h := chainsTick_frame t d
  exact (congrArg Dev.acc h).trans rfl
@[simp] theorem tick_comb (t : Nat) (d : Dev) : (tick t d).comb = d.comb := by
  have h := chainsTick_frame t d
  exact (congrArg Dev.comb h).trans rfl
@[simp] theorem tick_dmk (t : Nat) (d : Dev) : (tick t d).dmk = d.dmk := by
  have h := chainsTick_frame t d
  exact (congrArg Dev.dmk h).trans rfl
@[simp] theorem tick_hf (t : Nat) (d : Dev) : (tick t d).hf = d.hf := by
  have h := chainsTick_frame t d
  exact (congrArg Dev.hf h).trans rfl
@[simp] theorem tick_portA (t : Nat) (d : Dev) : (tick t d).portA = d.portA := by
  have h := chainsTick_frame t d
  exact (congrArg Dev.portA h).trans rfl
@[simp] theorem tick_portB (t : Nat) (d : Dev) : (tick t d).portB = d.portB := by
  have h := chainsTick_frame t d
  exact (congrArg Dev.portB h).trans rfl
@[simp] theorem tick_mst (t : Nat) (d : Dev) : (tick t d).mst = d.mst := by
  have h := chainsTick_frame t d
  exact (congrArg Dev.mst h).trans rfl
@[simp] theorem tick_rings (t : Nat) (d : Dev) : (tick t d).rings = d.rings := by
  have h := chainsTick_frame t d
  exact (congrArg Dev.rings h).trans rfl
@[simp] theorem tick_ops (t : Nat) (d : Dev) : (tick t d).ops = d.ops := by
  have h := chainsTick_frame t d
  exact (congrArg Dev.ops h).trans rfl
@[simp] theorem tick_held (t : Nat) (d : Dev) : (tick t d).held = d.held := by
  have h := chainsTick_frame t d
  exact (congrArg Dev.held h).trans rfl
@[simp] theorem tick_opSeq (t : Nat) (d : Dev) : (tick t d).opSeq = d.opSeq := by
  have h := chainsTick_frame t d
  exact (congrArg Dev.opSeq h).trans rfl
@[simp] theorem tick_sys (t : Nat) (d : Dev) : (tick t d).sys = d.sys := by
  have h := chainsTick_frame t d
  exact (congrArg Dev.sys h).trans rfl
@[simp] theorem tick_cpu (t : Nat) (d : Dev) : (tick t d).cpu = d.cpu := by
  have h := chainsTick_frame t d
  exact (congrArg Dev.cpu h).trans rfl
@[simp] theorem tick_pmu (t : Nat) (d : Dev) : (tick t d).pmu = d.pmu := by
  have h := chainsTick_frame t d
  exact (congrArg Dev.pmu h).trans rfl
@[simp] theorem tick_svc (t : Nat) (d : Dev) : (tick t d).svc = d.svc := by
  have h := chainsTick_frame t d
  exact (congrArg Dev.svc h).trans rfl
@[simp] theorem tick_set0 (t : Nat) (d : Dev) : (tick t d).set0 = d.set0 := by
  have h := chainsTick_frame t d
  exact (congrArg Dev.set0 h).trans rfl
@[simp] theorem tick_set1 (t : Nat) (d : Dev) : (tick t d).set1 = d.set1 := by
  have h := chainsTick_frame t d
  exact (congrArg Dev.set1 h).trans rfl
@[simp] theorem tick_sel (t : Nat) (d : Dev) : (tick t d).sel = d.sel := by
  have h := chainsTick_frame t d
  exact (congrArg Dev.sel h).trans rfl

@[simp] theorem dom_tick (t : Nat) (d : Dev) (n : Nat) : dom (tick t d) n = dom d n := by simp [dom]
@[simp] theorem coreDom_tick (t : Nat) (d : Dev) : coreDom (tick t d) = coreDom d := by simp [coreDom]
@[simp] theorem fenced_tick (t : Nat) (d : Dev) (b : Nat) : fenced (tick t d) b = fenced d b := by simp [fenced]
@[simp] theorem outOfService_tick (t : Nat) (d : Dev) (b : Nat) : outOfService (tick t d) b = outOfService d b := by simp [outOfService]

/-- At its own time nothing comes: the tick changes nothing but time itself and the sequencer's samples. -/
theorem tick_now_of_le {t : Nat} {d : Dev} (h : t ≤ d.now) : tick t d = d := by
  have h1 : ¬ d.now < t := by omega
  simp [tick, chainsTick, h1, Nat.max_eq_left h]

end Sys2Proof.Machine
end

