-- ==== Sys2Proof/Laws/Registers.lean ====
section
/-! SUPPORT. What an access of a register does when nothing stands in its way, for the rows of every bank. -/
namespace Sys2Proof.Machine

@[simp] theorem bankDomain_tick (t : Nat) (d : Dev) (a : Nat) : bankDomain (tick t d) a = bankDomain d a := by simp [bankDomain]
@[simp] theorem domPower_tick (t : Nat) (d : Dev) (n : Nat) : domPower (tick t d) n = domPower d n := by simp [domPower]

/-- With no host write of the mailbox in progress, bringing it up to date changes nothing. -/
theorem hostRun_none {s : State} (h : s.tagm.hostW = none) : hostRun s = s := by simp [hostRun, hostRunAt, h]

/-- A read of a register of a bank that is ON: the tick comes, and the reader gets the register's word. -/
theorem access_read {t : Nat} {r : Reader} {sh : Bool} {a : Nat} {s : State} (h : s.tagm.hostW = none)
    (hd : regDefined a = true) (ho : domPower s.dev (bankDomain s.dev a) = .on) :
    regAccess t r sh a none s =
      (let p := readOn r sh a { s with dev := tick t s.dev }; { p.1 with dev := { p.1.dev with rdata := p.2 } }) := by
  have ho' : domPower (tick t s.dev) (bankDomain (tick t s.dev) a) = .on := by simpa using ho
  rw [regAccess, hostRun_none (by exact h)]
  simp only [readReg, hd, ho', if_true]

/-- A write of a register of a bank that is ON, by a reader that may write it: the tick comes, and the write acts. -/
theorem access_write {t : Nat} {r : Reader} {sh : Bool} {a : Nat} {v : Word} {s : State} (h : s.tagm.hostW = none)
    (hd : regDefined a = true) (hr : r = .applet → appletBarred a = false)
    (ho : domPower s.dev (bankDomain s.dev a) = .on) :
    regAccess t r sh a (some v) s = (writeOn r sh a v { s with dev := tick t s.dev }).1 := by
  have ho' : domPower (tick t s.dev) (bankDomain (tick t s.dev) a) = .on := by simpa using ho
  rw [regAccess, hostRun_none (by exact h)]
  have : ¬ (regDefined a = false ∨ (r = .applet ∧ appletBarred a = true)) := by
    rw [hd]; rintro (h | ⟨h1, h2⟩)
    · simp at h
    · rw [hr h1] at h2; simp at h2
  simp only [writeReg, ho', if_neg this]

end Sys2Proof.Machine
end

