-- ==== Sys2Proof/Laws/Replies.lean ====
section
/-! SUPPORT. What a record placed in a ring with room is, and how a short command ends. -/
namespace Sys2Proof

open Sys2Proof.Machine

theorem ring_setRing_ne {n m : Nat} (r : Ring) (d : Dev) (h : m ≠ n) : ring (setRing n r d) m = ring d m := by
  simp [ring, setRing, nth_upd, h]
theorem ring_event (a b n : Nat) (d : Dev) : ring (event a b d) n = ring d n := rfl

theorem recPlace_ops (n ty : Nat) (body : List Word) (g : Bool) (d : Dev) (l : List Op) :
    recPlace n ty body g { d with ops := l } = { recPlace n ty body g d with ops := l } := by
  let wm := fld (reg d (ringReg n 4)) 16 0
  by_cases hc : wm ≠ 0 ∧ wm ≤ (ring d n).used + (recHeader ty (body.length + 1) (ring d n).nseq :: body).length ∧ (ring d n).used < wm
  · have e : recPlace n ty body g d = _ := if_pos hc
    rw [e]
    exact if_pos hc
  · have e : recPlace n ty body g d = _ := if_neg hc
    rw [e]
    exact if_neg hc

/-- A record placed in a report ring: R349 and R355 in one lemma. -/
theorem recPlace_with {d : Dev} {n ty : Nat} {body : List Word} {g : Bool} (h : 4 ≤ n) :
    WithRecord d (recPlace n ty body g d) n ty body := by
  have hn : ¬ n < 4 := by omega
  have hf := recPlace_frame n ty body g d
  refine ⟨?_, ?_, ?_, ?_, ?_, hf.1⟩
  · simp only [recPlace, ringPlace, recHeader]; split <;> simp [ring_setRing_self, ring_event]
  · simp only [recPlace, ringPlace, if_neg hn]; split <;> simp [ring_setRing_self, ring_event]
  · intro m hm; simp only [recPlace, ringPlace]; split <;> simp [ring_setRing_ne, ring_event, hm]
  · simp only [recPlace, ringPlace]; split <;> simp [reg_event, bit, putB]
  · intro a ha; simp only [recPlace, ringPlace]; split <;> simp [reg_event_ne, ha]
theorem gapFlush_none {d : Dev} {n : Nat} (h : (ring d n).pendGap = 0) : gapFlush n d = d := by simp [gapFlush, h]
/-- With room and nothing held under the tag a held record is placed at once. -/
theorem writeHeld_with {d : Dev} {tag n ty : Nat} {body : List Word} {fin : Bool} (hr : RoomFor d n body.length)
    (hh : hasHeld d tag = false) : writeHeld tag n ty body fin d = recPlace n ty body false d := by
  obtain ⟨h1, h2, h3⟩ := hr
  have hc : body.length + 3 ≤ (ring d n).cap := Nat.le_trans h3 (Nat.sub_le _ _)
  have ha : d.held.all (fun h => h.tag ≠ tag) = true := by
    simp only [hasHeld, List.any_eq_false] at hh
    simp only [List.all_eq_true]; intro x hx; simpa using hh x hx
  simp only [writeHeld, h1, hc, and_self, if_true, gapFlush_none h2, recFits, h2]
  rw [if_pos]
  simp only [ha, Bool.and_true, Bool.true_and, decide_eq_true_eq, beq_self_eq_true]
  omega

theorem filter_tag {tag : Nat} (l : List Op) (h : l.find? (fun o => o.tag = tag) = none) : l.filter (fun o => o.tag ≠ tag) = l := by
  rw [List.filter_eq_self]; intro a ha
  simpa using List.find?_eq_none.1 h a ha

theorem replyBody_length (d : Dev) (status : Nat) (final : Bool) (tag opcode : Nat) (progress : Word) (st : OpState) (cring : Nat)
    (res : List Word) : (replyBody d status final tag opcode progress st cring res).length = 4 + res.length := by
  simp [replyBody]; omega

/-- A final REPLY with room for it, whatever operations are in use. -/
theorem replyOp_with {d : Dev} {o : Op} {status : Nat} {st : OpState} {res : List Word} {l : List Op}
    (hroom : RoomFor d o.rring (4 + res.length)) (hh : hasHeld d o.tag = false) :
    replyOp o status true st res { d with ops := l } =
      { recPlace o.rring 0x0001 (replyBody d status true o.tag o.opcode o.progress st o.cring res) false d with ops := l } := by
  have hroom' : RoomFor { d with ops := l } o.rring (replyBody d status true o.tag o.opcode o.progress st o.cring res).length := by
    rw [replyBody_length]; exact hroom
  have hw := writeHeld_with (tag := o.tag) (ty := 1) (fin := true) hroom' hh
  exact hw.trans (recPlace_ops _ _ _ _ _ _)

/-- A short command's end: its final REPLY in its ring, its tag free. -/
theorem endOp_short {d : Dev} {o : Op} {status : Nat} {st : OpState} {res : List Word} (hf : TagFree d o.tag) (he : o.ended = false)
    (hx : o.opcode ≠ 0x409) (ha : isAccess o.opcode = false) (hroom : RoomFor d o.rring (4 + res.length)) :
    endOp o.tag status st res { d with ops := d.ops ++ [o] } =
      recPlace o.rring 0x0001 (replyBody d status true o.tag o.opcode o.progress st o.cring res) false d := by
  obtain ⟨h1, h2, h3, h4, h5⟩ := hf
  have hfind : findOp { d with ops := d.ops ++ [o] } o.tag = some o := by
    simp only [findOp] at h1 ⊢
    rw [List.find?_append, h1]; simp
  have hrep := replyOp_with (o := o) (status := status) (st := st) (l := d.ops ++ [o]) hroom h2
  have hfr := (recPlace_frame o.rring 0x0001 (replyBody d status true o.tag o.opcode o.progress st o.cring res) false d).1
  have hops : (recPlace o.rring 0x0001 (replyBody d status true o.tag o.opcode o.progress st o.cring res) false d).ops = d.ops := by rw [hfr]
  have c1 := congrArg Dev.cal hfr
  have c2 := congrArg Dev.svc hfr
  have c3 := congrArg Dev.held hfr
  have c4 := congrArg Dev.acc hfr
  simp only at c1 c2 c3 c4
  have hh : d.held.any (fun h => decide (h.tag = o.tag)) = false := h2
  clear hfr
  generalize recPlace o.rring 0x0001 (replyBody d status true o.tag o.opcode o.progress st o.cring res) false d = e at *
  simp only [endOp, hfind, he, hx, accessRecord, ha, hrep, Bool.false_eq_true, if_false, false_and, c1, c2, c3, c4, h3, h4, h5, hasHeld, hh,
    List.filter_append, filter_tag d.ops h1, List.filter_cons, List.filter_nil, ne_eq, not_true_eq_false, decide_false, List.append_nil]
  cases e; simp_all

end Sys2Proof
end

