-- ==== Sys2Proof/Laws/Tables.lean ====
section
/-! SUPPORT. The twill tables firmware builds: their steps rise, so that writing one keeps the canonical form of a set's table. -/
namespace Sys2Proof.Machine

/-- Keys rise strictly from `a` on and lie below `b`. -/
def Rises (a b : Nat) (l : CMap α) : Prop := CMap.sortedFrom a l = true ∧ ∀ e ∈ l, e.1 < b

theorem sortedFrom_append {l r : CMap α} {a b : Nat} (hl : Rises a b l) (hr : CMap.sortedFrom b r = true) (hab : a ≤ b) :
    CMap.sortedFrom a (l ++ r) = true := by
  obtain ⟨hs, hlt⟩ := hl
  induction l generalizing a with
  | nil => exact CMap.sortedFrom_mono hab hr
  | cons e l ih =>
    simp only [CMap.sortedFrom, Bool.and_eq_true, decide_eq_true_eq, List.cons_append] at hs ⊢
    have he := hlt e (by simp)
    exact ⟨hs.1, ih (by omega) hs.2 (fun x hx => hlt x (by simp [hx]))⟩

theorem Rises.append {l r : CMap α} {a b c : Nat} (hl : Rises a b l) (hr : Rises b c r) (hab : a ≤ b) (hbc : b ≤ c) :
    Rises a c (l ++ r) := by
  refine ⟨sortedFrom_append hl hr.1 hab, fun e he => ?_⟩
  rcases List.mem_append.1 he with h | h
  · exact Nat.lt_of_lt_of_le (hl.2 e h) hbc
  · exact hr.2 e h

theorem Rises.mono {l : CMap α} {a b a' b' : Nat} (h : Rises a b l) (ha : a' ≤ a) (hb : b ≤ b') : Rises a' b' l :=
  ⟨CMap.sortedFrom_mono ha h.1, fun e he => Nat.lt_of_lt_of_le (h.2 e he) hb⟩

theorem Rises.filter {l : CMap α} {a b : Nat} (p : Nat × α → Bool) (h : Rises a b l) : Rises a b (l.filter p) :=
  ⟨CMap.sortedFrom_filter p h.1, fun e he => h.2 e (List.mem_filter.1 he).1⟩

/-- Steps at successive indices rise. -/
theorem rises_stepsFrom {ss : List StepF} {i b : Nat} (h : i + ss.length ≤ b) : Rises i b (stepsFrom i ss) := by
  have go : ∀ (ss : List StepF) (k : Nat), Rises (i + k) (i + k + ss.length) ((ss.zipIdx k).map fun p => (i + p.2, p.1.word)) := by
    intro ss
    induction ss with
    | nil => intro k; exact ⟨rfl, by simp⟩
    | cons s ss ih =>
      intro k
      have := ih (k + 1)
      refine ⟨?_, ?_⟩
      · simp only [List.zipIdx_cons, List.map_cons, CMap.sortedFrom, Nat.le_refl, decide_true, Bool.true_and]
        simpa [Nat.add_assoc] using this.1
      · intro e he
        simp only [List.zipIdx_cons, List.map_cons, List.mem_cons] at he
        rcases he with rfl | he
        · simp
        · have := this.2 e he; simp only [List.length_cons]; omega
  exact (go ss 0).mono (by simp) (by simpa using h)

/-- A filter of what rises, cut off from below, rises from there on. -/
theorem sortedFrom_above {m : CMap α} {a k : Nat} (p : Nat × α → Bool) (hp : ∀ e, p e = true → k ≤ e.1)
    (h : CMap.sortedFrom a m = true) : CMap.sortedFrom k (m.filter p) = true := by
  induction m generalizing a with
  | nil => rfl
  | cons e m ih =>
    simp only [CMap.sortedFrom, Bool.and_eq_true, decide_eq_true_eq] at h
    rw [List.filter_cons]
    split
    · next hpe =>
      have := CMap.sortedFrom_filter p h.2
      simp [CMap.sortedFrom, hp e hpe, this]
    · exact ih h.2

/-- Writing a part of a table, whose steps rise, keeps the canonical form. -/
theorem wf_tabWrite {lo hi : Nat} {ss : List (Nat × DWord)} {m : CMap DWord} (hlh : lo ≤ hi) (hss : CMap.sortedFrom 0 ss = true)
    (h : CMap.wf tabDefault m = true) : CMap.wf tabDefault (tabWrite lo hi ss m) = true := by
  simp only [CMap.wf, Bool.and_eq_true, List.all_eq_true, decide_eq_true_eq] at h ⊢
  refine ⟨?_, fun e he => ?_⟩
  · have h1 : Rises 0 lo (m.filter fun e => decide (e.1 < lo)) :=
      ⟨CMap.sortedFrom_filter _ h.1, fun e he => by simpa using (List.mem_filter.1 he).2⟩
    have h2 : Rises lo hi (ss.filter fun e => decide (lo ≤ e.1 ∧ e.1 < hi) && e.2 != tabDefault e.1) :=
      ⟨sortedFrom_above _ (fun e he => by simp at he; exact he.1.1) hss, fun e he => by
        have := (List.mem_filter.1 he).2; simp at this; exact this.1.2⟩
    have h12 := h1.append h2 (Nat.zero_le _) hlh
    have h3 : CMap.sortedFrom hi (m.filter fun e => decide (hi ≤ e.1)) = true :=
      sortedFrom_above _ (fun e he => by simpa using he) h.1
    exact sortedFrom_append h12 h3 (Nat.zero_le _)
  · simp only [tabWrite, List.mem_append, List.mem_filter] at he
    rcases he with (⟨he, -⟩ | ⟨-, hp⟩) | ⟨he, -⟩
    · exact h.2 e he
    · simp only [Bool.and_eq_true, bne_iff_ne] at hp; exact hp.2
    · exact h.2 e he

/-! The tables of firmware -/

theorem selectSteps_length (d : Dev) (r : Nat) : (selectSteps d r).length ≤ 16 := by
  have h : ∀ l : List Nat, (l.flatMap fun i => [((txf (8 + i) true 0).after (ticksUp (cfg d Reg.GEN2_LINK) (t4 (cfg d Reg.GEN2_LINK)))).on 0x03 r,
      txEndStep]).length = 2 * l.length := by
    intro l; induction l with
    | nil => rfl
    | cons a l ih => simp only [List.flatMap_cons, List.length_append, ih, List.length_cons, List.length_nil]; omega
  have := List.length_filter_le (fun i => bit (cfg d Reg.GEN2_SEL_CFG) i) (List.range 8)
  simp only [List.length_range] at this
  simp only [selectSteps]
  rw [h]; omega

theorem windowSteps_length (d : Dev) (base : Nat) (hop sel : Bool) : (windowSteps d base hop sel).length ≤ 20 := by
  have := selectSteps_length d base
  cases hop <;> cases sel <;> simp [windowSteps] <;> omega

theorem querySteps_length (d : Dev) : (querySteps d).length ≤ 22 := by
  have := selectSteps_length d fwNext
  simp only [querySteps]
  split <;> simp <;> omega

/-- The inventory table lies in its range, in rising order. -/
theorem rises_inventory (d : Dev) (hop short : Bool) : Rises 0x100 0x200 (inventorySteps d hop short) := by
  have w := windowSteps_length d
  have q := querySteps_length d
  have heads : Rises 0x180 0x200 ([1, 2, 3, 4].flatMap fun e => stepsFrom (fwHead e) (headSteps d e)) := by
    simp only [List.flatMap_cons, List.flatMap_nil, List.append_nil]
    have h : ∀ e, (headSteps d e).length = 25 := fun e => by simp [headSteps]
    have r : ∀ e, Rises (fwHead e) (fwHead e + 25) (stepsFrom (fwHead e) (headSteps d e)) := fun e => rises_stepsFrom (Nat.le_of_eq (by rw [h]))
    exact ((r 1).mono (b' := 0x1A0) (by decide) (by decide)).append
      (((r 2).mono (b' := 0x1C0) (by decide) (by decide)).append
        (((r 3).mono (b' := 0x1E0) (by decide) (by decide)).append ((r 4).mono (b' := 0x200) (by decide) (by decide))
          (by decide) (by decide)) (by decide) (by decide)) (by decide) (by decide)
  simp only [inventorySteps]
  refine Rises.append (b := 0x180) ?_ heads (by decide) (by decide)
  refine Rises.append (b := fwRoundEnd + 7) ?_ (rises_stepsFrom (by simp [fwRoundEnd])) (by decide) (by decide)
  refine Rises.append (b := fwRoundEnd) ?_ (rises_stepsFrom (by simp [fwRoundEnd])) (by decide) (by decide)
  refine Rises.append (b := fwNak) ?_ (rises_stepsFrom (by simp [fwNak, fwRoundEnd])) (by decide) (by decide)
  refine Rises.append (b := fwAck) ?_ (rises_stepsFrom (by simp [fwAck, fwNak])) (by decide) (by decide)
  refine Rises.append (b := fwReply) ?_ (rises_stepsFrom (by simp [fwReply, fwAck])) (by decide) (by decide)
  refine Rises.append (b := fwQuery) ?_ (rises_stepsFrom (by simp only [fwQuery, fwReply]; omega)) (by decide) (by decide)
  refine Rises.append (b := fwNext) ?_ (rises_stepsFrom ?_) (by decide) (by decide)
  · exact rises_stepsFrom (by have := w fwFirst hop (decide (selectWhen d ≤ 1)); simp only [fwFirst, fwNext] at this ⊢; omega)
  · have := w fwNext hop (decide (selectWhen d = 1)); simp only [fwNext, fwQuery] at this ⊢; omega

theorem rises_loop (pair : Bool) : Rises 0x200 0x202 (loopSteps pair) := rises_stepsFrom (by simp [fwLoop])
theorem rises_reopen (desc : Nat) : Rises 0x210 0x300 (reopenSteps desc) := rises_stepsFrom (by simp [fwReopen])

/-- The table of a LISTEN of at most 64 entries lies in its range, in rising order. -/
theorem rises_listen {es : List Nat} (dwell : Nat) (h : es.length ≤ 64) : Rises 0x400 0x600 (listenSteps es dwell) := by
  have hl : ∀ (f : Nat → List StepF), (∀ e, (f e).length = 7) → (es.flatMap f).length = 7 * es.length := by
    intro f hf; clear h; induction es with
    | nil => rfl
    | cons a l ih => simp only [List.flatMap_cons, List.length_append, ih, hf, List.length_cons]; omega
  simp only [listenSteps]
  refine rises_stepsFrom ?_
  rw [List.length_append, List.length_append, hl _ (fun e => rfl)]
  simp only [List.length_cons, List.length_nil]; omega

theorem commandSteps_length (d : Dev) (o : Op) (i k : Nat) (exs : Bool) : (commandSteps d o i k exs).length ≤ 13 := by
  simp only [commandSteps]
  split
  · simp
  · split
    · simp
    · split <;> simp [readSteps]

/-- The table of an access lies in its range, in rising order. -/
theorem rises_access (d : Dev) (o : Op) : Rises 0x300 0x400 (accessSteps d o) := by
  have hb : (blockSteps d o).length ≤ 18 := by
    have := commandSteps_length d o
    simp only [blockSteps]
    split
    · have := this d.acc.block (fwBody + 5) false; simp; omega
    · simp [readSteps]
    · simp
    · have := this d.acc.block fwBody (!(decide (o.opcode = 0x405) && decide (d.acc.block ≠ 0))); omega
  simp only [accessSteps]
  refine Rises.append (b := fwBlockDone) ?_ (rises_stepsFrom (by simp [fwBlockDone])) (by decide) (by decide)
  refine Rises.append (b := fwAcquired) ?_ (rises_stepsFrom (by simp [fwAcquired, fwBlockDone])) (by decide) (by decide)
  refine Rises.append (b := fwRefused) ?_ (rises_stepsFrom (by simp [fwRefused, fwAcquired])) (by decide) (by decide)
  refine Rises.append (b := fwGiveUp) ?_ (rises_stepsFrom (by simp [fwGiveUp, fwRefused])) (by decide) (by decide)
  refine Rises.append (b := fwExpiry) ?_ (rises_stepsFrom (by simp [fwExpiry, fwGiveUp])) (by decide) (by decide)
  refine Rises.append (b := fwPair) ?_ (rises_stepsFrom (by simp [fwPair, fwExpiry, pairSteps])) (by decide) (by decide)
  refine Rises.append (b := fwBody) ?_ (rises_stepsFrom (by simp only [fwBody, fwPair]; omega)) (by decide) (by decide)
  refine Rises.append (b := fwHalf) ?_ (rises_stepsFrom (by simp [fwHalf, fwBody])) (by decide) (by decide)
  refine Rises.append (b := fwBlock) ?_ (rises_stepsFrom (by simp [fwBlock, fwHalf])) (by decide) (by decide)
  exact rises_stepsFrom (by simp [fwBlock, acquireSteps])

theorem hfSteps_length (d : Dev) (o : Op) : (hfSteps d o).length ≤ 0x38 := by
  have w : ∀ b t, (hfWaitSteps b t).length ≤ 3 := fun b t => by simp only [hfWaitSteps]; split <;> simp
  have h : ∀ (head send mid wait ends : List StepF), head.length ≤ 2 → send.length ≤ 2 → mid.length ≤ 1 → wait.length ≤ 3 →
      ends.length ≤ 3 → (head ++ send ++ mid ++ wait ++ ends).length ≤ 0x38 := by
    intros; simp only [List.length_append]; omega
  simp only [hfSteps]
  split
  · simp
  · simp
  · simp
  · refine h _ _ _ _ _ ?_ ?_ ?_ ?_ ?_
    · split
      · simp
      · split
        · simp
        · split <;> simp
    · split <;> simp
    · split <;> simp
    · split
      · simp
      · exact w _ _
    · simp

/-- The table of thread H lies in its range, in rising order. -/
theorem rises_hf (d : Dev) (o : Op) : Rises 0x600 0x800 (hfTable d o) := by
  have hs := hfSteps_length d o
  have steps : ∀ a, Rises (hfBase a) (hfPoll a) (stepsFrom (hfBase a) (hfSteps d o)) := fun a =>
    rises_stepsFrom (by simp only [hfPoll]; omega)
  have one : ∀ (a : Bool) (s : StepF), Rises (hfPoll a) (hfPoll a + 1) (stepsFrom (hfPoll a) [s]) := fun a s => rises_stepsFrom (by simp)
  simp only [hfTable]
  generalize d.hf.ac.area = a
  cases a
  · exact (((steps false).append (one false _) (by decide) (by decide)).append
      ((one true _).mono (a' := hfPoll false + 1) (b' := 0x800) (by decide) (by decide)) (by decide) (by decide)).mono
      (by decide) (Nat.le_refl _)
  · have l := ((one false (nop.to (hfBase true))).append ((steps true).mono (a' := hfPoll false + 1) (by decide) (Nat.le_refl _))
      (by decide) (by decide)).append (one true ((delayStep (us 10)).to (hfPoll true))) (by decide) (by decide)
    exact l.mono (by decide) (by decide)

/-- Firmware's table writes keep the canonical form of the table of a set. -/
theorem wf_fwTable {lo hi : Nat} {ss : List (Nat × DWord)} {d : Dev} (hlh : lo ≤ hi) (hss : CMap.sortedFrom 0 ss = true)
    (h0 : CMap.wf tabDefault d.set0.tab = true) (h1 : CMap.wf tabDefault d.set1.tab = true) :
    CMap.wf tabDefault (fwTable lo hi ss d).set0.tab = true ∧ CMap.wf tabDefault (fwTable lo hi ss d).set1.tab = true := by
  have w0 := wf_tabWrite hlh hss h0
  have w1 := wf_tabWrite hlh hss h1
  by_cases h : d.sel = true <;> by_cases k : fwHolds d = true <;>
    simp [fwTable, fwSets, setActive, setShadow, activeSet, shadowSet, h, k, w0, w1, h0, h1]

end Sys2Proof.Machine
end

