-- ==== Sys2Proof/Laws/Tag.lean ====
section
/-! SUPPORT. What a request of the field does to the commissioning tag when it reaches the tag and the tag answers it. -/
namespace Sys2Proof.Machine

/-- A frame that reaches the tag and that it acts on: the tag has heard it, and the request takes its effect. -/
theorem tagCommand_acts {f : TagFrame} {acts : Tagm → Bool} {eff : State → State} {s : State} (h : FrameReaches s f)
    (ha : acts { s.tagm with reply := [], vh := min 4095 f.vh5 } = true)
    (he : (eff { s with dev := tick f.t s.dev, tagm := heardBy s.tagm f }).tagm.hostW = none) :
    tagCommand f acts eff s = eff { s with dev := tick f.t s.dev, tagm := heardBy s.tagm f } := by
  obtain ⟨h1, h2, h3, h4, h5⟩ := h
  have hs : s.tagm.sess = true := by simp [frameHeard] at h1; exact h1.1.1.1.1.1
  have h3' : outOfService (tick f.t s.dev) 0x11 = false := by simpa using h3
  have h1' : ∀ v, frameHeard { s.tagm with reply := [], vh := v } f = true := fun v => h1
  have e : (if s.tagm.sess = true then min 4095 f.vh5 else s.tagm.vh) = min 4095 f.vh5 := if_pos hs
  have c : (frameHeard s.tagm f && !outOfService (tick f.t s.dev) 0x11 && acts { s.tagm with reply := [], vh := min 4095 f.vh5 }) = true := by
    rw [h1, h3', ha]; rfl
  have g : frameTake f { s with dev := tick f.t s.dev, tagm := { s.tagm with reply := [], vh := min 4095 f.vh5 } } =
      { s with dev := tick f.t s.dev, tagm := heardBy s.tagm f } := by
    simp [frameTake, heardBy, h2]
  rw [tagCommand, hostRun_none (by exact h2), e]
  refine (if_pos c).trans ?_
  rw [g, hostRun_none he]

end Sys2Proof.Machine
end

