-- ==== Sys2Proof/WellFormed.lean ====
section
/-! DEFINITION. When the operands of a command lie in the ranges the manual gives them. The meanings are total: an operand
outside its range is no command of the manual, and the statements ask for well-formed ones where it matters. -/
namespace Sys2Proof

/-- A command packet as R330 lays it out: tags of seven bits, command rings 0 to 3, reply rings 4 to 31. -/
def Packet.wf (p : Packet) : Bool := decide (p.cring < 4 ∧ p.tag < 128 ∧ 4 ≤ p.rring ∧ p.rring < 32 ∧ p.block.length ≤ 255)

/-- Rail readings of a request to the tag: `TAGM_STATUS.VH` has twelve bits. -/
def TagFrame.wf (f : TagFrame) : Bool :=
  decide (f.vh1 < 4096 ∧ f.vh2 < 4096 ∧ f.vh3 < 4096 ∧ f.vh4 < 4096 ∧ f.vh5 < 4096)

/-- A signed number of `w` bits. -/
def inWidth (w : Nat) (x : Int) : Bool := decide (-(2 : Int) ^ (w - 1) ≤ x ∧ x < (2 : Int) ^ (w - 1))

/-- The input of a stage has the width of R104, and the CIC and the resampler as many samples as they hang on (R103, R121). -/
def StageIn.wf : StageIn → Bool
  | .adc _ _ => true
  | .cic x => decide (x.length = 61) && x.all (inWidth 16)
  | .residual _ x => inWidth 18 x
  | .halfBand _ x => x.all (inWidth 18)
  | .channel x => x.all (inWidth 18)
  | .resample frac x => decide (frac < 65536 ∧ x.length = 9) && x.all (inWidth 18)

/-- Samples of 18 bits. -/
def samplesWf (l : List (Int × Int)) : Bool := l.all fun p => inWidth 18 p.1 && inWidth 18 p.2

/-- Registers of the 16-bit forms (R379): c0 to c7 and k0 to k7, codes 8 to 23. -/
def shortReg (r : BitVec 5) : Bool := decide (8 ≤ r.toNat ∧ r.toNat < 24)

/-- A signed six-bit immediate of the 16-bit forms, and the same times 4 (R379). -/
def shortImm (i : BitVec 14) : Bool := decide (i.toNat < 32 ∨ 16352 ≤ i.toNat)
def shortOffset (i : BitVec 14) : Bool := decide (i.toNat % 4 = 0 ∧ (i.toNat < 128 ∨ 16256 ≤ i.toNat))

/-- The operands are in range. -/
def wellFormed (i : Instr) : Bool :=
  match i with
  | .zcEdge _ _ _ _ => true
  | .zcPrimaryWaitExpiry _ => true
  | .zcDisagree _ => true
  | .missedCrossing _ => true
  | .selfStart _ _ => true
  | .cycleStart _ _ => true
  | .slotBoundary _ b meas => decide (b < 96) && meas.all (fun m => decide (m < 1024))
  | .planSyncRequest _ _ => true
  | .noiseClr _ _ => true
  | .planDataAccess _ _ _ _ => true
  | .enterFree _ => true
  | .slewDone _ => true
  | .stepApply _ => true
  | .stepHoldEnd _ => true
  | .oscSwitch _ _ => true
  | .chanDataWrite _ _ _ _ => true
  | .dwellExpiry _ => true
  | .paLim _ _ => true
  | .reflDetect _ _ fwd ref cw => decide (fwd < 4096 ∧ ref < 4096) && cw.all (fun x => decide (x < 4096))
  | .radioTransitionDone _ _ _ => true
  | .windowEndRampdown _ => true
  | .lockLost _ => true
  | .lockAcquired _ => true
  | .lockHoldExpiry _ => true
  | .calResume _ => true
  | .cancConverged _ _ _ _ _ => true
  | .cancTimeout _ _ => true
  | .cancDataAccess _ _ _ => true
  | .seedClear _ _ => true
  | .coexReqLead _ => true
  | .coexGrant _ => true
  | .coexHoldExpiry _ => true
  | .coexWithdraw _ => true
  | .blankInput _ _ _ => true
  | .blankExtExpiry _ _ => true
  | .coefDataAccess _ _ _ _ => true
  | .chainRun _ _ _ => true
  | .chainStop _ _ _ => true
  | .drcLearnEnd _ _ l => samplesWf l
  | .detectorBlock _ _ b => samplesWf b.samples && b.stages.all StageIn.wf
  | .frameSync _ _ snr blf => decide (snr < 256 ∧ blf < 1048576)
  | .diversityDecide _ => true
  | .frameDecoded _ _ bits stages => decide (bits.length < 4096) && stages.all StageIn.wf
  | .sepDone _ res => decide (res.vecs.length ≤ 3 ∧ res.bits.length = res.vecs.length)
  | .tstart _ _ _ => true
  | .thalt _ _ _ => true
  | .tpatch _ _ _ => true
  | .swflag _ _ _ => true
  | .abreq _ _ _ => true
  | .tresume _ _ _ => true
  | .condrd _ _ _ => true
  | .logpop _ _ _ => true
  | .doorbell _ _ _ => true
  | .stepFetch _ th _ => decide (th < 4)
  | .waitTimeExpiry _ th => decide (th < 4)
  | .waitFlagTrue _ th => decide (th < 4)
  | .waitFlagTimeout _ th => decide (th < 4)
  | .waitSlot _ th => decide (th < 4)
  | .seqNop _ th => decide (th < 4)
  | .seqHalt _ th => decide (th < 4)
  | .seqCall _ th => decide (th < 4)
  | .seqRet _ th => decide (th < 4)
  | .loop _ th => decide (th < 4)
  | .setcnt _ th => decide (th < 4)
  | .anchor _ th => decide (th < 4)
  | .signal _ th => decide (th < 4)
  | .seqPost _ th => decide (th < 4)
  | .radio _ th => decide (th < 4)
  | .hop _ th => decide (th < 4)
  | .aerial _ th => decide (th < 4)
  | .txf _ th => decide (th < 4)
  | .pwradj _ th => decide (th < 4)
  | .rxopen _ th => decide (th < 4)
  | .seqRxclose _ th => decide (th < 4)
  | .hffield _ th extLevel => decide (th < 4 ∧ extLevel < 1024)
  | .hftx _ th => decide (th < 4)
  | .hfrx _ th => decide (th < 4)
  | .hfclose _ th => decide (th < 4)
  | .hfping _ th ping => decide (th < 4 ∧ ping.ext < 1024)
  | .gatePass _ th => decide (th < 4)
  | .txFrameEnd _ => true
  | .abortTakeHold _ th => decide (th < 4)
  | .turnCommit _ => true
  | .turnAbandon _ => true
  | .tabDataHAccess _ _ _ _ => true
  | .slotLogEntry _ _ => true
  | .fbDataAccess _ _ _ _ => true
  | .coverCodePrepare _ => true
  | .accessUnitJudge _ => true
  | .cp1Place _ _ _ => true
  | .cp1Lookup _ _ _ => true
  | .cp1Cellrd _ _ _ => true
  | .cp1Sweep _ _ _ => true
  | .cp1Free _ _ _ => true
  | .sweepVisit _ => true
  | .rowSpare _ bucket uncor => decide (bucket < 16384) && uncor.all (fun c => decide (c < 8))
  | .combDumpRead _ _ => true
  | .epochAdvance _ => true
  | .dmkCfgWrite _ _ _ => true
  | .sweepRoomWaitEnd _ => true
  | .lpcdPing _ ping => decide (ping.ext < 1024)
  | .lpcdConfirmPing _ ping => decide (ping.ext < 1024)
  | .rebase _ _ => true
  | .hfFbDataAccess _ _ _ _ => true
  | .hfRxDataRead _ _ => true
  | .hfTxEnd _ => true
  | .hfFrameDecoded _ bits _ => decide (bits.length < 4096)
  | .hfColl _ pos => decide (pos < 4096)
  | .hfWindowTmo _ => true
  | .hfWindowEnd _ => true
  | .hfOverrunExpiry _ => true
  | .hfAcChoice _ => true
  | .tagmSessionStart _ vh => decide (vh < 4096)
  | .tagmSessionEnd _ vh => decide (vh < 4096)
  | .inventory15693 f _ _ _ => f.wf
  | .stayQuiet f => f.wf
  | .readSingleBlock f _ => f.wf
  | .writeSingleBlock f _ data => decide (data.length = 8) && f.wf
  | .readMultipleBlocks f _ count => decide (1 ≤ count ∧ count ≤ 256) && f.wf
  | .select15693 f => f.wf
  | .resetToReady f => f.wf
  | .getSystemInformation f => f.wf
  | .getMultipleBlockSecurity f _ count => decide (1 ≤ count ∧ count ≤ 256) && f.wf
  | .unsupportedTagCommand f _ => f.wf
  | .mboxLockTimeout _ => true
  | .tagmMbDataRead _ _ => true
  | .tagmConfigWrite _ _ _ _ => true
  | .registerWrite _ _ _ data => decide (1 ≤ data.length ∧ data.length ≤ 256)
  | .registerRead _ _ _ n => decide (1 ≤ n ∧ n ≤ 256)
  | .commandPush _ ring packet => decide (ring < 32 ∧ packet.length < 2048)
  | .ringPull _ ring max ack _ => decide (ring < 32 ∧ max < 2048 ∧ ack < 512)
  | .bulkWrite _ _ _ data => decide (1 ≤ data.length ∧ data.length ≤ 1024)
  | .bulkRead _ _ _ => true
  | .bulkApplyDone _ _ => true
  | .frameAbort _ _ _ => true
  | .selectWake _ _ => true
  | .waggle _ _ _ => true
  | .reepoch _ _ _ => true
  | .portOff _ _ _ _ => true
  | .masterMode _ _ _ => true
  | .masterTransfer _ _ => true
  | .masterTransferDone _ rx => decide (rx.length ≤ 64)
  | .packetTake _ => true
  | .cmdNop _ p => p.wf
  | .getInfo _ p => p.wf
  | .setTurn _ p => p.wf
  | .suspend _ p => p.wf
  | .resume _ p => p.wf
  | .cancel _ p => p.wf
  | .queryOp _ p => p.wf
  | .data _ p => p.wf
  | .timeRead _ p => p.wf
  | .listen _ p => p.wf
  | .inventory _ p => p.wf
  | .selectSet _ p => p.wf
  | .tagRead _ p => p.wf
  | .tagWrite _ p => p.wf
  | .tagBlockwrite _ p => p.wf
  | .tagBlockerase _ p => p.wf
  | .tagLock _ p => p.wf
  | .tagKill _ p => p.wf
  | .tagPermalock _ p => p.wf
  | .tagUntraceable _ p => p.wf
  | .tagAuth _ p => p.wf
  | .hfCampaign _ p => p.wf
  | .hfApdu _ p => p.wf
  | .hfRelease _ p => p.wf
  | .mboxRead _ p => p.wf
  | .mboxWrite _ p => p.wf
  | .combSweepReport _ p => p.wf
  | .combSweepPurge _ p => p.wf
  | .combSweepDepart _ p => p.wf
  | .combSweepPin _ p => p.wf
  | .combSweepUnpin _ p => p.wf
  | .combSweepLink _ p => p.wf
  | .combLookup _ p => p.wf
  | .damaskKeyLoad _ p => p.wf
  | .damaskKeyGenerate _ p => p.wf
  | .damaskKeyMarkNx _ p => p.wf
  | .damaskKeyExport _ p => p.wf
  | .damaskKeyErase _ p => p.wf
  | .damaskEpoch _ p => p.wf
  | .calRun _ p => p.wf
  | .onlineTest _ p => p.wf
  | .serviceFence _ p => p.wf
  | .serviceUnfence _ p => p.wf
  | .serviceRetire _ p => p.wf
  | .leaveSafe _ p => p.wf
  | .enterSafe _ p => p.wf
  | .ledgerRead _ p => p.wf
  | .imageCommit _ p => p.wf
  | .appletStart _ p => p.wf
  | .appletStop _ p => p.wf
  | .swapCore _ p => p.wf
  | .appletCmd _ p => p.wf
  | .operationStart _ tag _ => decide (tag < 128)
  | .heldRecordWrite _ => true
  | .gapDeferredWrite _ ring => decide (ring < 32)
  | .ringCfgWrite _ _ ring _ => decide (ring < 32)
  | .ringFlush _ _ ring => decide (ring < 32)
  | .ringStale _ ring => decide (ring < 32)
  | .setCopy _ _ => true
  | .copyDone _ => true
  | .sysCtrlSafe _ _ _ => true
  | .softReset _ _ _ => true
  | .latchedPairRead _ _ _ => true
  | .genericRegisterWrite _ _ _ _ _ => true
  | .add c rd ra rb => (!c || (shortReg rd && decide (ra = rd) && shortReg rb))
  | .sub c rd ra rb => (!c || (shortReg rd && decide (ra = rd) && shortReg rb))
  | .and c rd ra rb => (!c || (shortReg rd && decide (ra = rd) && shortReg rb))
  | .or c rd ra rb => (!c || (shortReg rd && decide (ra = rd) && shortReg rb))
  | .xor _ _ _ => true
  | .shl _ _ _ => true
  | .shr _ _ _ => true
  | .sra _ _ _ => true
  | .slt _ _ _ => true
  | .sltu _ _ _ => true
  | .min _ _ _ => true
  | .max _ _ _ => true
  | .minu _ _ _ => true
  | .maxu _ _ _ => true
  | .mov c rd ra => (!c || (shortReg rd && shortReg ra))
  | .mul _ _ _ => true
  | .mulh _ _ _ => true
  | .mulhu _ _ _ => true
  | .div _ _ _ => true
  | .divu _ _ _ => true
  | .rem _ _ _ => true
  | .remu _ _ _ => true
  | .clz _ _ => true
  | .popc _ _ => true
  | .addi c rd ra imm => (!c || (shortReg rd && decide (ra = rd) && shortImm imm))
  | .andi _ _ _ => true
  | .ori _ _ _ => true
  | .xori _ _ _ => true
  | .shli c rd ra imm => (!c || (shortReg rd && decide (ra = rd) && shortImm imm))
  | .shri c rd ra imm => (!c || (shortReg rd && decide (ra = rd) && shortImm imm))
  | .srai _ _ _ => true
  | .slti _ _ _ => true
  | .sltiu _ _ _ => true
  | .lui _ _ => true
  | .li c rd imm => (!c || (shortReg rd && decide (imm.toNat < 32 ∨ 524256 ≤ imm.toNat)))
  | .ldw c rd ra imm _ => (!c || (shortReg rd && decide (ra = 7) && shortOffset imm))
  | .ldh _ _ _ _ => true
  | .ldhu _ _ _ _ => true
  | .ldb _ _ _ _ => true
  | .ldbu _ _ _ _ => true
  | .stw c rd ra imm => (!c || (shortReg rd && decide (ra = 7) && shortOffset imm))
  | .sth _ _ _ => true
  | .stb _ _ _ => true
  | .beq _ _ _ => true
  | .bne _ _ _ => true
  | .blt _ _ _ => true
  | .bge _ _ _ => true
  | .bltu _ _ _ => true
  | .bgeu _ _ _ => true
  | .bz c ra off => (!c || (shortReg ra && shortImm off))
  | .bnz c ra off => (!c || (shortReg ra && shortImm off))
  | .j c off => (!c || decide (off.toNat < 512 ∨ 16776704 ≤ off.toNat))
  | .call _ => true
  | .callr _ => true
  | .jr _ => true
  | .ret _ => true
  | .rtt => true
  | .wait _ _ => true
  | .csrrd _ _ => true
  | .csrwr _ _ => true
  | .fence => true
  | .wspill => true
  | .wfill => true
  | .trap _ => true
  | .cus _ _ _ _ _ _ => true
  | .cp2Crcinit _ _ _ => true
  | .cp2Crcfeed _ _ _ => true
  | .cp2Crcrd _ _ _ => true
  | .cp3Pseud _ _ _ => true
  | .cp3Epkey _ _ _ => true
  | .cp3Siphash _ _ _ => true
  | .interruptEntry _ _ => true
  | .yield _ => true
  | .waitEvent _ => true
  | .waitEventTimer _ => true
  | .cmdGet _ => true
  | .cmdReply _ => true
  | .appletPost _ => true
  | .tagXchg _ => true
  | .timeService _ => true
  | .filterRet _ _ => true
  | .filterCall _ => true
  | .filterBudgetExpiry _ => true
  | .ucDataHWrite _ _ _ => true
  | .ucDecWrite _ _ _ _ => true
  | .imgDataWrite _ _ _ => true
  | .imgRestart _ _ => true
  | .imgBoot _ _ => true
  | .bootRom _ _ => true
  | .wdog _ => true
  | .pmuModeWrite _ _ _ => true
  | .entryStageDone _ _ => true
  | .quiesceTimeout _ _ => true
  | .wakeStageDone _ _ => true
  | .atWake _ => true
  | .vioChange _ _ _ => true
  | .vpaChange _ _ => true
  | .brownOut _ => true
  | .powerOnReset _ => true
  | .pinReset _ _ => true
  | .startupStageDone _ _ => true
  | .tempSample _ temp => decide (-32768 ≤ temp ∧ temp ≤ 600)
  | .calRunStart _ => true
  | .calRunDone _ m => m.snr.all (fun x => decide (x < 256))
  | .ageHour _ => true
  | .replan _ _ => true
  | .faultRecoveryDone _ _ => true
  | .recoveryTmo _ => true
  | .queuedFaultStart _ => true
  | .checkSelf _ _ => true
  | .damaskSelf _ _ => true
  | .testPhaseDone _ _ _ => true
  | .fenceCtrlWrite _ _ _ => true
  | .ledgerDataRead _ _ => true
  | .hfLim _ _ => true
  | .paBuck _ => true
  | .hfDrv _ => true
  | .hfStartOfFrame _ _ _ => true
  | .malformedFrame _ _ _ => true
  | .uhfChanDataRead _ _ _ => true
  | .linkMDataAccess _ _ _ => true
  | .calSnrDataRead _ _ => true
  | .ucDataHRead _ _ => true

end Sys2Proof
end

