-- ==== Sys2Proof/Tests/Slice0.lean ====
section
/-! SUPPORT. Tests: checks of WellFormed on ill-formed terms, examples of the manual, and for each statement with hypotheses a
concrete state and operands that meet them. -/
section
set_option Elab.async false
set_option maxRecDepth 100000
set_option linter.unusedVariables false
open Sys2Proof Sys2Proof.Machine

namespace Sys2Proof.Tests

/-! Checks of WellFormed: for each check a term it refuses. -/

def badPacket : Packet := ⟨0, 128, 4, false, false, false, []⟩
def goodPacket : Packet := ⟨3, 127, 31, false, false, false, [1]⟩
def badTagFrame : TagFrame := { t := 0, mode := .nonAddressed, crcOk := true, opt := false, vh1 := 4096, vh2 := 0, vh3 := 0, vh4 := 0, vh5 := 0, collapse := none }

theorem test_wf_packet : goodPacket.wf = true ∧ badPacket.wf = false ∧ ({ goodPacket with cring := 4 } : Packet).wf = false ∧
    ({ goodPacket with rring := 3 } : Packet).wf = false ∧ ({ goodPacket with rring := 32 } : Packet).wf = false ∧
    ({ goodPacket with block := List.replicate 256 0 } : Packet).wf = false := by decide +kernel
theorem test_wf_commands : ((plainRows.map Prod.fst ++ fieldRows.map Prod.fst).all fun r => wellFormed (r 0 goodPacket) && !wellFormed (r 0 badPacket)) = true := by
  decide +kernel
theorem test_wf_threads : (([.waitTimeExpiry 0, .waitFlagTrue 0, .waitFlagTimeout 0, .waitSlot 0, .seqNop 0, .seqHalt 0, .seqCall 0, .seqRet 0,
    .loop 0, .setcnt 0, .anchor 0, .signal 0, .seqPost 0, .radio 0, .hop 0, .aerial 0, .txf 0, .pwradj 0, .rxopen 0, .seqRxclose 0,
    .hftx 0, .hfrx 0, .hfclose 0, .gatePass 0, .abortTakeHold 0] : List (Nat → Instr)).all fun f => wellFormed (f 3) && !wellFormed (f 4)) = true := by
  decide +kernel
theorem test_wf_tag_frames : badTagFrame.wf = false ∧ wellFormed (.stayQuiet badTagFrame) = false ∧
    wellFormed (.readMultipleBlocks { badTagFrame with vh1 := 0 } 0 0) = false ∧
    wellFormed (.getMultipleBlockSecurity { badTagFrame with vh1 := 0 } 0 257) = false ∧
    wellFormed (.writeSingleBlock { badTagFrame with vh1 := 0 } 0 []) = false := by decide +kernel
theorem test_wf_rings : wellFormed (.gapDeferredWrite 0 32) = false ∧ wellFormed (.ringCfgWrite 0 .fw 32 0) = false ∧
    wellFormed (.ringFlush 0 .fw 32) = false ∧ wellFormed (.ringStale 0 32) = false ∧ wellFormed (.operationStart 0 128 false) = false := by
  decide +kernel
theorem test_wf_levels : wellFormed (.slotBoundary 0 96 none) = false ∧ wellFormed (.reflDetect 0 false 4096 0 none) = false ∧ wellFormed (.reflDetect 0 false 0 0 (some 4096)) = false ∧
    wellFormed (.tagmSessionStart 0 4096) = false ∧ wellFormed (.tagmSessionEnd 0 4096) = false ∧ wellFormed (.hfColl 0 4096) = false ∧
    wellFormed (.tempSample 0 601) = false ∧ wellFormed (.rowSpare 0 16384 []) = false ∧ wellFormed (.rowSpare 0 0 [8]) = false := by
  decide +kernel
theorem test_wf_stages : wellFormed (.drcLearnEnd 0 false [(131072, 0)]) = false ∧ wellFormed (.drcLearnEnd 0 false [(131071, -131072)]) = true ∧
    wellFormed (.detectorBlock 0 false ⟨0, [], [.cic [0]]⟩) = false ∧
    wellFormed (.frameDecoded 0 false [] [.resample 65536 (List.replicate 9 0)]) = false ∧
    wellFormed (.frameDecoded 0 false [] [.resample 65535 (List.replicate 9 0)]) = true ∧
    wellFormed (.sepDone 0 ⟨[], 0, [[1, 0]], [], true⟩) = false := by decide +kernel
theorem test_wf_short_forms : wellFormed (.add true 7 7 8) = false ∧ wellFormed (.add true 8 9 8) = false ∧ wellFormed (.add true 8 8 9) = true ∧
    wellFormed (.mov true 24 8) = false ∧ wellFormed (.addi true 8 8 32) = false ∧ wellFormed (.addi true 8 8 0x3FFF) = true ∧
    wellFormed (.ldw true 8 7 2 false) = false ∧ wellFormed (.stw true 8 6 4) = false ∧ wellFormed (.li true 8 32) = false ∧
    wellFormed (.bz true 8 32) = false ∧ wellFormed (.j true 512) = false := by decide +kernel

/-! Examples of the manual. -/

/-- R304: the check value over the bytes "123456789". -/
theorem test_crc32c_check : crc32c [0x31, 0x32, 0x33, 0x34, 0x35, 0x36, 0x37, 0x38, 0x39] = 0xE3069283 := by decide +kernel
/-- R271: a ping with AMP 1,960 and PHASE 0x007 against the baseline 2,000 and 0 gives D 23. -/
theorem test_ping_distance : pingD 1960 7 0x800007D0 = 23 := by decide +kernel
/-- R198: `GEN2_DERIVED` reads 0x0215_012C at reset, with its domain on. -/
theorem test_gen2_derived : regWord ((List.range 13).foldl (fun s n => { s with dev := setDom n { dom s.dev n with pos := .on } s.dev }) State.reset)
    Reg.GEN2_DERIVED = 0x0215012C := by decide +kernel
/-- R477, R428: after reset the timebase is in NONE, the seven domains of R428 are ON and the others OFF. -/
theorem test_reset_domains : State.reset.dev.tb.st = .none ∧
    (List.range 14).map (fun n => decide ((dom State.reset.dev n).pos = .on)) =
      [true, true, true, true, false, false, true, true, false, false, false, false, false, true] := by decide +kernel

def d0 : Dev := { Dev.reset with portA := Port.reset 2, portB := Port.reset 3 }
def d1 : Dev := setReg Reg.CAL_CTRL 0 { d0 with cpu := { d0.cpu with bootRom := false, mboxScan := false }, sys := { d0.sys with ready := true } }
def s1 : State := { dev := d1, tagm := Tagm.reset, pending := [] }
def onRun (f : Dev → Dev) : State := { s1 with dev := f d1 }
def s0 : State := { dev := d0, tagm := Tagm.reset, pending := [] }
def onDev (f : Dev → Dev) : State := { s0 with dev := f d0 }
theorem no_entering (d : Dev)
    (h : ((List.range 14).all fun m => match (dom d m).pos with | .entering _ 0 _ => false | _ => true) = true) :
    ∀ m, m < 14 → ∀ o u, (dom d m).pos ≠ .entering o 0 u := by
  intro m hm o u e
  have := List.all_eq_true.mp h m (List.mem_range.mpr hm)
  rw [e] at this
  cases this
def stw (act wk : Nat) (arg : Nat := 0) (time : Nat := 0) (br : Nat := 0) (alt : Nat := 0) (wcond : Nat := 0) (ap tsafe wnot : Bool := false) (extra : Nat := 0) : DWord :=
  BitVec.ofNat 64 (act * 2^58 + (if ap then 2^57 else 0) + (if tsafe then 2^56 else 0) + wk * 2^53 + wcond * 2^45 + (if wnot then 2^44 else 0) + br * 2^35 + alt * 2^23 + time * 2^11 + arg + extra)
def th (n : Nat) (w : DWord) (f : Thread → Thread) (s : State) : State := { s with dev := updThr n (fun t => f { t with st := .waiting, word := w, toFetch := false, fetchAt := 0, step := 10 }) s.dev }
def mapDev (f : Dev → Dev) (s : State) : State := { s with dev := f s.dev }

end Sys2Proof.Tests

open Sys2Proof.Tests

namespace Sys2Proof.Tests.P10

def tb (f : Timebase → Timebase) : State := onRun fun d => { d with tb := f d.tb }
def rg (a : Nat) (v : Word) (s : State) : State := { s with dev := setReg a v s.dev }
def lk (t : Timebase) : Timebase := { t with st := .locked, period := 819200000, originQ := 0, cyc := 7, cutPeriod := 819200000 }

namespace CrossingInput
def lState : List State := [rg Reg.TIME_ZC_CFG 0x00021001 (tb id), rg Reg.TIME_ZC_CFG 0x00021017 (tb id), rg Reg.TIME_ZC_CFG 0x00021001 (tb lk), rg Reg.TIME_ZC_CFG 0x00021001 (tb fun b => { lk b with st := .fly, relockQ := some 256 }), rg Reg.TIME_ZC_CFG 0x00021001 (tb fun b => { lk b with st := .fly, originQ := 0, relockQ := some (3280000 * 256 - 819200000) })]
theorem witness_CrossingInput :
  (∃ (s : State), ∃ (t : Nat), ∃ (inp falling : Bool), ∃ (held : Nat), let d := tick t s.dev
let c := reg d Reg.TIME_ZC_CFG
let b := d.tb
let x := crossingOf d ⟨inp, t⟩
let q := instantQ d x
let inWindow := (relockError d q).natAbs ≤ zcWin d
let good := bit c (if inp then 1 else 0) && (if inp then d.pmu.vioB else d.pmu.vioA) &&
    falling == bit c (if inp then 3 else 2) && decide (fld c 23 16 ≤ held)
((∀ w ∈ b.wait, t < w.2)) ∧ (good = false ∨ ((b.st = .locked ∨ b.st = .slew) ∧ ¬ inWindow)) ∧ True) ∧
  (∃ (s : State), ∃ (t : Nat), ∃ (inp falling : Bool), ∃ (held : Nat), let d := tick t s.dev
let c := reg d Reg.TIME_ZC_CFG
let b := d.tb
let x := crossingOf d ⟨inp, t⟩
let q := instantQ d x
let good := bit c (if inp then 1 else 0) && (if inp then d.pmu.vioB else d.pmu.vioA) &&
    falling == bit c (if inp then 3 else 2) && decide (fld c 23 16 ≤ held)
((∀ w ∈ b.wait, t < w.2)) ∧ (good = true) ∧ ((∀ p ∈ b.lastTakenQ, sameCrossing d q p = false)) ∧ (b.st = .none) ∧ (b.acq = []) ∧ (inp = bit c 4) ∧ True) ∧
  (∃ (s : State), ∃ (t : Nat), ∃ (inp falling : Bool), ∃ (held : Nat), let d := tick t s.dev
let c := reg d Reg.TIME_ZC_CFG
let b := d.tb
let x := crossingOf d ⟨inp, t⟩
let q := instantQ d x
let good := bit c (if inp then 1 else 0) && (if inp then d.pmu.vioB else d.pmu.vioA) &&
    falling == bit c (if inp then 3 else 2) && decide (fld c 23 16 ≤ held)
((∀ w ∈ b.wait, t < w.2)) ∧ (good = true) ∧ ((∀ p ∈ b.lastTakenQ, sameCrossing d q p = false)) ∧ (b.st = .none) ∧ (inp ≠ bit c 4) ∧ (b.wait = none) ∧ True) ∧
  (∃ (s : State), ∃ (t : Nat), ∃ (inp falling : Bool), ∃ (held : Nat), let d := tick t s.dev
let c := reg d Reg.TIME_ZC_CFG
let b := d.tb
let x := crossingOf d ⟨inp, t⟩
let q := instantQ d x
let inWindow := (relockError d q).natAbs ≤ zcWin d
let good := bit c (if inp then 1 else 0) && (if inp then d.pmu.vioB else d.pmu.vioA) &&
    falling == bit c (if inp then 3 else 2) && decide (fld c 23 16 ≤ held)
((∀ w ∈ b.wait, t < w.2)) ∧ (good = true) ∧ ((∀ p ∈ b.lastTakenQ, sameCrossing d q p = false)) ∧ (b.st = .locked) ∧ (inWindow) ∧ (inp = bit c 4) ∧ (b.slewing = none) ∧ (b.stepPend = none) ∧ (b.oscRelock = 0) ∧ True) ∧
  (∃ (s : State), ∃ (t : Nat), ∃ (inp falling : Bool), ∃ (held : Nat), let d := tick t s.dev
let c := reg d Reg.TIME_ZC_CFG
let b := d.tb
let x := crossingOf d ⟨inp, t⟩
let q := instantQ d x
let good := bit c (if inp then 1 else 0) && (if inp then d.pmu.vioB else d.pmu.vioA) &&
    falling == bit c (if inp then 3 else 2) && decide (fld c 23 16 ≤ held)
((∀ w ∈ b.wait, t < w.2)) ∧ (good = true) ∧ ((∀ p ∈ b.lastTakenQ, sameCrossing d q p = false)) ∧ (b.st = .fly) ∧ (inp = bit c 4) ∧ (b.stepPend = none) ∧ ∃ p, (b.relockQ = some p) ∧ (rateOk ((q : Int) - p) = true) ∧ (99 * b.period ≤ 100 * (q - p)) ∧ (100 * (q - p) ≤ 101 * b.period) ∧ True) :=
  ⟨⟨(lState[0]'(by decide)), ⟨0, ⟨true, ⟨true, ⟨0, by decide +kernel⟩⟩⟩⟩⟩,
  ⟨(lState[0]'(by decide)), ⟨0, ⟨false, ⟨false, ⟨2, by decide +kernel⟩⟩⟩⟩⟩,
  ⟨(lState[1]'(by decide)), ⟨0, ⟨false, ⟨true, ⟨2, by decide +kernel⟩⟩⟩⟩⟩,
  ⟨(lState[2]'(by decide)), ⟨0, ⟨false, ⟨false, ⟨2, by decide +kernel⟩⟩⟩⟩⟩,
  ⟨(lState[3]'(by decide)), ⟨3200000, ⟨false, ⟨false, ⟨2, ⟨by decide +kernel, ⟨by decide +kernel, ⟨by decide +kernel, ⟨by decide +kernel, ⟨by decide +kernel, ⟨by decide +kernel, ⟨256, by decide +kernel⟩⟩⟩⟩⟩⟩⟩⟩⟩⟩⟩⟩⟩
end CrossingInput

namespace TwoInputs
def lState : List State := [tb id, tb (fun b => { b with st := .acquire, wait := some (⟨true, 5⟩, 160) }), tb (fun b => { b with st := .acquire, wait := some (⟨false, 5⟩, 160), skewQ := 77 }), tb (fun b => { lk b with wait := some (⟨false, 5⟩, 160), skewQ := 77 }), tb (fun b => { b with skewRun := 16 })]
theorem witness_TwoInputs :
  (∃ (s : State), ∃ (t : Nat), let d := tick t s.dev
∃ e, ∃ u, (d.tb.wait = some (e, u)) ∧ (u ≤ t) ∧ True) ∧
  (∃ (s : State), ∃ (t : Nat), let d := tick t s.dev
((∀ w ∈ d.tb.wait, t < w.2)) ∧ True) ∧
  (∃ (s : State), ∃ (t : Nat), let d := tick t s.dev
(16 ≤ d.tb.skewRun) ∧ (d.tb.disagreed = false) ∧ True) ∧
  (∃ (s : State), ∃ (t : Nat), let d := tick t s.dev
(d.tb.skewRun < 16 ∨ d.tb.disagreed = true) ∧ True) :=
  ⟨⟨(lState[1]'(by decide)), ⟨160, ⟨{ input := true, stamp := 5 }, ⟨160, by decide +kernel⟩⟩⟩⟩,
  ⟨(lState[0]'(by decide)), ⟨0, by decide +kernel⟩⟩,
  ⟨(lState[4]'(by decide)), ⟨0, by decide +kernel⟩⟩,
  ⟨(lState[0]'(by decide)), ⟨0, by decide +kernel⟩⟩⟩
end TwoInputs

namespace MissedCrossings
def lState : List State := [tb lk, tb (fun b => { lk b with missed := 1 }), tb (fun b => { lk b with lastTakenQ := some 0 })]
theorem witness_MissedCrossings :
  (∃ (s : State), ∃ (t : Nat), let d := tick t s.dev
let b := d.tb
let wQ := puToQ b.period (zcWin d)
let due := (b.st = .locked ∨ b.st = .slew) ∧ b.originQ + wQ ≤ t * 256 ∧ (∀ q ∈ b.lastTakenQ, q + wQ < b.originQ) ∧
    b.missedForQ ≠ some b.originQ
((∀ w ∈ b.wait, t < w.2)) ∧ (due) ∧ (b.missed = 0) ∧ True) ∧
  (∃ (s : State), ∃ (t : Nat), let d := tick t s.dev
let b := d.tb
let wQ := puToQ b.period (zcWin d)
let due := (b.st = .locked ∨ b.st = .slew) ∧ b.originQ + wQ ≤ t * 256 ∧ (∀ q ∈ b.lastTakenQ, q + wQ < b.originQ) ∧
    b.missedForQ ≠ some b.originQ
((∀ w ∈ b.wait, t < w.2)) ∧ (due) ∧ (1 ≤ b.missed) ∧ True) ∧
  (∃ (s : State), ∃ (t : Nat), let d := tick t s.dev
let b := d.tb
let wQ := puToQ b.period (zcWin d)
((∀ w ∈ b.wait, t < w.2)) ∧ (b.st ≠ .locked ∧ b.st ≠ .slew ∨ t * 256 < b.originQ + wQ ∨ (∃ q ∈ b.lastTakenQ, b.originQ ≤ q) ∨
    b.missedForQ = some b.originQ) ∧ True) :=
  ⟨⟨(lState[0]'(by decide)), ⟨3200000, by decide +kernel⟩⟩,
  ⟨(lState[1]'(by decide)), ⟨3200000, by decide +kernel⟩⟩,
  ⟨(lState[0]'(by decide)), ⟨0, by decide +kernel⟩⟩⟩
end MissedCrossings

namespace TimeControl
def lState : List State := [rg Reg.TIME_CTRL 0x4 (tb id), tb id, tb lk, rg Reg.TIME_CTRL 0 (tb fun b => { lk b with noise := [(3, 0x8005)] })]
theorem witness_TimeControl :
  (∃ (s : State), ∃ (t : Nat), ∃ (r : Reader), ∃ (sixty : Bool), let d := tick t s.dev
(d.tb.st = .none) ∧ True) ∧
  (∃ (s : State), ∃ (t : Nat), ∃ (r : Reader), ∃ (sixty : Bool), let d := tick t s.dev
(d.tb.st ≠ .none) ∧ True) :=
  ⟨⟨(lState[0]'(by decide)), ⟨0, ⟨(Sys2Proof.Reader.spiA), ⟨true, by decide +kernel⟩⟩⟩⟩,
  ⟨(lState[2]'(by decide)), ⟨0, ⟨(Sys2Proof.Reader.spiA), ⟨true, by decide +kernel⟩⟩⟩⟩⟩
end TimeControl

namespace CycleStarts
def lState : List State := [tb id, tb lk, tb (fun b => { lk b with st := .fly }), tb (fun b => { lk b with st := .fly, planSync := true }), tb (fun b => { lk b with st := .fly, flyFresh := false }),tb (fun b => { lk b with st := .fly, flyFresh := false, flyStop := true }), rg Reg.TIME_FLY_CYC 0xFFFFFFFF (tb (fun b => { lk b with flyFresh := false }))]
theorem witness_CycleStarts :
  (∃ (s : State), ∃ (t : Nat), let d := tick t s.dev
let b := d.tb
(tbValid d = false ∨ b.holdUntil.isSome = true ∨ rawPhase d (t * 256) < puCycle) ∧ True) ∧
  (∃ (s : State), ∃ (t : Nat), let d := tick t s.dev
let b := d.tb
(tbValid d = true) ∧ (b.holdUntil = none) ∧ ((puCycle : Int) ≤ rawPhase d (t * 256)) ∧ (b.planSync = false) ∧ (b.st ≠ .locked) ∧ ∃ (src : CycleSrc), (src ≠ .flywheel) ∧ True) :=
  ⟨⟨(lState[0]'(by decide)), ⟨0, by decide +kernel⟩⟩,
  ⟨(lState[2]'(by decide)), ⟨3200000, ⟨by decide +kernel, ⟨by decide +kernel, ⟨by decide +kernel, ⟨by decide +kernel, ⟨by decide +kernel, ⟨(Sys2Proof.CycleSrc.crossing), by decide +kernel⟩⟩⟩⟩⟩⟩⟩⟩⟩
end CycleStarts

namespace SlotStarts
def arm (s : State) : State := { s with dev := { s.dev with seq := { s.dev.seq with turn := some (⟨9, some 1, none, true⟩ : Armed) } } }
def lState : List State := [tb lk, arm (tb lk)]
theorem witness_SlotStarts :
  (∃ (s : State), ∃ (t b : Nat), ∃ (m : Option Nat), let d := tick t s.dev
(slotBegins d t b = false) ∧ True) ∧
  (∃ (s : State), ∃ (t b : Nat), ∃ (m : Option Nat), let d := tick t s.dev
(slotBegins d t b = true) ∧ True) :=
  ⟨⟨(lState[0]'(by decide)), ⟨0, ⟨0, ⟨none, by decide +kernel⟩⟩⟩⟩,
  ⟨(lState[0]'(by decide)), ⟨33334, ⟨1, ⟨none, by decide +kernel⟩⟩⟩⟩⟩
end SlotStarts

namespace TimebaseStates
def lState : List State := [tb lk, rg Reg.TIME_CTRL 0x4 (tb fun b => { lk b with st := .fly, uncSw := 100000 }), tb (fun b => { lk b with st := .slew, slewing := some ⟨100, 0, 0⟩ }), tb (fun b => { lk b with stepPend := some 100 }), tb (fun b => { lk b with stepPend := some (-100) }), tb (fun b => { lk b with holdUntil := some 160, stepPend := some (-100) }), tb (fun b => { lk b with onRc := true }), onRun fun d => { d with pmu := { d.pmu with xo := false } }]
theorem witness_TimebaseStates :
  (∃ (s : State), ∃ (t : Nat), let d := tick t s.dev
let b := d.tb
(b.st = .fly) ∧ (fld (reg d Reg.TIME_UNC_MAX) 15 0 < flyBound d t) ∧ True) ∧
  (∃ (s : State), ∃ (t : Nat), let d := tick t s.dev
let b := d.tb
(b.st ≠ .fly ∨ flyBound d t ≤ fld (reg d Reg.TIME_UNC_MAX) 15 0) ∧ True) ∧
  (∃ (s : State), ∃ (t : Nat), let d := tick t s.dev
let b := d.tb
∃ w, (b.slewing = some w) ∧ (b.st = .slew) ∧ (slewSub d w (t * 256) = w.e.natAbs * 65536) ∧ True) ∧
  (∃ (s : State), ∃ (t : Nat), let d := tick t s.dev
let b := d.tb
∃ x, (b.stepPend = some x) ∧ (b.holdUntil = none) ∧ (stepAllowed d = true) ∧ (0 ≤ x) ∧ True) ∧
  (∃ (s : State), ∃ (t : Nat), let d := tick t s.dev
let b := d.tb
∃ x, (b.stepPend = some x) ∧ (b.holdUntil = none) ∧ (stepAllowed d = true) ∧ (x < 0) ∧ True) ∧
  (∃ (s : State), ∃ (t : Nat), let d := tick t s.dev
let b := d.tb
(b.stepPend = none ∨ b.holdUntil.isSome = true ∨ stepAllowed d = false) ∧ True) ∧
  (∃ (s : State), ∃ (t : Nat), let d := tick t s.dev
let b := d.tb
∃ h, ∃ x, (b.holdUntil = some h) ∧ (b.stepPend = some x) ∧ (h ≤ t) ∧ True) ∧
  (∃ (s : State), ∃ (t : Nat), let d := tick t s.dev
let b := d.tb
∃ toRc : Bool, (b.onRc ≠ toRc) ∧ (d.pmu.xo = !toRc) ∧ True) ∧
  (∃ (s : State), ∃ (t : Nat), let d := tick t s.dev
let b := d.tb
∃ toRc : Bool, (b.onRc = toRc ∨ d.pmu.xo = toRc) ∧ True) :=
  ⟨⟨(lState[1]'(by decide)), ⟨0, by decide +kernel⟩⟩,
  ⟨(lState[0]'(by decide)), ⟨0, by decide +kernel⟩⟩,
  ⟨(lState[2]'(by decide)), ⟨320050000, by decide +kernel⟩⟩,
  ⟨(lState[3]'(by decide)), ⟨0, ⟨100, by decide +kernel⟩⟩⟩,
  ⟨(lState[4]'(by decide)), ⟨0, ⟨(-100), by decide +kernel⟩⟩⟩,
  ⟨(lState[0]'(by decide)), ⟨0, by decide +kernel⟩⟩,
  ⟨(lState[5]'(by decide)), ⟨160, ⟨160, ⟨(-100), by decide +kernel⟩⟩⟩⟩,
  ⟨(lState[6]'(by decide)), ⟨0, ⟨false, by decide +kernel⟩⟩⟩,
  ⟨(lState[0]'(by decide)), ⟨0, ⟨true, by decide +kernel⟩⟩⟩⟩
end TimebaseStates

end Sys2Proof.Tests.P10

namespace Sys2Proof.Tests.P20



namespace BranchByBr
def sm : List State := [s1, th 1 (stw 0 0 0 0 1 77) id s1, th 2 (stw 0 0 0 0 2 78 0 false false false (2^37)) id s1, th 1 (stw 0 0) (fun t => { t with step := 4095 }) s1]
def lDev : List Dev := sm.map State.dev
theorem witness_BranchByBr :
  ∃ (d : Dev), ∃ (n : Nat), ∃ m, (m ≠ n) ∧ True :=
  ⟨(lDev[0]'(by decide)), ⟨0, ⟨1, by decide +kernel⟩⟩⟩
end BranchByBr

namespace ThreadActions
def sm : List State := [th 1 (stw 0 0) id s1, th 1 (stw 2 0 0 0 0 99) id s1, th 1 (stw 3 0) (fun t => { t with stack := [17, 3] }) s1,
 th 1 (stw 4 0 2 0 0 99) (fun t => { t with lc := [1,2,3,4] }) s1, th 3 (stw 4 0 0 0 0 99) (fun t => { t with lc := [1,2,3,4] }) s1, th 0 (stw 5 0 (512*3+44)) id s1, th 0 (stw 6 0 0) id s1, th 1 (stw 7 0 5) id s1, th 1 (stw 7 0 13) id s1,
 th 1 (stw 2 0 0 0 0 99) (fun t => { t with stack := [17, 3, 4, 5] }) s1, th 1 (stw 3 0) (fun t => { t with stack := [] }) s1, th 2 (stw 6 0 3) id (mapDev (fun d => { d with tb := { d.tb with st := .locked, period := 819200000, slot := some 0, slotTick := 2 } }) s1),
 { th 2 (stw 6 0 1) id s1 with dev := { (th 2 (stw 6 0 1) id s1).dev with seq := { (th 2 (stw 6 0 1) id s1).dev.seq with txEndAt := some 4 } } }]
def lState : List State := sm
theorem witness_ThreadActions :
  (∃ (s : State), ∃ (t n : Nat), ∃ (e : WaitEnd), (StepDue s.dev t n 0x00 e) ∧ True) ∧
  (∃ (s : State), ∃ (t n : Nat), ∃ (e : WaitEnd), (StepDue s.dev t n 0x02 e) ∧ ((thr s.dev n).stack.length < 4) ∧ True) ∧
  (∃ (s : State), ∃ (t n : Nat), ∃ (e : WaitEnd), (StepDue s.dev t n 0x02 e) ∧ (4 ≤ (thr s.dev n).stack.length) ∧ True) ∧
  (∃ (s : State), ∃ (t n : Nat), ∃ (e : WaitEnd), ∃ i, ∃ rest, (StepDue s.dev t n 0x03 e) ∧ ((thr s.dev n).stack = i :: rest) ∧ True) ∧
  (∃ (s : State), ∃ (t n : Nat), ∃ (e : WaitEnd), (StepDue s.dev t n 0x03 e) ∧ ((thr s.dev n).stack = []) ∧ True) ∧
  (∃ (s : State), ∃ (t n : Nat), ∃ (e : WaitEnd), (StepDue s.dev t n 0x04 e) ∧ True) ∧
  (∃ (s : State), ∃ (t n : Nat), ∃ (e : WaitEnd), (StepDue s.dev t n 0x05 e) ∧ True) ∧
  (∃ (s : State), ∃ (t n : Nat), ∃ (e : WaitEnd), (StepDue s.dev t n 0x06 e) ∧ True) ∧
  (∃ (s : State), ∃ (t n : Nat), ∃ (e : WaitEnd), (StepDue s.dev t n 0x07 e) ∧ True) :=
  ⟨⟨(lState[0]'(by decide)), ⟨1, ⟨1, ⟨{ timeout := false, late := false }, by decide +kernel⟩⟩⟩⟩,
  ⟨(lState[1]'(by decide)), ⟨1, ⟨1, ⟨{ timeout := false, late := false }, by decide +kernel⟩⟩⟩⟩,
  ⟨(lState[9]'(by decide)), ⟨1, ⟨1, ⟨{ timeout := false, late := false }, by decide +kernel⟩⟩⟩⟩,
  ⟨(lState[2]'(by decide)), ⟨1, ⟨1, ⟨{ timeout := false, late := false }, ⟨17, ⟨[3], by decide +kernel⟩⟩⟩⟩⟩⟩,
  ⟨(lState[10]'(by decide)), ⟨1, ⟨1, ⟨{ timeout := false, late := false }, by decide +kernel⟩⟩⟩⟩,
  ⟨(lState[3]'(by decide)), ⟨1, ⟨1, ⟨{ timeout := false, late := false }, by decide +kernel⟩⟩⟩⟩,
  ⟨(lState[5]'(by decide)), ⟨1, ⟨0, ⟨{ timeout := false, late := false }, by decide +kernel⟩⟩⟩⟩,
  ⟨(lState[6]'(by decide)), ⟨1, ⟨0, ⟨{ timeout := false, late := false }, by decide +kernel⟩⟩⟩⟩,
  ⟨(lState[7]'(by decide)), ⟨1, ⟨1, ⟨{ timeout := false, late := false }, by decide +kernel⟩⟩⟩⟩⟩
end ThreadActions

namespace PostAndAdjust
def sm : List State := [th 0 (stw 8 0 0x33) id s1, th 1 (stw 8 0 (512+0xB3)) id s1, th 1 (stw 8 0 (1024+5)) id s1, th 1 (stw 8 0 0x33) id (mapDev (fun d => { d with seq := { d.seq with log := List.replicate 256 [] } }) s1), th 1 (stw 8 0 0x33) id s1, th 1 (stw 8 0 (512+0x33)) id s1,th 0 (stw 8 0 (512+0x33)) id s1, th 0 (stw 0x14 0 0xF0) id s1]
def lState : List State := sm
theorem witness_PostAndAdjust :
  (∃ (s : State), ∃ (t n : Nat), ∃ (e : WaitEnd), let x := stepIssued s.dev t n e
let w := (thr s.dev n).word
let a := stepArg w
(StepDue s.dev t n 0x08 e) ∧ (a / 512 = 0) ∧ (x.seq.log.length < 256) ∧ True) ∧
  (∃ (s : State), ∃ (t n : Nat), ∃ (e : WaitEnd), let x := stepIssued s.dev t n e
let w := (thr s.dev n).word
let a := stepArg w
(StepDue s.dev t n 0x08 e) ∧ (a / 512 = 0) ∧ (256 ≤ x.seq.log.length) ∧ True) ∧
  (∃ (s : State), ∃ (t n : Nat), ∃ (e : WaitEnd), let w := (thr s.dev n).word
let a := stepArg w
(StepDue s.dev t n 0x08 e) ∧ (a / 512 = 1) ∧ (a % 256 < 0x80) ∧ True) ∧
  (∃ (s : State), ∃ (t n : Nat), ∃ (e : WaitEnd), let w := (thr s.dev n).word
let a := stepArg w
(StepDue s.dev t n 0x08 e) ∧ (a / 512 = 1) ∧ (0x80 ≤ a % 256) ∧ True) ∧
  (∃ (s : State), ∃ (t n : Nat), ∃ (e : WaitEnd), let x := stepIssued s.dev t n e
let w := (thr s.dev n).word
let a := stepArg w
(StepDue s.dev t n 0x08 e) ∧ (a / 512 = 2) ∧ (4 ≤ a % 32) ∧ (RoomFor x (a % 32) 5) ∧ True) ∧
  (∃ (s : State), ∃ (t n : Nat), ∃ (e : WaitEnd), (StepDue s.dev t n 0x14 e) ∧ True) :=
  ⟨⟨(lState[0]'(by decide)), ⟨1, ⟨0, ⟨{ timeout := false, late := false }, by decide +kernel⟩⟩⟩⟩,
  ⟨(lState[3]'(by decide)), ⟨1, ⟨1, ⟨{ timeout := false, late := false }, by decide +kernel⟩⟩⟩⟩,
  ⟨(lState[5]'(by decide)), ⟨1, ⟨1, ⟨{ timeout := false, late := false }, by decide +kernel⟩⟩⟩⟩,
  ⟨(lState[1]'(by decide)), ⟨1, ⟨1, ⟨{ timeout := false, late := false }, by decide +kernel⟩⟩⟩⟩,
  ⟨(lState[2]'(by decide)), ⟨1, ⟨1, ⟨{ timeout := false, late := false }, by decide +kernel⟩⟩⟩⟩,
  ⟨(lState[7]'(by decide)), ⟨1, ⟨0, ⟨{ timeout := false, late := false }, by decide +kernel⟩⟩⟩⟩⟩
end PostAndAdjust

namespace HaltAndClose
def sm : List State := [th 0 (stw 1 0 0x33) id s1, th 3 (stw 1 0 0x33) id s1, th 1 (stw 1 0 0x33) id s1, th 2 (stw 1 0 0x33) id s1, th 2 (stw 0x21 0 0x33) id s1]
def lState : List State := sm
def lWindow : List Window := []
theorem witness_HaltAndClose :
  (∃ (s : State), ∃ (t n : Nat), ∃ (e : WaitEnd), (StepDue s.dev t n 0x01 e) ∧ True) ∧
  (∃ (s : State), ∃ (t n : Nat), ∃ (e : WaitEnd), (StepDue s.dev t n 0x21 e) ∧ ((n = 1 ∨ n = 2)) ∧ True) :=
  ⟨⟨(lState[0]'(by decide)), ⟨1, ⟨0, ⟨{ timeout := false, late := false }, by decide +kernel⟩⟩⟩⟩,
  ⟨(lState[4]'(by decide)), ⟨1, ⟨2, ⟨{ timeout := false, late := false }, by decide +kernel⟩⟩⟩⟩⟩
end HaltAndClose

namespace WaitRows
def sm : List State := [th 1 (stw 0 1 0 2) id s1, th 1 (stw 0 2 0 2) id s1, th 1 (stw 0 3 0 2) id s1, th 1 (stw 0 3 0 2 0 0 0 false false true) id s1, th 1 (stw 0 5 0 2 0 0 0 false false true) id s1, th 0 (stw 0 4) id (mapDev (fun d => { d with set0 := { d.set0 with plan := (List.range 15).map fun i => (i, 0xFFFFFFFF) }, tb := { d.tb with st := .locked, period := 819200000, slot := some 0, slotTick := 5 } }) s1)]
def lState : List State := sm
theorem witness_WaitRows :
  (∃ (s : State), ∃ (t n : Nat), ∃ (e : WaitEnd), (StepDue s.dev t n 0x00 e) ∧ let w := (thr s.dev n).word
((stepWk w = 1 ∨ stepWk w = 2)) ∧ True) ∧
  (∃ (s : State), ∃ (t n : Nat), ∃ (e : WaitEnd), (StepDue s.dev t n 0x00 e) ∧ let w := (thr s.dev n).word
((stepWk w = 3 ∨ stepWk w = 5)) ∧ (e.timeout = false) ∧ True) ∧
  (∃ (s : State), ∃ (t n : Nat), ∃ (e : WaitEnd), (StepDue s.dev t n 0x00 e) ∧ let w := (thr s.dev n).word
((stepWk w = 3 ∨ stepWk w = 5)) ∧ (e.timeout = true) ∧ True) ∧
  (∃ (s : State), ∃ (t n : Nat), ∃ (e : WaitEnd), (StepDue s.dev t n 0x00 e) ∧ let w := (thr s.dev n).word
(stepWk w = 4) ∧ True) :=
  ⟨⟨(lState[0]'(by decide)), ⟨2, ⟨1, ⟨{ timeout := false, late := false }, by decide +kernel⟩⟩⟩⟩,
  ⟨(lState[2]'(by decide)), ⟨1, ⟨1, ⟨{ timeout := false, late := false }, by decide +kernel⟩⟩⟩⟩,
  ⟨(lState[3]'(by decide)), ⟨2, ⟨1, ⟨{ timeout := true, late := false }, by decide +kernel⟩⟩⟩⟩,
  ⟨(lState[5]'(by decide)), ⟨0, ⟨0, ⟨{ timeout := false, late := false }, by decide +kernel⟩⟩⟩⟩⟩
end WaitRows

namespace StepFetch
def f (n i : Nat) (w : DWord) : State := mapDev (fun d => { updThr n (fun t => { t with st := .waiting, step := i, toFetch := true, fetchAt := 1 }) d with set0 := { d.set0 with tab := [(i, w)] } }) s1
def lState : List State := [f 1 7 (stw 0 1 0 5), f 2 4095 (stw 0x20 3)]
theorem witness_StepFetch :
  ∃ (s : State), ∃ (t n : Nat), (n < 4) ∧ let x := tick t s.dev
((thr x n).st = .waiting) ∧ ((thr x n).toFetch = true) ∧ ((thr x n).fetchAt ≤ t) ∧ ((thr x n).op = none) ∧ ((∀ o ∈ x.ops, o.pend = .none)) ∧ (x.chA.satRuns < 3) ∧ (x.chB.satRuns < 3) ∧ let w := tabStep x (thr x n).step
(stepFault w n = none) ∧ (¬ (n = 0 ∧ stepWk w = 4)) ∧ ∃ c : EccRead, (c ≠ .bad) ∧ True :=
  ⟨(lState[0]'(by decide)), ⟨1, ⟨1, ⟨by decide +kernel, ⟨by decide +kernel, ⟨by decide +kernel, ⟨by decide +kernel, ⟨by decide +kernel, ⟨by decide +kernel, ⟨by decide +kernel, ⟨by decide +kernel, ⟨by decide +kernel, ⟨by decide +kernel, ⟨(Sys2Proof.EccRead.clean), by decide +kernel⟩⟩⟩⟩⟩⟩⟩⟩⟩⟩⟩⟩⟩⟩
end StepFetch

namespace AbortTakesHold
def ab (q : PendReq) (t : Thread) : Thread := { t with abort := q, abortAt := 1 }
def lState : List State := [th 1 (stw 0 1 0 5 0 0 0 true) (ab .cancel) s1, th 2 (stw 0 1 0 5 0 0 0 true) (ab .suspend) s1]
theorem witness_AbortTakesHold :
  (∃ (s : State), ∃ (t n : Nat), (n < 4) ∧ let x := tick t s.dev
(abortHere n x = true) ∧ ((∀ o ∈ x.ops, o.pend = .none)) ∧ (x.chA.satRuns < 2) ∧ (x.chB.satRuns < 2) ∧ True) ∧
  (∃ (s : State), ∃ (t n : Nat), (n < 4) ∧ let x := tick t s.dev
(abortHere n x = false) ∧ True) :=
  ⟨⟨(lState[0]'(by decide)), ⟨2, ⟨1, by decide +kernel⟩⟩⟩,
  ⟨(lState[0]'(by decide)), ⟨0, ⟨0, by decide +kernel⟩⟩⟩⟩
end AbortTakesHold

namespace GatedActions
def cw (d : Dev) : Dev := { d with uhf := { d.uhf with st := .rxCw, carrier := true, lock := true, entry := some 0 }, tb := { d.tb with st := .locked, period := 819200000 }, set0 := { d.set0 with chan := [(0, 0x80000000), (1, 0x80000005)], plan := (List.range 15).map fun i => (i, 0xFFFFFFFF), fb := [(0, 0x80000010)], hffb := [(0, 0x80000010)], regs := [(Reg.UHF_AER_0, 0x80000000), (Reg.UHF_AER_0 + 1, 0x80000000), (Reg.HF_CFG, 0x13881508)] }, pmu := { d.pmu with vpa := true } }
def base : State := mapDev cw s1
def sm : List State := [th 0 (stw 0x10 0 3) id base, th 0 (stw 0x12 0 1) id base, th 0 (stw 0x10 0 0) id base, th 0 (stw 0x10 0 0) id s1, th 0 (stw 0x11 0 0) id base, th 0 (stw 0x12 0 0) id base, th 0 (stw 0x13 0 0) id base, th 1 (stw 0x20 0 0) id base, th 0 (stw 0x20 0 0) id s1, th 3 (stw 0x30 0 0) id base, th 3 (stw 0x30 0 1) id base, th 3 (stw 0x31 0 0) id (mapDev (fun d => { d with hf := { d.hf with field := 1 } }) base), th 3 (stw 0x32 0 0) id base, th 3 (stw 0x33 0 0) id base]
def lState : List State := sm
theorem witness_GatedActions :
  (∃ (s : State), ∃ (t n : Nat), ∃ (e : WaitEnd), let w := (thr s.dev n).word
(StepDue s.dev t n 0x10 e) ∧ (n = 0) ∧ (stepArg w % 8 ≠ 3) ∧ True) ∧
  (∃ (s : State), ∃ (t n : Nat), ∃ (e : WaitEnd), let w := (thr s.dev n).word
let x := actIssued w (stepIssued s.dev t n e)
let past := sendBad x w = false ∧ gateAt x n w = none ∧ gateRefusal x w = none ∧ x.pmu.vpa = true ∧ x.uhf.gntOff ≠ some x.now
(StepDue s.dev t n 0x10 e) ∧ (n = 0) ∧ (stepArg w % 8 = 3) ∧ (past) ∧ True) ∧
  (∃ (s : State), ∃ (t n : Nat), ∃ (e : WaitEnd), let w := (thr s.dev n).word
let x := actIssued w (stepIssued s.dev t n e)
let past := sendBad x w = false ∧ gateAt x n w = none ∧ gateRefusal x w = none ∧ x.pmu.vpa = true ∧ x.uhf.gntOff ≠ some x.now
(StepDue s.dev t n 0x11 e) ∧ (n = 0) ∧ (past) ∧ True) ∧
  (∃ (s : State), ∃ (t n : Nat), ∃ (e : WaitEnd), let w := (thr s.dev n).word
let x := actIssued w (stepIssued s.dev t n e)
(StepDue s.dev t n 0x12 e) ∧ (n = 0) ∧ (actGated x w = false) ∧ (aerialRefusal x (stepArg w % 16) = none) ∧ True) ∧
  (∃ (s : State), ∃ (t n : Nat), ∃ (e : WaitEnd), let w := (thr s.dev n).word
let x := actIssued w (stepIssued s.dev t n e)
let past := sendBad x w = false ∧ gateAt x n w = none ∧ gateRefusal x w = none ∧ x.pmu.vpa = true ∧ x.uhf.gntOff ≠ some x.now
(StepDue s.dev t n 0x12 e) ∧ (n = 0) ∧ (actGated x w = true) ∧ (past) ∧ True) ∧
  (∃ (s : State), ∃ (t n : Nat), ∃ (e : WaitEnd), let w := (thr s.dev n).word
let x := actIssued w (stepIssued s.dev t n e)
let past := sendBad x w = false ∧ gateAt x n w = none ∧ gateRefusal x w = none ∧ x.pmu.vpa = true ∧ x.uhf.gntOff ≠ some x.now
(StepDue s.dev t n 0x13 e) ∧ (n = 0) ∧ (past) ∧ True) ∧
  (∃ (s : State), ∃ (t n : Nat), ∃ (e : WaitEnd), let w := (thr s.dev n).word
let x := actIssued w (stepIssued s.dev t n e)
(StepDue s.dev t n 0x20 e) ∧ ((n = 1 ∨ n = 2)) ∧ ((replyDesc x (stepArg w % 16)).isSome) ∧ (rxopenRefused x = false) ∧ (rxopenHeld x n = false) ∧ (x.uhf.gntOff ≠ some x.now) ∧ True) ∧
  (∃ (s : State), ∃ (t n : Nat), ∃ (e : WaitEnd), let w := (thr s.dev n).word
let x := actIssued w (stepIssued s.dev t n e)
let past := sendBad x w = false ∧ gateAt x n w = none ∧ gateRefusal x w = none ∧ x.pmu.vpa = true ∧ x.uhf.gntOff ≠ some x.now
(StepDue s.dev t n 0x31 e) ∧ (n = 3) ∧ (past) ∧ True) ∧
  (∃ (s : State), ∃ (t n : Nat), ∃ (e : WaitEnd), let w := (thr s.dev n).word
((∀ r, (tick t s.dev).cal.run = some r → r.id ≠ 3)) ∧ (StepDue s.dev t n 0x30 e) ∧ (n = 3) ∧ (stepArg w % 4 = 0) ∧ True) ∧
  (∃ (s : State), ∃ (t n : Nat), ∃ (e : WaitEnd), let w := (thr s.dev n).word
let x := actIssued w (stepIssued s.dev t n e)
let past := sendBad x w = false ∧ gateAt x n w = none ∧ gateRefusal x w = none ∧ x.pmu.vpa = true ∧ x.uhf.gntOff ≠ some x.now
((∀ r, (tick t s.dev).cal.run = some r → r.id ≠ 3)) ∧ (StepDue s.dev t n 0x30 e) ∧ (n = 3) ∧ (stepArg w % 4 = 1) ∧ (past) ∧ (bit (cfg x Reg.HF_CFG) 4 = false) ∧ (x.hf.field = 0) ∧ True) ∧
  (∃ (s : State), ∃ (t n : Nat), ∃ (e : WaitEnd), let w := (thr s.dev n).word
let x := actIssued w (stepIssued s.dev t n e)
((∀ r, (tick t s.dev).cal.run = some r → r.id ≠ 3)) ∧ (StepDue s.dev t n 0x32 e) ∧ (n = 3) ∧ (x.hf.txBusy = false) ∧ True) ∧
  (∃ (s : State), ∃ (t n : Nat), ∃ (e : WaitEnd), (StepDue s.dev t n 0x33 e) ∧ (n = 3) ∧ True) :=
  ⟨⟨(lState[2]'(by decide)), ⟨1, ⟨0, ⟨{ timeout := false, late := false }, by decide +kernel⟩⟩⟩⟩,
  ⟨(lState[0]'(by decide)), ⟨1, ⟨0, ⟨{ timeout := false, late := false }, by decide +kernel⟩⟩⟩⟩,
  ⟨(lState[4]'(by decide)), ⟨1, ⟨0, ⟨{ timeout := false, late := false }, by decide +kernel⟩⟩⟩⟩,
  ⟨(lState[5]'(by decide)), ⟨1, ⟨0, ⟨{ timeout := false, late := false }, by decide +kernel⟩⟩⟩⟩,
  ⟨(lState[1]'(by decide)), ⟨1, ⟨0, ⟨{ timeout := false, late := false }, by decide +kernel⟩⟩⟩⟩,
  ⟨(lState[6]'(by decide)), ⟨1, ⟨0, ⟨{ timeout := false, late := false }, by decide +kernel⟩⟩⟩⟩,
  ⟨(lState[7]'(by decide)), ⟨1, ⟨1, ⟨{ timeout := false, late := false }, by decide +kernel⟩⟩⟩⟩,
  ⟨(lState[11]'(by decide)), ⟨1, ⟨3, ⟨{ timeout := false, late := false }, by decide +kernel⟩⟩⟩⟩,
  ⟨(lState[9]'(by decide)), ⟨1, ⟨3, ⟨{ timeout := false, late := false }, by decide +kernel⟩⟩⟩⟩,
  ⟨(lState[10]'(by decide)), ⟨1, ⟨3, ⟨{ timeout := false, late := false }, by decide +kernel⟩⟩⟩⟩,
  ⟨(lState[12]'(by decide)), ⟨1, ⟨3, ⟨{ timeout := false, late := false }, by decide +kernel⟩⟩⟩⟩,
  ⟨(lState[13]'(by decide)), ⟨1, ⟨3, ⟨{ timeout := false, late := false }, by decide +kernel⟩⟩⟩⟩⟩
end GatedActions

namespace ActionEffects
def cw (d : Dev) : Dev := { d with uhf := { d.uhf with st := .rxCw, carrier := true, lock := true, entry := some 0 }, set0 := { d.set0 with chan := [(0, 0x80000000), (1, 0x80000005)], plan := [(0,0xFFFFFFFF)] } }
def base : State := mapDev cw s1
def sm : List State := [th 0 (stw 0x10 0 0) id base, th 0 (stw 0x10 0 0) id s1, th 0 (stw 0x12 0 9) id s1, th 0 (stw 0x12 0 2) id s1, th 0 (stw 0x13 0 0) id base, th 3 (stw 0x31 0 0) id base, th 1 (stw 0x20 0 0) id (mapDev (fun d => { d with chA := { d.chA with st := .sampling }, pmu := { d.pmu with doms := d.pmu.doms.map fun x => { x with pos := .on } } }) base)]
def lDev : List Dev := sm.map State.dev
theorem witness_ActionEffects :
  (∃ (d : Dev), ∃ (n : Nat), (radioDown d = false) ∧ True) ∧
  (∃ (d : Dev), ∃ (n : Nat), (radioDown d = false) ∧ (NoWindows d) ∧ True) ∧
  (∃ (d : Dev), ∃ (n : Nat), (carriesRf d = false) ∧ True) ∧
  (∃ (d : Dev), ∃ (n : Nat), let a := stepArg (thr d n).word
∃ w, ((n = 1 ∨ n = 2)) ∧ (replyDesc d (a % 16) = some w) ∧ (bit (thr d n).word 6 = false) ∧ (chainDead d (n == 2) = false) ∧ (NoWindows d) ∧ ((d.uhf.st = .rxCw ∨ d.uhf.st = .rxListen)) ∧ (d.uhf.move = none) ∧ True) ∧
  (∃ (d : Dev), ∃ (n : Nat), let a := stepArg (thr d n).word
(a % 16 < 15) ∧ True) :=
  ⟨⟨(lDev[0]'(by decide)), ⟨0, by decide +kernel⟩⟩,
  ⟨(lDev[0]'(by decide)), ⟨0, by decide +kernel⟩⟩,
  ⟨(lDev[1]'(by decide)), ⟨0, by decide +kernel⟩⟩,
  ⟨(lDev[6]'(by decide)), ⟨1, ⟨0x00000000#32, by decide +kernel⟩⟩⟩,
  ⟨(lDev[0]'(by decide)), ⟨0, by decide +kernel⟩⟩⟩
end ActionEffects

namespace UhfFrameBits
def fd (h : Word) : Dev := { d1 with set0 := { d1.set0 with fb := [(0, h), (1, 0x12345678), (2, 0xDEADBEEF)] }, gen2 := { d1.gen2 with rn16 := some 0xA5C3 } }
def lDev : List Dev := [fd (0x80000000 + 22), fd (0x90000000 + 22), fd (0xA0000000 + 4*4096 + 40)]
theorem witness_UhfFrameBits :
  (∃ (d : Dev), ∃ (b ins : Nat), let h := fbWord d (16 * b)
(fld h 8 0 ≤ 480) ∧ ((ins = 0 ∨ fld h 20 12 + 16 ≤ fld h 8 0)) ∧ ∃ i, (i < fld h 8 0) ∧ (insWord d ins = none ∨ i < fld h 20 12 ∨ fld h 20 12 + 16 ≤ i) ∧ True) ∧
  (∃ (d : Dev), ∃ (b ins : Nat), let h := fbWord d (16 * b)
(fld h 8 0 ≤ 480) ∧ ((ins = 0 ∨ fld h 20 12 + 16 ≤ fld h 8 0)) ∧ ∃ v : BitVec 16, (ins ≠ 0) ∧ (insWord d ins = some v) ∧ ∃ i, (i < 16) ∧ True) ∧
  (∃ (d : Dev), ∃ (b ins : Nat), let h := fbWord d (16 * b)
(fld h 8 0 ≤ 480) ∧ ((ins = 0 ∨ fld h 20 12 + 16 ≤ fld h 8 0)) ∧ (fld h 29 28 = 1) ∧ True) ∧
  (∃ (d : Dev), ∃ (b ins : Nat), let h := fbWord d (16 * b)
(fld h 8 0 ≤ 480) ∧ ((ins = 0 ∨ fld h 20 12 + 16 ≤ fld h 8 0)) ∧ (fld h 29 28 = 2) ∧ True) :=
  ⟨⟨(lDev[0]'(by decide)), ⟨0, ⟨0, ⟨by decide +kernel, ⟨by decide +kernel, ⟨0, by decide +kernel⟩⟩⟩⟩⟩⟩,
  ⟨(lDev[0]'(by decide)), ⟨0, ⟨1, ⟨by decide +kernel, ⟨by decide +kernel, ⟨0xa5c3#16, ⟨by decide +kernel, ⟨by decide +kernel, ⟨0, by decide +kernel⟩⟩⟩⟩⟩⟩⟩⟩⟩,
  ⟨(lDev[1]'(by decide)), ⟨0, ⟨0, by decide +kernel⟩⟩⟩,
  ⟨(lDev[2]'(by decide)), ⟨0, ⟨0, by decide +kernel⟩⟩⟩⟩
end UhfFrameBits

namespace FrameEnd
def lState : List State := [mapDev (fun d => { d with uhf := { d.uhf with st := .tx, carrier := true } }) s1, s1]
theorem witness_FrameEnd :
  (∃ (s : State), ∃ (t : Nat), let x := tick t s.dev
(x.uhf.st = .tx) ∧ (x.uhf.move = none) ∧ ((∀ n, n < 3 → (thr x n).gate ≠ some .rx)) ∧ ((∀ o ∈ x.ops, o.pend = .none)) ∧ (x.cal.run = none) ∧ True) ∧
  (∃ (s : State), ∃ (t : Nat), let x := tick t s.dev
(x.uhf.st ≠ .tx ∨ x.uhf.move.isSome = true) ∧ True) :=
  ⟨⟨(lState[0]'(by decide)), ⟨0, by decide +kernel⟩⟩,
  ⟨(lState[1]'(by decide)), ⟨0, by decide +kernel⟩⟩⟩
end FrameEnd

namespace GatePass
def lState : List State := [th 0 (stw 0x10 0 3) (fun t => { t with st := .held, gate := some .slot }) s1, th 0 (stw 0x12 0 2) (fun t => { t with st := .held }) (mapDev (fun d => { d with set0 := { d.set0 with regs := [(Reg.UHF_AER_0 + 2, 0x80000000)] } }) s1)]
theorem witness_GatePass :
  (∃ (s : State), ∃ (t : Nat), let x := tick t s.dev
let w := (thr x 0).word
((thr x 0).st = .held) ∧ (stageOk x 1 = true) ∧ ((thr x 0).abort = .none) ∧ ((∀ o ∈ x.ops, o.pend = .none)) ∧ (x.chA.satRuns < 3) ∧ (x.chB.satRuns < 3) ∧ (x.cal.run = none) ∧ (x.tb.noiseRun = none) ∧ (stepAct w = 0x12) ∧ (carriesRf x = false) ∧ (aerialRefusal x (stepArg w % 16) = none) ∧ True) ∧
  (∃ (s : State), ∃ (t : Nat), let x := tick t s.dev
let w := (thr x 0).word
((thr x 0).st = .held) ∧ (stageOk x 1 = true) ∧ ((thr x 0).abort = .none) ∧ ((∀ o ∈ x.ops, o.pend = .none)) ∧ (x.chA.satRuns < 3) ∧ (x.chB.satRuns < 3) ∧ (x.cal.run = none) ∧ (x.tb.noiseRun = none) ∧ (stepAct w = 0x10) ∧ (stepArg w % 8 = 3) ∧ (inSlot x 0 = false) ∧ True) :=
  ⟨⟨(lState[1]'(by decide)), ⟨0, by decide +kernel⟩⟩,
  ⟨(lState[0]'(by decide)), ⟨0, by decide +kernel⟩⟩⟩
end GatePass

namespace Turns
def tn (d : Dev) : Dev := { d with seq := { d.seq with turn := some ⟨9, none, some 5, true⟩ } }
def lState : List State := [mapDev tn s1, s1]
theorem witness_Turns :
  (∃ (s : State), ∃ (t : Nat), let x := tick t s.dev
∃ a, ∃ t0, (x.seq.turn = some a) ∧ (a.armed = true) ∧ (a.t0 = some t0) ∧ (t0 ≤ t) ∧ (allReady x = true) ∧ (x.seq.stage = 0) ∧ True) ∧
  (∃ (s : State), ∃ (t : Nat), let x := tick t s.dev
∃ a, ∃ t0, (x.seq.turn = some a) ∧ (a.armed = true) ∧ (a.t0 = some t0) ∧ (t < t0 ∨ allReady x = false) ∧ True) ∧
  (∃ (s : State), ∃ (t : Nat), let x := tick t s.dev
∃ a, ∃ t0, (x.seq.turn = some a) ∧ (a.armed = true) ∧ (a.t0 = some t0) ∧ (t0 + turnTmo x ≤ t) ∧ True) ∧
  (∃ (s : State), ∃ (t : Nat), let x := tick t s.dev
∃ a, ∃ t0, (x.seq.turn = some a) ∧ (a.armed = true) ∧ (a.t0 = some t0) ∧ (t < t0 + turnTmo x) ∧ True) ∧
  (∃ (s : State), ∃ (t : Nat), let x := tick t s.dev
(x.seq.turn = none) ∧ True) :=
  ⟨⟨(lState[0]'(by decide)), ⟨5, ⟨{ tag := 9, slot := none, t0 := some 5, armed := true }, ⟨5, by decide +kernel⟩⟩⟩⟩,
  ⟨(lState[0]'(by decide)), ⟨0, ⟨{ tag := 9, slot := none, t0 := some 5, armed := true }, ⟨5, by decide +kernel⟩⟩⟩⟩,
  ⟨(lState[0]'(by decide)), ⟨10000000000, ⟨{ tag := 9, slot := none, t0 := some 5, armed := true }, ⟨5, by decide +kernel⟩⟩⟩⟩,
  ⟨(lState[0]'(by decide)), ⟨0, ⟨{ tag := 9, slot := none, t0 := some 5, armed := true }, ⟨5, by decide +kernel⟩⟩⟩⟩,
  ⟨(lState[1]'(by decide)), ⟨0, by decide +kernel⟩⟩⟩
end Turns

namespace WaitEnds
def at_ (t : Nat) (s : State) : State := { s with dev := tick t s.dev }
def sm : List State := [s1, at_ 5 (th 1 (stw 0 1 0 5) id s1), at_ 500 (th 1 (stw 0 1 0 5) id s1), at_ 500 (th 1 (stw 0 2 0 5) (fun t => { t with anchor := 3 }) s1), at_ 500 (th 1 (stw 0 2 0 5) (fun t => { t with anchor := 3, fetchAt := 2 }) s1), at_ 500 (th 1 (stw 0 2 0 5) (fun t => { t with anchor := 3, fetchAt := 400 }) s1),
  at_ 500 (th 1 (stw 0 3 0 5 0 0 0 false false true) id s1), at_ 500 (th 1 (stw 0 3 0 5 0 0 0) id s1), at_ 500 (th 1 (stw 0 5 0 0 0 0 0) id s1), at_ 500 (th 1 (stw 0 3 0 0 0 0 0 false false true) id s1), at_ 500 (th 1 (stw 0 0) id s1), at_ 500 (th 0 (stw 0 4) id (mapDev (fun d => { d with set0 := { d.set0 with plan := (List.range 15).map fun i => (i, 0xFFFFFFFF) }, tb := { d.tb with st := .locked, period := 819200000, slot := some 0, slotTick := 5 } }) s1))]
def lDev : List Dev := sm.map State.dev
theorem witness_WaitEnds :
  (∃ (d : Dev), ∃ (n : Nat), let t := thr d n
let w := t.word
(t.st = .waiting) ∧ (t.toFetch = false) ∧ (stepWk w = 0) ∧ True) ∧
  (∃ (d : Dev), ∃ (n : Nat), let t := thr d n
let w := t.word
(t.st = .waiting) ∧ (t.toFetch = false) ∧ (stepWk w = 1) ∧ True) ∧
  (∃ (d : Dev), ∃ (n : Nat), let t := thr d n
let w := t.word
let ticks := stepTime w * 16 ^ fld w 52 51
(t.st = .waiting) ∧ (t.toFetch = false) ∧ (stepWk w = 2) ∧ (t.fetchAt < t.anchor + ticks) ∧ True) ∧
  (∃ (d : Dev), ∃ (n : Nat), let t := thr d n
let w := t.word
let ticks := stepTime w * 16 ^ fld w 52 51
(t.st = .waiting) ∧ (t.toFetch = false) ∧ (stepWk w = 2) ∧ (t.anchor + ticks ≤ t.fetchAt) ∧ (t.fetchAt < d.now) ∧ True) ∧
  (∃ (d : Dev), ∃ (n : Nat), let t := thr d n
let w := t.word
(t.st = .waiting) ∧ (t.toFetch = false) ∧ (stepWk w = 3 ∨ stepWk w = 5) ∧ (t.fetchAt < d.now) ∧ (condPrev d n (stepWcond w) ≠ bit w 44) ∧ True) ∧
  (∃ (d : Dev), ∃ (n : Nat), let t := thr d n
let w := t.word
let ticks := stepTime w * 16 ^ fld w 52 51
let base := if stepWk w = 3 then t.fetchAt else t.anchor
(t.st = .waiting) ∧ (t.toFetch = false) ∧ (stepWk w = 3 ∨ stepWk w = 5) ∧ (t.fetchAt < d.now) ∧ (condPrev d n (stepWcond w) = bit w 44) ∧ (condNow d n (stepWcond w) = bit w 44) ∧ (stepTime w ≠ 0) ∧ (base + ticks ≤ d.now) ∧ True) ∧
  (∃ (d : Dev), ∃ (n : Nat), let t := thr d n
let w := t.word
let ticks := stepTime w * 16 ^ fld w 52 51
let base := if stepWk w = 3 then t.fetchAt else t.anchor
(t.st = .waiting) ∧ (t.toFetch = false) ∧ (stepWk w = 3 ∨ stepWk w = 5) ∧ (condPrev d n (stepWcond w) = bit w 44) ∧ (stepTime w = 0 ∨ d.now < base + ticks ∨ condNow d n (stepWcond w) ≠ bit w 44) ∧ True) ∧
  (∃ (d : Dev), ∃ (n : Nat), let t := thr d n
let w := t.word
(t.st = .waiting) ∧ (t.toFetch = false) ∧ (stepWk w = 4) ∧ (waitOver d n ≠ none) ∧ True) :=
  ⟨⟨(lDev[10]'(by decide)), ⟨1, by decide +kernel⟩⟩,
  ⟨(lDev[1]'(by decide)), ⟨1, by decide +kernel⟩⟩,
  ⟨(lDev[3]'(by decide)), ⟨1, by decide +kernel⟩⟩,
  ⟨(lDev[5]'(by decide)), ⟨1, by decide +kernel⟩⟩,
  ⟨(lDev[7]'(by decide)), ⟨1, by decide +kernel⟩⟩,
  ⟨(lDev[6]'(by decide)), ⟨1, by decide +kernel⟩⟩,
  ⟨(lDev[9]'(by decide)), ⟨1, by decide +kernel⟩⟩,
  ⟨(lDev[11]'(by decide)), ⟨0, by decide +kernel⟩⟩⟩
end WaitEnds

end Sys2Proof.Tests.P20

namespace Sys2Proof.Tests.P30

def uh (f : Uhf → Uhf) (s : State) : State := mapDev (fun d => { d with uhf := f d.uhf }) s
def rg (a : Nat) (v : Word) (s : State) : State := mapDev (fun d => { d with set0 := { d.set0 with regs := CMap.set (fun _ => 0) d.set0.regs a v }, set1 := { d.set1 with regs := CMap.set (fun _ => 0) d.set1.regs a v } }) s
def cc (a b : Canc) (s : State) : State := uh (fun u => { u with canc := [a, b] }) s
def k0 : Canc := ⟨.idle, 0, 0, false, 0, none, false, false⟩
def kA : Canc := ⟨.acq, 1, 2, false, 0, some 0, false, false⟩
def on (u : Uhf) : Uhf := { u with carrier := true, lock := true, st := .cwHold, entry := some 0 }
def sd (n : Nat) : State := mapDev (fun d => setDom n { dom d n with pos := .on, pend := none } d) s1

namespace UhfMonitors
def lState : List State := [rg Reg.UHF_DWELL_MAX 2 (uh on s1), rg Reg.UHF_DWELL_MAX 2 (uh (fun u => { on u with dwellAcc := 500000 }) (sd 8)), sd 8, uh on s1, uh (fun u => { on u with reflA := true, reflB := true, port := true }) s1]
theorem witness_UhfMonitors :
  (∃ (s : State), ∃ (t : Nat), let x := tick t s.dev
let u := x.uhf
let m := fld (cfg x Reg.UHF_DWELL_MAX) 15 0
(m ≠ 0) ∧ (1000 * m ≤ dwellUs x) ∧ (u.dwell = false) ∧ True) ∧
  (∃ (s : State), ∃ (t : Nat), let x := tick t s.dev
let u := x.uhf
let m := fld (cfg x Reg.UHF_DWELL_MAX) 15 0
(m = 0 ∨ dwellUs x < 1000 * m ∨ u.dwell = true) ∧ True) ∧
  (∃ (s : State), ∃ (t : Nat), let x := tick t s.dev
(domOn x 8 = true) ∧ True) ∧
  (∃ (s : State), ∃ (t : Nat), let x := tick t s.dev
let u := x.uhf
∃ p, ∃ fwd, ∃ ref, (u.carrier = true) ∧ (u.port = p) ∧ (fwd < 4096) ∧ (ref < 4096) ∧ True) ∧
  (∃ (s : State), ∃ (t : Nat), let x := tick t s.dev
let u := x.uhf
∃ p, (u.carrier = false ∨ u.port ≠ p) ∧ True) ∧
  (∃ (s : State), ∃ (t : Nat), let x := tick t s.dev
let u := x.uhf
(u.carrier = false) ∧ True) :=
  ⟨⟨(lState[0]'(by decide)), ⟨500000, by decide +kernel⟩⟩,
  ⟨(lState[0]'(by decide)), ⟨0, by decide +kernel⟩⟩,
  ⟨(lState[1]'(by decide)), ⟨0, by decide +kernel⟩⟩,
  ⟨(lState[0]'(by decide)), ⟨0, ⟨false, ⟨0, ⟨0, by decide +kernel⟩⟩⟩⟩⟩,
  ⟨(lState[0]'(by decide)), ⟨0, ⟨true, by decide +kernel⟩⟩⟩,
  ⟨(lState[2]'(by decide)), ⟨0, by decide +kernel⟩⟩⟩
end UhfMonitors

namespace FrontEndPins
def lDev : List Dev := [s1.dev, (uh on s1).dev, (sd 8).dev, (rg Reg.UHF_SW_CFG 0xF (sd 8)).dev, (mapDev (fun d => { d with pmu := { d.pmu with vioA := false, vioB := false } }) (sd 8)).dev, (rg Reg.UHF_COEX_CFG 0x7F (uh on (sd 8))).dev]
theorem witness_FrontEndPins :
  (∃ (d : Dev), ∃ (p : Bool), ((dom d 8).pos = .off ∨ d.pmu.vioB = false) ∧ True) ∧
  (∃ (d : Dev), ∃ (p : Bool), ((dom d 8).pos ≠ .off) ∧ (d.pmu.vioB = true) ∧ True) ∧
  (∃ (d : Dev), ∃ (p : Bool), (d.pmu.vioA = false) ∧ True) ∧
  (∃ (d : Dev), ∃ (p : Bool), (d.pmu.vioA = true) ∧ True) :=
  ⟨⟨(lDev[0]'(by decide)), ⟨true, by decide +kernel⟩⟩,
  ⟨(lDev[2]'(by decide)), ⟨true, by decide +kernel⟩⟩,
  ⟨(lDev[4]'(by decide)), ⟨true, by decide +kernel⟩⟩,
  ⟨(lDev[0]'(by decide)), ⟨true, by decide +kernel⟩⟩⟩
end FrontEndPins

namespace RadioTransitions
def mv (m : Move) (s : State) := uh (fun u => { u with move := some m }) s
def ms : List Move := [⟨.cwHold, 5, false, 0, true, 0, none, false⟩, ⟨.cwHold, 5, false, 0, false, 0, none, false⟩, ⟨.synthOn, 5, false, 0, false, 0, some 2, false⟩, ⟨.rxListen, 5, false, 0, false, 0, none, false⟩, ⟨.rxCw, 5, false, 0, true, 0, none, false⟩, ⟨.sleep, 5, false, 0, false, 0, none, false⟩, ⟨.cwHold, 5, false, 0, false, 0, none, true⟩, ⟨.cwHold, 5, true, 0, false, 0, none, false⟩]
def lMove : List Move := ms
def lState : List State := [s1] ++ ms.map (fun m => mv m s1) ++ ms.map (fun m => mv m (uh on s1)) ++ ms.map (fun m => mv m (uh (fun u => { u with lock := true, entry := some 1, port := true, aerial := 9 }) s1))
theorem witness_RadioTransitions :
  (∃ (s : State), ∃ (t : Nat), let x := tick t s.dev
∃ m, (x.uhf.move = some m) ∧ (m.waitLock = false) ∧ (m.done ≤ t) ∧ (m.seeded = false) ∧ (m.ramp = true) ∧ True) ∧
  (∃ (s : State), ∃ (t : Nat), let x := tick t s.dev
∃ m, (x.uhf.move = some m) ∧ (m.waitLock = false) ∧ (m.done ≤ t) ∧ (m.seeded = false) ∧ (m.hop = none) ∧ True) ∧
  (∃ (s : State), ∃ (t : Nat), let x := tick t s.dev
∃ m, (x.uhf.move = some m) ∧ (m.waitLock = false) ∧ (m.done ≤ t) ∧ (m.seeded = false) ∧ (m.target = .cwHold) ∧ (x.uhf.carrier = false) ∧ True) ∧
  (∃ (s : State), ∃ (t : Nat), let x := tick t s.dev
∃ m, (x.uhf.move = some m) ∧ (m.waitLock = false) ∧ (m.done ≤ t) ∧ (m.seeded = true) ∧ (m.ramp = false) ∧ True) ∧
  (∃ (s : State), ∃ (t : Nat), let x := tick t s.dev
∃ m, (x.uhf.move = some m) ∧ (m.waitLock = true ∨ t < m.done) ∧ True) ∧
  (∃ (s : State), ∃ (t : Nat), let x := tick t s.dev
(x.uhf.move = none) ∧ True) :=
  ⟨⟨(lState[1]'(by decide)), ⟨5, ⟨(lMove[0]'(by decide)), by decide +kernel⟩⟩⟩,
  ⟨(lState[1]'(by decide)), ⟨5, ⟨(lMove[0]'(by decide)), by decide +kernel⟩⟩⟩,
  ⟨(lState[1]'(by decide)), ⟨5, ⟨(lMove[0]'(by decide)), by decide +kernel⟩⟩⟩,
  ⟨(lState[7]'(by decide)), ⟨5, ⟨(lMove[6]'(by decide)), by decide +kernel⟩⟩⟩,
  ⟨(lState[1]'(by decide)), ⟨0, ⟨(lMove[0]'(by decide)), by decide +kernel⟩⟩⟩,
  ⟨(lState[0]'(by decide)), ⟨0, by decide +kernel⟩⟩⟩
end RadioTransitions

namespace CarrierDown
def lkw : State := mapDev (fun d => { d with tb := { d.tb with st := .locked, period := 819200000 }, set0 := { d.set0 with plan := (List.range 15).map fun i => (i, 0xFFFFFFFF) } }) s1
def sm : List State := [uh (fun u => { on u with lock := false, exchange := true }) (sd 8), lkw, uh on s1, uh (fun u => { on u with aerial := 9, port := true }) s1, uh (fun u => { on u with st := .rxCw }) s1, uh (fun u => { u with st := .synthOn }) s1]
def lState : List State := sm
def lDev : List Dev := sm.map State.dev
def lMove : List Move := []
theorem witness_CarrierDown :
  (∃ (s : State), ∃ (t : Nat), let x := tick t s.dev
let u := x.uhf
(u.carrier = true) ∧ (u.move = none) ∧ (u.lock = true) ∧ (u.st = .cwHold) ∧ (NoWindows x) ∧ (fld (cfg x Reg.UHF_RADIO_CFG) 5 4 ≠ 2) ∧ (windowLeft x ≤ us 4) ∧ True) ∧
  (∃ (s : State), ∃ (t : Nat), let x := tick t s.dev
(us 4 < windowLeft x) ∧ True) ∧
  (∃ (s : State), ∃ (t : Nat), let x := tick t s.dev
let u := x.uhf
(u.carrier = false) ∧ ((∀ m, u.move = some m → m.ramp = false)) ∧ (windowLeft x ≤ us 4) ∧ True) ∧
  (∃ (s : State), ∃ (t : Nat), let x := tick t s.dev
let u := x.uhf
(u.carrier = false ∨ u.lock = false) ∧ True) ∧
  (∃ (s : State), ∃ (t : Nat), ∃ d, (NoWindows d) ∧ (d.uhf.st ≠ .sleep) ∧ (d.uhf.lock = false) ∧ (domOn d 8 = true) ∧ (d.uhf.exchange = true) ∧ True) :=
  ⟨⟨(lState[2]'(by decide)), ⟨0, by decide +kernel⟩⟩,
  ⟨(lState[1]'(by decide)), ⟨0, by decide +kernel⟩⟩,
  ⟨(lState[5]'(by decide)), ⟨0, by decide +kernel⟩⟩,
  ⟨(lState[0]'(by decide)), ⟨0, by decide +kernel⟩⟩,
  ⟨(lState[0]'(by decide)), ⟨0, ⟨(lDev[0]'(by decide)), by decide +kernel⟩⟩⟩⟩
end CarrierDown

namespace LockWaits
def m1 : Move := ⟨.cwHold, 5, true, 77, false, 0, none, false⟩
def m2 : Move := ⟨.synthOn, 5, true, 0, false, 0, none, false⟩
def lMove : List Move := [m1, m2]
def lState : List State := [uh (fun u => { u with move := some m1 }) s1, uh (fun u => { u with move := some m2 }) s1, th 0 (stw 0x13 1) (fun t => { t with st := .held, gate := some .lock }) (uh (fun u => { u with heldAt := some 3 }) s1), uh (fun u => { u with heldAt := some 3 }) s1, s1]
theorem witness_LockWaits :
  (∃ (s : State), ∃ (t : Nat), let x := tick t s.dev
let u := x.uhf
∃ m, (u.move = some m) ∧ (m.waitLock = true) ∧ (m.rest ≠ 0) ∧ (m.ramp = false) ∧ (u.heldAt = none) ∧ ((thr x 0).st ≠ .held) ∧ ((∀ o ∈ x.ops, o.pend = .none)) ∧ (x.chA.satRuns < 3) ∧ (x.chB.satRuns < 3) ∧ True) ∧
  (∃ (s : State), ∃ (t : Nat), let x := tick t s.dev
let u := x.uhf
∃ m, (u.move = some m) ∧ (m.waitLock = true) ∧ (m.rest = 0) ∧ (m.ramp = false) ∧ (u.heldAt = none) ∧ ((thr x 0).st ≠ .held) ∧ ((∀ o ∈ x.ops, o.pend = .none)) ∧ (x.chA.satRuns < 3) ∧ (x.chB.satRuns < 3) ∧ True) ∧
  (∃ (s : State), ∃ (t : Nat), let x := tick t s.dev
let u := x.uhf
∃ a, (u.heldAt = some a) ∧ (u.hopAt = none) ∧ (a + lockHold x ≤ x.now) ∧ (u.lock = false) ∧ ((thr x 0).st = .held) ∧ ((thr x 0).gate = some .lock) ∧ True) ∧
  (∃ (s : State), ∃ (t : Nat), let x := tick t s.dev
let u := x.uhf
(u.heldAt = none) ∧ (u.hopAt = none) ∧ True) ∧
  (∃ (s : State), ∃ (t : Nat), let x := tick t s.dev
let u := x.uhf
(inSlot x 0 = false) ∧ (u.heldAt = none) ∧ True) ∧
  (∃ (s : State), ∃ (t : Nat), let x := tick t s.dev
let u := x.uhf
(inSlot x 0 = true ∨ u.heldAt.isSome = true) ∧ True) :=
  ⟨⟨(lState[0]'(by decide)), ⟨0, ⟨(lMove[0]'(by decide)), by decide +kernel⟩⟩⟩,
  ⟨(lState[1]'(by decide)), ⟨0, ⟨(lMove[1]'(by decide)), by decide +kernel⟩⟩⟩,
  ⟨(lState[2]'(by decide)), ⟨165000, ⟨3, by decide +kernel⟩⟩⟩,
  ⟨(lState[0]'(by decide)), ⟨0, by decide +kernel⟩⟩,
  ⟨(lState[0]'(by decide)), ⟨0, by decide +kernel⟩⟩,
  ⟨(lState[2]'(by decide)), ⟨0, by decide +kernel⟩⟩⟩
end LockWaits

namespace Cancellers
def lState : List State := [cc kA k0 (uh on s1), cc k0 k0 s1, cc k0 { kA with acqAcc := 50 } (rg Reg.UHF_CANC_CFG 0x10000 s1), cc k0 kA { s1 with tagm := { s1.tagm with hostW := none } }, { s1 with tagm := { s1.tagm with hostW := none } , dev := setDom 8 { dom s1.dev 8 with pos := .on, pend := none } s1.dev}]
theorem witness_Cancellers :
  (∃ (s : State), ∃ (t : Nat), ∃ (b : Bool), let x := tick t s.dev
let c := canc x b
let thr_ := toSigned 8 (fld (cfg x Reg.UHF_CANC_CFG) 15 8)
∃ r, (c.st = .acq) ∧ (cancFree x b = true) ∧ (r ≤ thr_) ∧ True) ∧
  (∃ (s : State), ∃ (t : Nat), ∃ (b : Bool), let x := tick t s.dev
let c := canc x b
let thr_ := toSigned 8 (fld (cfg x Reg.UHF_CANC_CFG) 15 8)
∃ r, (c.st ≠ .acq ∨ cancFree x b = false ∨ thr_ < r) ∧ True) ∧
  (∃ (s : State), ∃ (t : Nat), ∃ (b : Bool), let x := tick t s.dev
let c := canc x b
(c.st = .acq) ∧ (c.failed = false) ∧ (us (fld (cfg x Reg.UHF_CANC_CFG) 23 16) ≤ acqTicks x c) ∧ True) ∧
  (∃ (s : State), ∃ (t : Nat), ∃ (b : Bool), let x := tick t s.dev
let c := canc x b
(c.st ≠ .acq ∨ c.failed = true ∨ acqTicks x c < us (fld (cfg x Reg.UHF_CANC_CFG) 23 16)) ∧ True) ∧
  (∃ (s : State), ∃ (t : Nat), ∃ (b : Bool), let x := tick t s.dev
(s.tagm.hostW = none) ∧ (domPower x 8 = .on) ∧ True) :=
  ⟨⟨(lState[0]'(by decide)), ⟨0, ⟨false, ⟨(-200), by decide +kernel⟩⟩⟩⟩,
  ⟨(lState[0]'(by decide)), ⟨0, ⟨true, ⟨(-200), by decide +kernel⟩⟩⟩⟩,
  ⟨(lState[2]'(by decide)), ⟨200, ⟨true, by decide +kernel⟩⟩⟩,
  ⟨(lState[0]'(by decide)), ⟨0, ⟨true, by decide +kernel⟩⟩⟩,
  ⟨(lState[4]'(by decide)), ⟨0, ⟨true, by decide +kernel⟩⟩⟩⟩
end Cancellers

namespace Coexistence
def iss : State := th 0 (stw 0x13 1 0 3) id (rg Reg.UHF_COEX_CFG 0x0001ff0f (uh (fun u => { on u with gntPin := false, coexU := { u.coexU with req := false } }) s1))
def lkd : State := mapDev (fun d => { d with tb := { d.tb with st := .locked, period := 819200000 }, set0 := { d.set0 with chan := [(0, 0x80000000), (1, 0x80000005)], plan := (List.range 15).map fun i => (i, 0xFFFFFFFF), fb := [(0, 0x80000010)], hffb := [(0, 0x80000010)], regs := [(Reg.UHF_AER_0, 0x80000000),(Reg.UHF_COEX_CFG, 0x0001ff0f)] } }) iss
def lState : List State := [s1, iss, lkd, mapDev (fun d => updThr 0 (fun t => { t with st := .held, gate := some .lock }) d) lkd, uh (fun u => { u with lock := false, gntPin := true }) (mapDev (fun d => setDom 8 { dom d 8 with pos := .on, pend := none } d) lkd), rg Reg.UHF_COEX_CFG 0x0001ff07 (uh (fun u => { u with gntPin := true }) s1), mapDev (fun d => { d with pmu := { d.pmu with vioA := false } }) s1, uh (fun u => { u with lock := false, gntPin := true }) iss]
theorem witness_Coexistence :
  (∃ (s : State), ∃ (t : Nat), let x := tick t s.dev
let u := x.uhf
let c := cfg x Reg.UHF_COEX_CFG
let w := (thr x 0).word
∃ i, (issueAt x 0 = some i) ∧ (issueAt x 3 = none) ∧ (actGated x w = true) ∧ (listenHop x w = false) ∧ (coexFor x 0 w = true) ∧ (u.coexU.req = false) ∧ (i ≤ x.now + us (fld c 15 8)) ∧ True) ∧
  (∃ (s : State), ∃ (t : Nat), let x := tick t s.dev
(issueAt x 0 = none) ∧ (issueAt x 3 = none) ∧ True) ∧
  (∃ (s : State), ∃ (t : Nat), let x := tick t s.dev
(x.pmu.vioA = true) ∧ ((thr x 0).st ≠ .held) ∧ ((thr x 3).st ≠ .held) ∧ ((∀ o ∈ x.ops, o.pend = .none)) ∧ (x.chA.satRuns < 3) ∧ (x.chB.satRuns < 3) ∧ True) ∧
  (∃ (s : State), ∃ (t : Nat), let x := tick t s.dev
(x.pmu.vioA = false) ∧ True) ∧
  (∃ (s : State), ∃ (t : Nat), let x := tick t s.dev
let u := x.uhf
let c := cfg x Reg.UHF_COEX_CFG
let w := (thr x 0).word
((thr x 0).st = .held) ∧ ((thr x 0).gate = some .lock) ∧ ((thr x 3).st ≠ .held) ∧ (coexFor x 0 w = true) ∧ (gntCounts x = false) ∧ (u.lock = true) ∧ (u.coexU.planned + us (fld c 31 16) ≤ x.now) ∧ True) ∧
  (∃ (s : State), ∃ (t : Nat), let x := tick t s.dev
let c := cfg x Reg.UHF_COEX_CFG
(x.pmu.vioA = true) ∧ (bit c 3 = false) ∧ True) ∧
  (∃ (s : State), ∃ (t : Nat), let x := tick t s.dev
let u := x.uhf
let c := cfg x Reg.UHF_COEX_CFG
(x.pmu.vioA = true) ∧ (bit c 3 = true) ∧ (u.carrier = true) ∧ (coexGated x 0 = true) ∧ (gntOn x = true) ∧ (NoWindows x) ∧ (u.st ≠ .sleep) ∧ (u.lock = false) ∧ (domOn x 8 = true) ∧ (x.hf.field = 0) ∧ True) :=
  ⟨⟨(lState[1]'(by decide)), ⟨0, ⟨3, by decide +kernel⟩⟩⟩,
  ⟨(lState[0]'(by decide)), ⟨0, by decide +kernel⟩⟩,
  ⟨(lState[0]'(by decide)), ⟨0, by decide +kernel⟩⟩,
  ⟨(lState[6]'(by decide)), ⟨0, by decide +kernel⟩⟩,
  ⟨(lState[3]'(by decide)), ⟨200, by decide +kernel⟩⟩,
  ⟨(lState[0]'(by decide)), ⟨0, by decide +kernel⟩⟩,
  ⟨(lState[4]'(by decide)), ⟨0, by decide +kernel⟩⟩⟩
end Coexistence

namespace Blanking
def lState : List State := [s1, rg Reg.UHF_BLANK_CFG 0x05060007 s1, cc { k0 with st := .track } { k0 with st := .track } (rg Reg.UHF_BLANK_CFG 0x05060307 (uh (fun u => { on u with blank0 := ⟨true, 0⟩, blank1 := ⟨false, 3⟩ }) s1)), cc { k0 with st := .track } { k0 with st := .track } (rg Reg.UHF_BLANK_CFG 0x05060007 (uh (fun u => { on u with blank0 := ⟨true, 0⟩, blank1 := ⟨false, 3⟩ }) s1))]
theorem witness_Blanking :
  (∃ (s : State), ∃ (t : Nat), ∃ (which : Bool), let x := tick t s.dev
((blankIn x which).extEnd ≤ t) ∧ (blankLevel x which = false) ∧ True) ∧
  (∃ (s : State), ∃ (t : Nat), ∃ (which : Bool), let x := tick t s.dev
(t < (blankIn x which).extEnd ∨ blankLevel x which = true) ∧ True) :=
  ⟨⟨(lState[0]'(by decide)), ⟨0, ⟨true, by decide +kernel⟩⟩⟩,
  ⟨(lState[2]'(by decide)), ⟨0, ⟨true, by decide +kernel⟩⟩⟩⟩
end Blanking

end Sys2Proof.Tests.P30

namespace Sys2Proof.Tests.P31

def ch (f : Chain → Chain) (s : State) : State := mapDev (fun d => { d with chA := f d.chA, chB := f d.chB }) s
def rg (a : Nat) (v : Word) (s : State) : State := mapDev (fun d => setReg a v { d with set0 := { d.set0 with regs := CMap.set (fun _ => 0) d.set0.regs a v }, set1 := { d.set1 with regs := CMap.set (fun _ => 0) d.set1.regs a v } }) s
def pw (n : Nat) (s : State) : State := mapDev (fun d => setDom n { dom d n with pos := .on, pend := none } d) s
def sP : State := pw 8 (pw 5 (pw 9 (pw 10 s1)))
def sU : State := { sP with tagm := { sP.tagm with hostW := none } }
def w0 : Window := { thr := 0, desc := 0x00000010, div := true, sep := true, pair := true, dead := false, blanked := false, unset := false, sat := false, satAll := none, teRose := false, synced := false, erased := false, snr := 0, bits := [] }
def op0 : Op := ⟨7, 0x300, 2, 0, false, false, true, .running, .none, false, false, 0, 0, 0, 0, 1, [0,0,0,0], 0, none, false, [], none, none, false⟩

namespace ChainControl
def lState : List State := [sU, ch (fun c => { c with st := .stopped, stock := true, active := 0 }) sU, ch (fun c => { c with st := .stopped, stock := true, runAt := some 0 }) sU, ch (fun c => { c with st := .stopped, stock := false, runAt := some 0 }) sU, ch (fun c => { c with st := .idle }) sU, ch (fun c => { c with st := .sampling, stopPend := true }) sU]
theorem witness_ChainControl :
  (∃ (s : State), ∃ (t : Nat), ∃ (r : Reader), ∃ (b : Bool), (s.tagm.hostW = none) ∧ let x := tick t s.dev
let c := chain x b
(domPower x (if b then 10 else 9) = .on) ∧ (fenced x (if b then 0x0D else 0x0C) = false) ∧ ∃ a, ∃ u, (x.now < u) ∧ (c.st = .stopped) ∧ (c.runAt = some a) ∧ (a ≤ x.now) ∧ (radioReceives x = false) ∧ (bankValid c (fld (cfg x (chReg b 8)) 9 8) = true) ∧ True) ∧
  (∃ (s : State), ∃ (t : Nat), ∃ (r : Reader), ∃ (b : Bool), (s.tagm.hostW = none) ∧ let x := tick t s.dev
let c := chain x b
(domPower x (if b then 10 else 9) = .on) ∧ (fenced x (if b then 0x0D else 0x0C) = false) ∧ ∃ a, ∃ u, (x.now < u) ∧ (c.st = .stopped) ∧ (c.runAt = some a) ∧ (a ≤ x.now) ∧ (radioReceives x = false) ∧ (bankValid c (fld (cfg x (chReg b 8)) 9 8) = false) ∧ True) :=
  ⟨⟨(lState[2]'(by decide)), ⟨0, ⟨(Sys2Proof.Reader.spiA), ⟨true, ⟨by decide +kernel, ⟨by decide +kernel, ⟨by decide +kernel, ⟨0, ⟨1, by decide +kernel⟩⟩⟩⟩⟩⟩⟩⟩⟩,
  ⟨(lState[3]'(by decide)), ⟨0, ⟨(Sys2Proof.Reader.spiA), ⟨true, ⟨by decide +kernel, ⟨by decide +kernel, ⟨by decide +kernel, ⟨0, ⟨1, by decide +kernel⟩⟩⟩⟩⟩⟩⟩⟩⟩⟩
end ChainControl

namespace CoefficientPort
def sm : List State := [ch (fun c => { c with st := .stopped, stock := true }) sU, ch (fun c => { c with st := .idle }) sU]
def lState : List State := sm ++ sm.map (fun s => rg 0x438 0x800004FF (rg 0x3D8 0x07FF s)) ++ sm.map (fun s => rg 0x438 0x7 (rg 0x3D8 0x500 s))
theorem witness_CoefficientPort :
  (∃ (s : State), ∃ (t : Nat), ∃ (r : Reader), ∃ (b : Bool), (s.tagm.hostW = none) ∧ let x := tick t s.dev
let c := chain x b
let p := chReg b 0x18
let a := fld (reg x p) 10 0
(domPower x (if b then 10 else 9) = .on) ∧ (a < 0x500) ∧ (c.st = .stopped) ∧ True) ∧
  (∃ (s : State), ∃ (t : Nat), ∃ (r : Reader), ∃ (b : Bool), (s.tagm.hostW = none) ∧ let x := tick t s.dev
let c := chain x b
let p := chReg b 0x18
let a := fld (reg x p) 10 0
(domPower x (if b then 10 else 9) = .on) ∧ (a < 0x500) ∧ (c.st ≠ .stopped) ∧ True) :=
  ⟨⟨(lState[0]'(by decide)), ⟨0, ⟨(Sys2Proof.Reader.spiA), ⟨true, by decide +kernel⟩⟩⟩⟩,
  ⟨(lState[1]'(by decide)), ⟨0, ⟨(Sys2Proof.Reader.spiA), ⟨true, by decide +kernel⟩⟩⟩⟩⟩
end CoefficientPort

namespace Detectors
def big : List (Int × Int) := List.replicate 2 (100000, -3000)
def smp (c : Chain) : Chain := { c with st := .sampling, stock := false, coef := [(0, 0x1FFFF), (255, 0x10001)] , entryAt := 0}
def sm (v : Word) : State := mapDev (fun d => { d with now := 800000 }) (ch smp ((List.range 0x20).foldl (fun s k => rg (0x3CC + k % 4 + 0x60 * (k / 4)) v s) sU))
def lState : List State := [sm 0x81000020, sm 0x81020007, sm 0x01020007, sm 0x82020007, ch (fun c => { c with cs := true, te := true, ifl := true }) (sm 0x81030001), ch (fun c => { c with cs := true, te := true, ifl := true }) (sm 0x810103FF), ch (fun c => { c with cs := true, te := true, ifl := true }) (sm 0x810F0008), sU]
theorem witness_Detectors :
  (∃ (s : State), ∃ (t : Nat), ∃ (b : Bool), ∃ (k : DetBlock), let x := tick t s.dev
let c := chain x b
(c.st = .sampling) ∧ True) ∧
  (∃ (s : State), ∃ (t : Nat), ∃ (b : Bool), ∃ (k : DetBlock), let x := tick t s.dev
let c := chain x b
(c.st ≠ .sampling) ∧ True) :=
  ⟨⟨(lState[0]'(by decide)), ⟨0, ⟨true, ⟨{ det := 0, samples := [(100000, -3000), (100000, -3000)], stages := [] }, by decide +kernel⟩⟩⟩⟩,
  ⟨(lState[7]'(by decide)), ⟨0, ⟨true, ⟨{ det := 0, samples := [(100000, -3000), (100000, -3000)], stages := [] }, by decide +kernel⟩⟩⟩⟩⟩
end Detectors

namespace FramesDecided
def lWindow : List Window := [{ w0 with synced := true, snr := 9 }, { w0 with synced := true, desc := 0x2000001F, sep := true }, w0, { w0 with synced := true, pair := false, desc := 0xB0000000 }]
def wn (w : Window) : State := mapDev (fun d => { d with now := 4000000 }) (ch (fun c => { c with st := .sampling, win := some w, decValid := false, runPath := 0x2, blf := 250000, syncAt := 3990000 }) sU)
def bf : List State := lWindow.map wn
def lState : List State := bf ++ bf.map (fun s => ch (fun c => { c with entryAt := 3995000, marks := [(3995000, 3999999)] }) s) ++ bf.map (fun s => mapDev (fun d => { d with pair := { d.pair with taken := true } }) s)
theorem witness_FramesDecided :
  (∃ (s : State), ∃ (t : Nat), ∃ (b : Bool), ∃ (w : Window), ∃ (bits : List Bool), ∃ (stages : List StageIn), let x := tick t s.dev
let c := chain x b
let n := replyLen w.desc bits
(c.win = some w) ∧ (w.synced = true) ∧ (w.erased = false) ∧ (c.decValid = false) ∧ (n ≤ bits.length) ∧ True) ∧
  (∃ (s : State), ∃ (t : Nat), ∃ (b : Bool), ∃ (w : Window), ∃ (bits : List Bool), ∃ (stages : List StageIn), let x := tick t s.dev
let c := chain x b
let n := replyLen w.desc bits
(c.win = some w) ∧ (w.synced = false ∨ w.erased = true ∨ c.decValid = true ∨ bits.length < n) ∧ True) :=
  ⟨⟨(lState[0]'(by decide)), ⟨0, ⟨true, ⟨(lWindow[0]'(by decide)), ⟨[true, true, true, true, true, true, true, true, true, true, true, true, true, true, true, true], ⟨[], by decide +kernel⟩⟩⟩⟩⟩⟩,
  ⟨(lState[0]'(by decide)), ⟨0, ⟨true, ⟨(lWindow[0]'(by decide)), ⟨[], ⟨[], by decide +kernel⟩⟩⟩⟩⟩⟩⟩
end FramesDecided

namespace Separations
def wn (w : Window) : State := mapDev (fun d => { d with now := 4000000, pair := { d.pair with sync := true } }) (ch (fun c => { c with st := .sampling, win := some w, decValid := true, runPath := 0x2, blf := 250000, syncAt := 3990000 }) sU)
def bf : List State := [wn { w0 with synced := true }, wn w0, wn { w0 with synced := true, sep := false }].map (rg Reg.RXD_SEP_CFG 1)
def lState : List State := bf ++ bf.map (fun s => ch (fun c => { c with decValid := false }) s) ++ bf.map (fun s => mapDev (fun d => { d with pair := { d.pair with sepDone := true } }) s)
theorem witness_Separations :
  (∃ (s : State), ∃ (t : Nat), ∃ (res : SepResult), let x := tick t s.dev
let runs := fun (b : Bool) => (chain x b).win.any fun w => sepRuns x w && w.synced
(runs false = true ∨ runs true = true) ∧ (x.pair.sepDone = false) ∧ (frameOver x.chA = true) ∧ (frameOver x.chB = true) ∧ (res.parityOk = true) ∧ True) ∧
  (∃ (s : State), ∃ (t : Nat), ∃ (res : SepResult), let x := tick t s.dev
let runs := fun (b : Bool) => (chain x b).win.any fun w => sepRuns x w && w.synced
(runs false = true ∨ runs true = true) ∧ (x.pair.sepDone = false) ∧ (frameOver x.chA = true) ∧ (frameOver x.chB = true) ∧ (res.parityOk = false) ∧ True) ∧
  (∃ (s : State), ∃ (t : Nat), ∃ (res : SepResult), let x := tick t s.dev
let runs := fun (b : Bool) => (chain x b).win.any fun w => sepRuns x w && w.synced
((runs false = false ∧ runs true = false) ∨ x.pair.sepDone = true ∨ frameOver x.chA = false ∨ frameOver x.chB = false) ∧ True) :=
  ⟨⟨(lState[0]'(by decide)), ⟨0, ⟨{ points := [], sigma := 1, vecs := [], bits := [], parityOk := true }, by decide +kernel⟩⟩⟩,
  ⟨(lState[0]'(by decide)), ⟨0, ⟨{ points := [], sigma := 1, vecs := [], bits := [], parityOk := false }, by decide +kernel⟩⟩⟩,
  ⟨(lState[1]'(by decide)), ⟨0, ⟨{ points := [], sigma := 1, vecs := [], bits := [], parityOk := true }, by decide +kernel⟩⟩⟩⟩
end Separations

namespace InventoryEntries
def lOp : List Op := [op0]
def e0 : List Word := [0x00000003, 0, 7, 0]
def sl : SlotRec := ⟨4, 3, [], 0⟩
def iv (g : Gen2 → Gen2) : State := mapDev (fun d => { updThr 0 (fun t => { t with op := some 7 }) d with ops := [op0], seq := { (updThr 0 (fun t => { t with op := some 7 }) d).seq with log := [e0] }, gen2 := g { d.gen2 with sent := [sl], q := 4, fslot := 3, cutRace := false, stale := false } }) sU
def lState : List State := [sU, mapDev (fun d => { d with seq := { d.seq with log := [[0xC0000003, 0, 7, 0]] } }) sU, iv id, iv (fun g => { g with qfp := 64 }), rg 0x533 0xFFFFFFFF (rg Reg.GEN2_QALG 0xF05 (iv (fun g => { g with qfp := 64, sent := [sl, sl] })))]
theorem witness_InventoryEntries :
  (∃ (s : State), ∃ (t : Nat), ∃ (r : Option TagRead), let x := tick t s.dev
(x.seq.log = []) ∧ True) ∧
  (∃ (s : State), ∃ (t : Nat), ∃ (r : Option TagRead), let x := tick t s.dev
∃ (e : List Word), ∃ (rest : List (List Word)), ∃ (o : Op), ∃ (sl : SlotRec), ∃ (more : List SlotRec), (x.seq.log = e :: rest) ∧ (entryThread e = 0) ∧ ((thr x 0).op = some o.tag) ∧ (findOp x o.tag = some o) ∧ (o.opcode = 0x300) ∧ (entryCode e = 0x03) ∧ (entryOutcome e = 7) ∧ (x.gen2.sent = sl :: more) ∧ (sl.fslot + 1 < 2 ^ sl.q) ∧ (x.gen2.cutRace = false) ∧ (x.gen2.stale = false) ∧ True) ∧
  (∃ (s : State), ∃ (t : Nat), ∃ (r : Option TagRead), let x := tick t s.dev
∃ (e : List Word), ∃ (rest : List (List Word)), (x.seq.log = e :: rest) ∧ ((thr x (entryThread e)).op = none) ∧ True) :=
  ⟨⟨(lState[0]'(by decide)), ⟨0, ⟨(some { rssi := 0x03#8, phase := 0x04#8 }), by decide +kernel⟩⟩⟩,
  ⟨(lState[2]'(by decide)), ⟨0, ⟨(some { rssi := 0x03#8, phase := 0x04#8 }), ⟨[0x00000003#32, 0x00000000#32, 0x00000007#32, 0x00000000#32], ⟨[], ⟨(lOp[0]'(by decide)), ⟨{ q := 4, fslot := 3, frame := [], aerial := 0 }, ⟨[], by decide +kernel⟩⟩⟩⟩⟩⟩⟩⟩,
  ⟨(lState[1]'(by decide)), ⟨0, ⟨(some { rssi := 0x03#8, phase := 0x04#8 }), ⟨[0xc0000003#32, 0x00000000#32, 0x00000007#32, 0x00000000#32], ⟨[], by decide +kernel⟩⟩⟩⟩⟩⟩
end InventoryEntries

namespace AccessUnits
def oa : Op := { op0 with opcode := 0x401, block := [0x00000001, 0, 0, 0, 0x40000001, 0, 0] }
def ob_ : Op := { op0 with opcode := 0x400, block := [0x00000001, 0, 0x1234, 0x40000001, 0, 0x555] }
def lOp : List Op := [oa, ob_]
def ac (o : Op) (p : AccPhase) : State := mapDev (fun d => { d with ops := [o], gen2 := { d.gen2 with rn16 := some 0x1234 }, uhf := { d.uhf with lastBuf := 21 }, seq := { d.seq with takenEnd := some 5}, chA := { d.chA with decValid := true, crcOk := true, frame := List.replicate 32 true}, acc := { d.acc with op := some 7, phase := p, unitEnd := true } }) sU
def bs : List State := [ac oa .cover, ac ob_ .cover, ac oa .acquire, ac ob_ .acquire]
def lState : List State := sU :: bs ++ bs.map (mapDev fun d => { d with uhf := { d.uhf with lastBuf := 20 }, acc := { d.acc with unitEnd := false } })
theorem witness_AccessUnits :
  (∃ (s : State), ∃ (t : Nat), let x := tick t s.dev
let c := takenChain x
∃ (o : Op), ∃ (rn : BitVec 16), (x.acc.op = some o.tag) ∧ (findOp x o.tag = some o) ∧ (x.gen2.rn16 = some rn) ∧ (x.uhf.lastBuf = 21) ∧ (c.decValid = true) ∧ (c.crcOk = true) ∧ (x.acc.prepared < x.seq.takenEnd.getD 0) ∧ (x.acc.phase = .cover) ∧ True) ∧
  (∃ (s : State), ∃ (t : Nat), let x := tick t s.dev
let c := takenChain x
(x.acc.op = none ∨ x.uhf.lastBuf ≠ 21 ∨ c.decValid = false ∨ c.crcOk = false ∨ x.seq.takenEnd.getD 0 ≤ x.acc.prepared) ∧ True) ∧
  (∃ (s : State), ∃ (t : Nat), let x := tick t s.dev
let c := takenChain x
∃ (o : Op), (x.acc.op = some o.tag) ∧ (findOp x o.tag = some o) ∧ (o.st = .running) ∧ ((∀ p ∈ x.ops, p.pend = .none)) ∧ (x.acc.unitEnd = true) ∧ (x.acc.lost = false) ∧ (x.acc.dropped = false) ∧ (x.acc.phase = .acquire) ∧ (x.uhf.lastBuf = 21) ∧ (c.decValid = true) ∧ (c.crcOk = true) ∧ (16 ≤ c.frame.length) ∧ True) ∧
  (∃ (s : State), ∃ (t : Nat), let x := tick t s.dev
(x.acc.op = none ∨ x.acc.unitEnd = false) ∧ True) :=
  ⟨⟨(lState[1]'(by decide)), ⟨0, ⟨(lOp[0]'(by decide)), ⟨0x1234#16, by decide +kernel⟩⟩⟩⟩,
  ⟨(lState[0]'(by decide)), ⟨0, by decide +kernel⟩⟩,
  ⟨(lState[3]'(by decide)), ⟨0, ⟨(lOp[0]'(by decide)), by decide +kernel⟩⟩⟩,
  ⟨(lState[0]'(by decide)), ⟨0, by decide +kernel⟩⟩⟩
end AccessUnits

namespace FramesReceived
def lWindow : List Window := [w0, { w0 with synced := true, snr := 9 }, { w0 with dead := true }]
def wn (w : Window) : State := mapDev (fun d => { d with now := 400000 }) (ch (fun c => { c with st := .sampling, win := some w, learnEnd := some 160000, stock := true, decValid := false, runPath := 0x1, runDec := 0 }) sU)
def bf : List State := [rg Reg.GEN2_LINK 0x140000 (wn w0), ch (fun c => { c with runPath := 2 }) (wn w0), wn { w0 with synced := true, snr := 9 }, mapDev (fun d => { d with chB := { d.chB with win := some { w0 with synced := true, snr := 200 } } }) (wn { w0 with synced := true, snr := 9 }), mapDev (fun d => { d with chB := { d.chB with win := some { w0 with synced := false } } }) (wn { w0 with synced := true, snr := 9 }), wn { w0 with dead := true}, ch (fun c => { c with win := none }) (wn w0)]
def lState : List State := bf ++ bf.map (fun s => ch (fun c => { c with learnEnd := some 900001 }) s) ++ bf.map (fun s => mapDev (fun d => { d with pair := { d.pair with divDone := true } }) s) ++ [ch (fun c => { c with runDec := 0x3030 }) (wn w0), ch (fun c => { c with learnEnd := none }) (wn w0)]
theorem witness_FramesReceived :
  (∃ (s : State), ∃ (t : Nat), ∃ (b : Bool), let x := tick t s.dev
let c := chain x b
∃ (v : List (Int × Int)), ∃ e, (c.learnEnd = some e) ∧ (c.st = .sampling) ∧ (e ≤ t) ∧ let m := drcMean c e v
(m.1 * m.1 + m.2 * m.2 ≤ 4294967296) ∧ True) ∧
  (∃ (s : State), ∃ (t : Nat), ∃ (b : Bool), let x := tick t s.dev
let c := chain x b
∃ (v : List (Int × Int)), ∃ e, (c.learnEnd = some e) ∧ (c.st = .sampling) ∧ (e ≤ t) ∧ let m := drcMean c e v
(4294967296 < m.1 * m.1 + m.2 * m.2) ∧ True) ∧
  (∃ (s : State), ∃ (t : Nat), ∃ (b : Bool), let x := tick t s.dev
let c := chain x b
(c.learnEnd = none ∨ c.st ≠ .sampling ∨ (∃ e, c.learnEnd = some e ∧ t < e)) ∧ True) ∧
  (∃ (s : State), ∃ (t : Nat), ∃ (b : Bool), let x := tick t s.dev
let c := chain x b
∃ w, ∃ snr, ∃ blf, (c.win = some w) ∧ (c.st = .sampling) ∧ (w.synced = false) ∧ (w.dead = false) ∧ (syncLate x w = false) ∧ (fld c.runDec 7 0 ≤ snr) ∧ (blfOk x c blf = true) ∧ (preambleClear x c blf = true) ∧ True) ∧
  (∃ (s : State), ∃ (t : Nat), ∃ (b : Bool), let x := tick t s.dev
let c := chain x b
∃ w, ∃ snr, ∃ blf, (c.win = some w) ∧ (c.st ≠ .sampling ∨ w.synced = true ∨ w.dead = true ∨ syncLate x w = true ∨ snr < fld c.runDec 7 0 ∨
      blfOk x c blf = false ∨ preambleClear x c blf = false) ∧ True) ∧
  (∃ (s : State), ∃ (t : Nat), ∃ (b : Bool), let x := tick t s.dev
let c := chain x b
(c.win = none) ∧ True) ∧
  (∃ (s : State), ∃ (t : Nat), ∃ (b : Bool), let x := tick t s.dev
(x.pair.divDone = false) ∧ (eligible x.chA = true) ∧ (eligible x.chB = true) ∧ True) ∧
  (∃ (s : State), ∃ (t : Nat), ∃ (b : Bool), let x := tick t s.dev
(x.pair.divDone = false) ∧ (eligible (chain x b) = true) ∧ (eligible (chain x (!b)) = false) ∧ True) ∧
  (∃ (s : State), ∃ (t : Nat), ∃ (b : Bool), let x := tick t s.dev
(x.pair.divDone = true ∨ (eligible x.chA = false ∧ eligible x.chB = false)) ∧ True) :=
  ⟨⟨(lState[0]'(by decide)), ⟨160000, ⟨true, ⟨[], ⟨160000, by decide +kernel⟩⟩⟩⟩⟩,
  ⟨(lState[0]'(by decide)), ⟨160000, ⟨true, ⟨[(70000, -4), (70000, -4), (70000, -4), (70000, -4), (70000, -4), (70000, -4), (70000, -4), (70000, -4), (70000, -4), (70000, -4), (70000, -4), (70000, -4), (70000, -4), (70000, -4), (70000, -4), (70000, -4), (70000, -4), (70000, -4), (70000, -4), (70000, -4)], ⟨160000, by decide +kernel⟩⟩⟩⟩⟩,
  ⟨(lState[7]'(by decide)), ⟨160000, ⟨true, by decide +kernel⟩⟩⟩,
  ⟨(lState[0]'(by decide)), ⟨160000, ⟨true, ⟨(lWindow[0]'(by decide)), ⟨160000, ⟨320000, by decide +kernel⟩⟩⟩⟩⟩⟩,
  ⟨(lState[0]'(by decide)), ⟨160000, ⟨true, ⟨(lWindow[0]'(by decide)), ⟨160000, ⟨160000, by decide +kernel⟩⟩⟩⟩⟩⟩,
  ⟨(lState[6]'(by decide)), ⟨160000, ⟨true, by decide +kernel⟩⟩⟩,
  ⟨(lState[2]'(by decide)), ⟨160000, ⟨true, by decide +kernel⟩⟩⟩,
  ⟨(lState[4]'(by decide)), ⟨160000, ⟨false, by decide +kernel⟩⟩⟩,
  ⟨(lState[0]'(by decide)), ⟨160000, ⟨true, by decide +kernel⟩⟩⟩⟩
end FramesReceived

namespace SweepVisits
def cl (c : Nat) (f : Word) (s : State) : State := mapDev (setCellW c 7 f) s
def lState : List State := [sU, cl 0 0x80 sU, { sU with dev := { sU.dev with comb := { sU.dev.comb with pos := 131071, visits := 255, visitCyc := sU.dev.tb.cyc } } }, { sU with dev := { sU.dev with comb := { sU.dev.comb with pos := 131071, visits := 256, visitCyc := sU.dev.tb.cyc } } }, s0]
theorem witness_SweepVisits :
  (∃ (s : State), ∃ (t : Nat), let x := tick t s.dev
(sweepRuns x = true) ∧ (visitsLeft x ≠ 0) ∧ (x.comb.sweep = none) ∧ (cellHome x x.comb.pos = false) ∧ True) ∧
  (∃ (s : State), ∃ (t : Nat), let x := tick t s.dev
(sweepRuns x = false ∨ visitsLeft x = 0) ∧ True) :=
  ⟨⟨(lState[0]'(by decide)), ⟨0, by decide +kernel⟩⟩,
  ⟨(lState[4]'(by decide)), ⟨0, by decide +kernel⟩⟩⟩
end SweepVisits

namespace RowErrors
def sq : List State := [sU, { sU with dev := { sU.dev with comb := { sU.dev.comb with spares := 3 } } }, rg Reg.COMB_CFG 0x300 sU, rg Reg.COMB_CFG 0 { sU with dev := { sU.dev with comb := { sU.dev.comb with spares := 3 } } }]
def lState : List State := sq ++ sq.map (mapDev fun d => { d with svc := { d.svc with fences := 0x20 } })
theorem witness_RowErrors :
  (∃ (s : State), ∃ (t b : Nat), ∃ (l : List Nat), let x := tick t s.dev
(x.comb.sparing = none) ∧ (b < 16384) ∧ (x.comb.retired.contains b = false) ∧ (domOn x 5 = true) ∧ (fenced x 0x05 = false) ∧ let n := CMap.get (fun _ => 0) x.comb.fixes b + 1
(n < max 1 (fld (reg x Reg.COMB_CFG) 11 8)) ∧ True) ∧
  (∃ (s : State), ∃ (t b : Nat), ∃ (l : List Nat), let x := tick t s.dev
(x.comb.sparing = none) ∧ (b < 16384) ∧ (x.comb.retired.contains b = false) ∧ (domOn x 5 = true) ∧ (fenced x 0x05 = false) ∧ let n := CMap.get (fun _ => 0) x.comb.fixes b + 1
(max 1 (fld (reg x Reg.COMB_CFG) 11 8) ≤ n) ∧ (0 < x.comb.spares) ∧ True) ∧
  (∃ (s : State), ∃ (t b : Nat), ∃ (l : List Nat), let x := tick t s.dev
(x.comb.sparing = none) ∧ (b < 16384) ∧ (x.comb.retired.contains b = false) ∧ (domOn x 5 = true) ∧ (fenced x 0x05 = false) ∧ (l ≠ []) ∧ True) ∧
  (∃ (s : State), ∃ (t b : Nat), ∃ (l : List Nat), let x := tick t s.dev
(x.comb.sparing = none) ∧ (16384 ≤ b ∨ x.comb.retired.contains b = true ∨ domOn x 5 = false ∨ fenced x 0x05 = true) ∧ True) :=
  ⟨⟨(lState[0]'(by decide)), ⟨0, ⟨0, ⟨[], by decide +kernel⟩⟩⟩⟩,
  ⟨(lState[3]'(by decide)), ⟨0, ⟨0, ⟨[], by decide +kernel⟩⟩⟩⟩,
  ⟨(lState[0]'(by decide)), ⟨0, ⟨0, ⟨[8], by decide +kernel⟩⟩⟩⟩,
  ⟨(lState[0]'(by decide)), ⟨0, ⟨16384, ⟨[], by decide +kernel⟩⟩⟩⟩⟩
end RowErrors

namespace Presence
def cl (c : Nat) (f : Word) (d : Dev) : Dev := (setCellW c 7 f d)
def lDev : List Dev := [sU.dev, cl 1 0x80 sU.dev, cl 1 0x90 sU.dev, cl 1 0x18090 sU.dev, setReg Reg.COMB_CFG 0xFFFFFFFF (cl 1 0x9f sU.dev)]
theorem witness_Presence :
  (∃ (d : Dev), ∃ (c : Nat), ∃ (pc : Word), ∃ (aer rssi phase : Nat), (aer < 16) ∧ (rssi < 256) ∧ (phase < 256) ∧ let p := presence c pc aer rssi phase d
(p.2.arrive = true) ∧ True) ∧
  (∃ (d : Dev), ∃ (c : Nat), ∃ (pc : Word), ∃ (aer rssi phase : Nat), (aer < 16) ∧ (rssi < 256) ∧ (phase < 256) ∧ (cellPresent d c = true) ∧ (cellPend d c = false) ∧ True) ∧
  (∃ (d : Dev), ∃ (c : Nat), ∃ (pc : Word), ∃ (aer rssi phase : Nat), (aer < 16) ∧ (rssi < 256) ∧ (phase < 256) ∧ ∃ e, ∃ w, (e ≠ c) ∧ (w < 8) ∧ True) :=
  ⟨⟨(lDev[0]'(by decide)), ⟨0, ⟨0x00000005#32, ⟨0, ⟨0, ⟨0, by decide +kernel⟩⟩⟩⟩⟩⟩,
  ⟨(lDev[2]'(by decide)), ⟨1, ⟨0x00000005#32, ⟨0, ⟨0, ⟨0, by decide +kernel⟩⟩⟩⟩⟩⟩,
  ⟨(lDev[0]'(by decide)), ⟨0, ⟨0x00000005#32, ⟨0, ⟨0, ⟨0, ⟨by decide +kernel, ⟨by decide +kernel, ⟨by decide +kernel, ⟨1, ⟨0, by decide +kernel⟩⟩⟩⟩⟩⟩⟩⟩⟩⟩⟩⟩
end Presence

namespace DamaskState
def ks (k : Option (BitVec 128)) (nx : Bool) (v : Word) : State := rg Reg.COMB_DMK_CFG v (mapDev (fun d => { d with dmk := { d.dmk with key := k, nx := nx } }) sU)
def lState : List State := [ks none false 0, ks none true 5, ks (some 5) false 5, ks (some 5) true 1]
theorem witness_DamaskState :
  (∃ (s : State), ∃ (t : Nat), let x := tick t s.dev
let len := epochLen x * 9600000000
let n := (t - x.dmk.since) / len
(0 < n) ∧ (domOn x (coreDom x) = true) ∧ True) ∧
  (∃ (s : State), ∃ (t : Nat), let x := tick t s.dev
let len := epochLen x * 9600000000
let n := (t - x.dmk.since) / len
(n = 0 ∨ domOn x (coreDom x) = false) ∧ True) ∧
  (∃ (s : State), ∃ (t : Nat), let x := tick t s.dev
(s.tagm.hostW = none) ∧ (domPower x 5 = .on) ∧ True) :=
  ⟨⟨(lState[0]'(by decide)), ⟨96000000000, by decide +kernel⟩⟩,
  ⟨(lState[0]'(by decide)), ⟨0, by decide +kernel⟩⟩,
  ⟨(lState[0]'(by decide)), ⟨0, by decide +kernel⟩⟩⟩
end DamaskState

namespace DumpsAndSweeps
def lOp : List Op := [{ op0 with opcode := 0x320, block := [0xF0020000, 0, 0, 0] }, { op0 with opcode := 0x320, block := [0xF0050000, 0, 0, 0] }]
def sw (b : Nat) (blk : List Word) : State := mapDev (fun d => { setCellW 640 7 0x90 d with comb := { (setCellW 640 7 0x90 d).comb with sweep := some ⟨7, b⟩ }, ops := [{ op0 with opcode := 0x320, block := blk }] }) sU
def lState : List State := [sU, rg Reg.COMB_DUMP_IDX 0x7FFF8 sU, rg Reg.COMB_DUMP_IDX 0xFFFFF sU, rg Reg.COMB_DUMP_IDX 3 (mapDev (fun d => { d with comb := { d.comb with latch := some (0, [1,2,3,4,5,6,7,0x80]) } }) sU), sw 0 [0xF0020000, 0, 0, 0], mapDev (fun d => setRing 5 { ring d 5 with en := false } d) (sw 0 [0xF0050000, 0, 0, 0]), sw 20 [0xF0020000, 0, 0, 0], sw 0 [0x01020000, 0, 0, 0]]
theorem witness_DumpsAndSweeps :
  (∃ (s : State), ∃ (t : Nat), let x := tick t s.dev
(s.tagm.hostW = none) ∧ (domPower x 5 = .on) ∧ True) ∧
  (∃ (s : State), ∃ (t : Nat), let x := tick t s.dev
∃ w, ∃ o, (domOn x 5 = true) ∧ (x.comb.sweep = some w) ∧ (findOp x w.tag = some o) ∧ (o.pend = .none) ∧ (o.failAs = none) ∧ let b := nextBucket x w.bucket
let d := updOp o.tag (fun o => { o with progress := nw b }) { x with comb := { x.comb with sweep := some ⟨w.tag, b⟩ } }
(b < 16384) ∧ (sweepWaits d o b = true) ∧ True) ∧
  (∃ (s : State), ∃ (t : Nat), let x := tick t s.dev
∃ w, ∃ o, (domOn x 5 = true) ∧ (x.comb.sweep = some w) ∧ (findOp x w.tag = some o) ∧ (o.pend = .none) ∧ (o.failAs = none) ∧ let b := nextBucket x w.bucket
let d := updOp o.tag (fun o => { o with progress := nw b }) { x with comb := { x.comb with sweep := some ⟨w.tag, b⟩ } }
(b < 16384) ∧ (sweepWaits d o b = false) ∧ True) ∧
  (∃ (s : State), ∃ (t : Nat), let x := tick t s.dev
(x.comb.sweep = none ∨ domOn x 5 = false) ∧ True) :=
  ⟨⟨(lState[0]'(by decide)), ⟨0, by decide +kernel⟩⟩,
  ⟨(lState[5]'(by decide)), ⟨0, ⟨{ tag := 7, bucket := 0 }, ⟨(lOp[1]'(by decide)), by decide +kernel⟩⟩⟩⟩,
  ⟨(lState[4]'(by decide)), ⟨0, ⟨{ tag := 7, bucket := 0 }, ⟨(lOp[0]'(by decide)), by decide +kernel⟩⟩⟩⟩,
  ⟨(lState[0]'(by decide)), ⟨0, by decide +kernel⟩⟩⟩
end DumpsAndSweeps

namespace StageResults

theorem witness_StageResults :
  (∃ (p w : Nat), ∃ (v : Int), (0 < w) ∧ let r := reduceTo p w v
(r.2 = false) ∧ (2 * (v - 2 ^ p * r.1) = 2 ^ p ∨ 2 * (v - 2 ^ p * r.1) = -(2 ^ p)) ∧ True) ∧
  (∃ (p w : Nat), ∃ (v : Int), (0 < w) ∧ let r := reduceTo p w v
(r.2 = true) ∧ True) ∧
  (∃ (c : Chain), ∃ (n : Nat), ((activeSlices c).length = 16) ∧ ∃ i, (i ∈ activeSlices c) ∧ True) :=
  ⟨⟨1, ⟨1, ⟨1, by decide +kernel⟩⟩⟩,
  ⟨0, ⟨1, ⟨1, by decide +kernel⟩⟩⟩,
  ⟨{ st := Sys2Proof.Machine.ChainSt.off, stopPend := false, active := 0x0ffff#18, nextActive := none, coef := [], stock := false, runPath := 0x00000000#32, runNco := 0x00000000#32, runRsmp := 0x00000000#32, runDec := 0x00000000#32, ncoWord := 0x00000000#32, ncoPhase := 0x00000000#32, ncoAt := 0, ri := 0, rq := 0, learnEnd := none, runAt := none, entryAt := 0, marks := [], blf := 0, syncAt := 0, cs := false, te := false, ifl := false, win := none, sync := false, decValid := false, crcOk := false, frame := [], satRuns := 0 }, ⟨0, ⟨by decide +kernel, ⟨0, by decide +kernel⟩⟩⟩⟩⟩
end StageResults

end Sys2Proof.Tests.P31

namespace Sys2Proof.Tests.P32

def hh (f : Hf → Hf) (s : State) : State := mapDev (fun d => { d with hf := f d.hf }) s
def rg (a : Nat) (v : Word) (s : State) : State := mapDev (fun d => setReg a v { d with set0 := { d.set0 with regs := CMap.set (fun _ => 0) d.set0.regs a v }, set1 := { d.set1 with regs := CMap.set (fun _ => 0) d.set1.regs a v } }) s
def pw (n : Nat) (s : State) : State := mapDev (fun d => setDom n { dom d n with pos := .on, pend := none } d) s
def sP : State := pw 11 (pw 8 (pw 5 (pw 9 (pw 10 s1))))
def sU : State := { sP with tagm := { sP.tagm with hostW := none } }
def op0 : Op := ⟨7, 0x300, 2, 0, false, false, true, .running, .none, false, false, 0, 0, 0, 0, 1, [0,0,0,0], 0, none, false, [], none, none, false⟩

namespace LowPowerPings
def lp (thr cfg base : Word) (f : Hf → Hf) (s : State) : State := rg Reg.HF_LPCD_THR thr (rg Reg.HF_LPCD_CFG cfg (rg Reg.HF_LPCD_BASE base (rg Reg.HF_RX_CFG 0x100000 (hh f (mapDev (fun d => { d with pmu := { d.pmu with vpa := true } }) s)))))
def f0 (h : Hf) : Hf := { h with rebase := false, det := false, confirm := none, field := 0, win := none, lastPing := 0 }
def f1 (h : Hf) : Hf := { f0 h with confirm := some 1 }
def f2 (h : Hf) : Hf := { f0 h with confirm := some 3 }
def f3 (h : Hf) : Hf := { f0 h with det := true }
def f4 (h : Hf) : Hf := { f0 h with det := true, rebase := true }
def f5 (h : Hf) : Hf := { f0 h with rebase := true }
def st34 (s : State) : State := th 3 (stw 0x34 0) id s
def lps : List State := [lp 0x1700 0xA0000001 0x800007D0 f0 sU, lp 0x1800 0x80000000 2000 f0 sU, lp 0x1700 0xA0000001 0x800007D0 f1 sU, lp 0x1800 0xA0000001 2000 f1 sU, lp 0x1700 0xA0000001 0x800007D0 f2 sU, lp 0x1702 0xA1000001 0x800007D0 f3 sU, lp 0x1702 0xA1000001 0x800007D0 f4 sU, lp 0x1702 0xA1000001 0x800007D0 f5 sU, lp 0x1702 0xA1000001 0x800007D0 f0 sU]
def lState : List State := lps ++ lps.map st34 ++ lps.map (rg Reg.PMU_WAKE_LPCD 0) ++ lps.map (rg Reg.HF_LPCD_CNT 0xFF00)
theorem witness_LowPowerPings :
  (∃ (s : State), ∃ (t : Nat), ∃ (p : Ping), let x := tick t s.dev
let h := x.hf
let c := reg x Reg.HF_LPCD_CFG
let lim := fld (reg x Reg.HF_LPCD_THR) 15 8
let dist := pingD p.amp.toNat p.phase.toNat (reg x Reg.HF_LPCD_BASE)
(bit c 31 = true) ∧ (h.confirm = none) ∧ (h.lastPing = 0 ∨ h.lastPing + pingInterval x ≤ x.now) ∧ (PingGood x p) ∧ (h.det = false) ∧ (dist < lim) ∧ True) ∧
  (∃ (s : State), ∃ (t : Nat), ∃ (p : Ping), let x := tick t s.dev
let h := x.hf
let c := reg x Reg.HF_LPCD_CFG
let lim := fld (reg x Reg.HF_LPCD_THR) 15 8
let dist := pingD p.amp.toNat p.phase.toNat (reg x Reg.HF_LPCD_BASE)
(bit c 31 = true) ∧ (h.confirm = none) ∧ (h.lastPing = 0 ∨ h.lastPing + pingInterval x ≤ x.now) ∧ (PingGood x p) ∧ (h.det = false) ∧ (lim ≤ dist) ∧ (fld c 30 28 ≠ 0) ∧ True) ∧
  (∃ (s : State), ∃ (t : Nat), ∃ (p : Ping), let x := tick t s.dev
let h := x.hf
let c := reg x Reg.HF_LPCD_CFG
(bit c 31 = true) ∧ (h.confirm = none) ∧ (h.lastPing = 0 ∨ h.lastPing + pingInterval x ≤ x.now) ∧ (PingGood x p) ∧ (h.rebase = true) ∧ (h.det = true) ∧ True) ∧
  (∃ (s : State), ∃ (t : Nat), ∃ (p : Ping), let x := tick t s.dev
let h := x.hf
let c := reg x Reg.HF_LPCD_CFG
(bit c 31 = true) ∧ (h.confirm = none) ∧ (h.lastPing = 0 ∨ h.lastPing + pingInterval x ≤ x.now) ∧ (pingUnit x = true) ∧ (h.field = 0) ∧ (h.win = none) ∧ (fld (cfg x Reg.HF_RX_CFG) 25 16 ≤ p.ext) ∧ True) ∧
  (∃ (s : State), ∃ (t : Nat), ∃ (p : Ping), let x := tick t s.dev
let h := x.hf
let c := reg x Reg.HF_LPCD_CFG
(bit c 31 = false ∨ h.confirm ≠ none) ∧ True) ∧
  (∃ (s : State), ∃ (t : Nat), ∃ (p : Ping), let x := tick t s.dev
let h := x.hf
let lim := fld (reg x Reg.HF_LPCD_THR) 15 8
let dist := pingD p.amp.toNat p.phase.toNat (reg x Reg.HF_LPCD_BASE)
∃ n, (h.confirm = some n) ∧ (h.pingEnd + us 4979 ≤ x.now) ∧ (PingGood x p) ∧ (h.det = false) ∧ (dist < lim) ∧ True) ∧
  (∃ (s : State), ∃ (t : Nat), ∃ (p : Ping), let x := tick t s.dev
let h := x.hf
let lim := fld (reg x Reg.HF_LPCD_THR) 15 8
let dist := pingD p.amp.toNat p.phase.toNat (reg x Reg.HF_LPCD_BASE)
∃ n, (h.confirm = some n) ∧ (h.pingEnd + us 4979 ≤ x.now) ∧ (PingGood x p) ∧ (h.det = false) ∧ (lim ≤ dist) ∧ (1 < n) ∧ True) ∧
  (∃ (s : State), ∃ (t : Nat), ∃ (p : Ping), let x := tick t s.dev
let h := x.hf
let lim := fld (reg x Reg.HF_LPCD_THR) 15 8
let dist := pingD p.amp.toNat p.phase.toNat (reg x Reg.HF_LPCD_BASE)
∃ n, (h.confirm = some n) ∧ (h.pingEnd + us 4979 ≤ x.now) ∧ (PingGood x p) ∧ (h.det = false) ∧ (lim ≤ dist) ∧ (n ≤ 1) ∧ (x.ops = []) ∧ (reg x Reg.PMU_WAKE_LPCD = 0) ∧ True) ∧
  (∃ (s : State), ∃ (t : Nat), ∃ (p : Ping), let x := tick t s.dev
let h := x.hf
(h.confirm = none ∨ x.now < h.pingEnd + us 4979) ∧ True) ∧
  (∃ (s : State), ∃ (t : Nat), ∃ (p : Ping), let x := tick t s.dev
let h := x.hf
let lim := fld (reg x Reg.HF_LPCD_THR) 15 8
let dist := pingD p.amp.toNat p.phase.toNat (reg x Reg.HF_LPCD_BASE)
∃ e, (StepDue s.dev t 3 0x34 e) ∧ (PingGood x p) ∧ (h.confirm = none) ∧ (h.det = false) ∧ (dist < lim) ∧ (x.cal.run = none) ∧ True) :=
  ⟨⟨(lState[0]'(by decide)), ⟨0, ⟨{ amp := 0x7d0#12, phase := 0x000#12, ext := 1, blanked := false, oscOk := true }, by decide +kernel⟩⟩⟩,
  ⟨(lState[0]'(by decide)), ⟨0, ⟨{ amp := 0x7a8#12, phase := 0x007#12, ext := 1, blanked := false, oscOk := true }, by decide +kernel⟩⟩⟩,
  ⟨(lState[6]'(by decide)), ⟨0, ⟨{ amp := 0x7d0#12, phase := 0x000#12, ext := 1, blanked := false, oscOk := true }, by decide +kernel⟩⟩⟩,
  ⟨(lState[0]'(by decide)), ⟨0, ⟨{ amp := 0x000#12, phase := 0xfff#12, ext := 16, blanked := false, oscOk := true }, by decide +kernel⟩⟩⟩,
  ⟨(lState[2]'(by decide)), ⟨0, ⟨{ amp := 0x7d0#12, phase := 0x000#12, ext := 1, blanked := false, oscOk := true }, by decide +kernel⟩⟩⟩,
  ⟨(lState[2]'(by decide)), ⟨1000000, ⟨{ amp := 0x7d0#12, phase := 0x000#12, ext := 1, blanked := false, oscOk := true }, ⟨1, by decide +kernel⟩⟩⟩⟩,
  ⟨(lState[4]'(by decide)), ⟨1000000, ⟨{ amp := 0x7a8#12, phase := 0x007#12, ext := 1, blanked := false, oscOk := true }, ⟨3, by decide +kernel⟩⟩⟩⟩,
  ⟨(lState[20]'(by decide)), ⟨1000000, ⟨{ amp := 0x7a8#12, phase := 0x007#12, ext := 1, blanked := false, oscOk := true }, ⟨1, by decide +kernel⟩⟩⟩⟩,
  ⟨(lState[0]'(by decide)), ⟨0, ⟨{ amp := 0x7d0#12, phase := 0x000#12, ext := 1, blanked := false, oscOk := true }, by decide +kernel⟩⟩⟩,
  ⟨(lState[9]'(by decide)), ⟨1, ⟨{ amp := 0x7d0#12, phase := 0x000#12, ext := 1, blanked := false, oscOk := true }, ⟨{ timeout := false, late := false }, by decide +kernel⟩⟩⟩⟩⟩
end LowPowerPings

namespace PingRequests
def lState : List State := [sU, th 3 (stw 0x34 0) id (hh (fun h => { h with field := 1 }) sU)]
theorem witness_PingRequests :
  (∃ (s : State), ∃ (t : Nat), let x := tick t s.dev
∃ e, (StepDue s.dev t 3 0x34 e) ∧ (x.hf.field ≠ 0) ∧ (x.cal.run = none) ∧ True) ∧
  (∃ (s : State), ∃ (t : Nat), let x := tick t s.dev
(s.tagm.hostW = none) ∧ (domPower x 11 = .on) ∧ True) :=
  ⟨⟨(lState[1]'(by decide)), ⟨1, ⟨{ timeout := false, late := false }, by decide +kernel⟩⟩⟩,
  ⟨(lState[0]'(by decide)), ⟨0, by decide +kernel⟩⟩⟩
end PingRequests

namespace HfCheckCodes

theorem witness_HfCheckCodes :
  ∃ bs : List Bool, (bs.length ≤ 4096) ∧ True :=
  ⟨[], by decide +kernel⟩
end HfCheckCodes

namespace HfWindows
def w0 : HfWin := ⟨0x03000000, some 9, false, false, false, 0, false, false, false, false, false, false, 0, false⟩
def ws (w : HfWin) (p : Bool) : State := hh (fun h => { h with win := some w, page := p, field := 1 }) sU
def lState : List State := [sU, hh (fun h => { h with txBusy := true, field := 1 }) sU, ws w0 false, ws w0 true, ws { w0 with sof := true } true, ws { w0 with desc := 0x30000000 , sof := true} false,  ws { w0 with desc := 0x10000000 , sof := true} false, ws { w0 with shut := true, coll := true } true, rg Reg.HF_RX_IDX 0xFF sU]
theorem witness_HfWindows :
  (∃ (s : State), ∃ (t : Nat), let x := tick t s.dev
let h := x.hf
(h.txBusy = true) ∧ ((thr x 3).gate ≠ some .rx) ∧ True) ∧
  (∃ (s : State), ∃ (t : Nat), let x := tick t s.dev
let h := x.hf
(h.txBusy = false) ∧ True) ∧
  (∃ (s : State), ∃ (t : Nat), let x := tick t s.dev
let h := x.hf
∃ w, (h.win = some w) ∧ (hfAccepts w x = true) ∧ True) ∧
  (∃ (s : State), ∃ (t : Nat), let x := tick t s.dev
let h := x.hf
∃ w, (h.win = some w) ∧ (hfAccepts w x = false) ∧ True) ∧
  (∃ (s : State), ∃ (t : Nat), let x := tick t s.dev
let h := x.hf
∃ w, (h.win = some w) ∧ (fld w.desc 31 28 = 0 ∨ fld w.desc 31 28 = 3) ∧ (w.coll = false) ∧ (w.sof = true ∨ hfAccepts w x = true) ∧ True) ∧
  (∃ (s : State), ∃ (t : Nat), let x := tick t s.dev
let h := x.hf
∃ w, (h.win = some w) ∧ ((fld w.desc 31 28 ≠ 0 ∧ fld w.desc 31 28 ≠ 3) ∨ w.coll = true) ∧ True) ∧
  (∃ (s : State), ∃ (t : Nat), let x := tick t s.dev
let h := x.hf
∃ w, ∃ e, (h.win = some w) ∧ (w.tmo = some e) ∧ (w.sof = false) ∧ (e ≤ x.now) ∧ True) ∧
  (∃ (s : State), ∃ (t : Nat), let x := tick t s.dev
let h := x.hf
∃ w, ∃ e, (h.win = some w) ∧ (w.tmo = some e) ∧ (w.sof = true ∨ x.now < e) ∧ True) ∧
  (∃ (s : State), ∃ (t : Nat), let x := tick t s.dev
let h := x.hf
(h.win = none) ∧ True) ∧
  (∃ (s : State), ∃ (t : Nat), let x := tick t s.dev
(s.tagm.hostW = none) ∧ (domPower x 11 = .on) ∧ True) :=
  ⟨⟨(lState[1]'(by decide)), ⟨0, by decide +kernel⟩⟩,
  ⟨(lState[0]'(by decide)), ⟨0, by decide +kernel⟩⟩,
  ⟨(lState[2]'(by decide)), ⟨0, ⟨{ desc := 0x03000000#32, tmo := some 9, sof := false, energy := false, coll := false, cpos := 0, decided := false, good := false, erased := false, parBad := false, blanked := false, sat := false, nbits := 0, shut := false }, by decide +kernel⟩⟩⟩,
  ⟨(lState[2]'(by decide)), ⟨5000, ⟨{ desc := 0x03000000#32, tmo := some 9, sof := false, energy := false, coll := false, cpos := 0, decided := false, good := false, erased := false, parBad := false, blanked := false, sat := false, nbits := 0, shut := false }, by decide +kernel⟩⟩⟩,
  ⟨(lState[2]'(by decide)), ⟨0, ⟨{ desc := 0x03000000#32, tmo := some 9, sof := false, energy := false, coll := false, cpos := 0, decided := false, good := false, erased := false, parBad := false, blanked := false, sat := false, nbits := 0, shut := false }, by decide +kernel⟩⟩⟩,
  ⟨(lState[6]'(by decide)), ⟨0, ⟨{ desc := 0x10000000#32, tmo := some 9, sof := true, energy := false, coll := false, cpos := 0, decided := false, good := false, erased := false, parBad := false, blanked := false, sat := false, nbits := 0, shut := false }, by decide +kernel⟩⟩⟩,
  ⟨(lState[2]'(by decide)), ⟨9, ⟨{ desc := 0x03000000#32, tmo := some 9, sof := false, energy := false, coll := false, cpos := 0, decided := false, good := false, erased := false, parBad := false, blanked := false, sat := false, nbits := 0, shut := false }, ⟨9, by decide +kernel⟩⟩⟩⟩,
  ⟨(lState[2]'(by decide)), ⟨0, ⟨{ desc := 0x03000000#32, tmo := some 9, sof := false, energy := false, coll := false, cpos := 0, decided := false, good := false, erased := false, parBad := false, blanked := false, sat := false, nbits := 0, shut := false }, ⟨9, by decide +kernel⟩⟩⟩⟩,
  ⟨(lState[0]'(by decide)), ⟨0, by decide +kernel⟩⟩,
  ⟨(lState[0]'(by decide)), ⟨0, by decide +kernel⟩⟩⟩
end HfWindows

namespace HfFrames
def w0 : HfWin := ⟨0x03000000, some 9, false, false, false, 0, false, false, false, false, false, false, 0, false⟩
def wl : List HfWin := [w0, { w0 with desc := 0x03000000, sof := true }, { w0 with desc := 0x00000000, sof := true, decided := true}, { w0 with desc := 0x12000000 , sof := true}, { w0 with shut := true }]
def ws (w : HfWin) (p : Bool) : State := hh (fun h => { h with win := some w, page := p, field := 1, split := if p then 3 else 0 }) sU
def fr : List Bool := List.replicate 40 true
def lState : List State := sU :: wl.map (ws · false) ++ wl.map (ws · true)
theorem witness_HfFrames :
  (∃ (s : State), ∃ (t : Nat), ∃ (raw : List Bool), ∃ (w : HfWin), let x := tick t s.dev
let h := x.hf
(h.win = some w) ∧ (w.decided = false) ∧ (w.sof = true ∨ hfAccepts w x = true) ∧ True) ∧
  (∃ (s : State), ∃ (t : Nat), ∃ (raw : List Bool), ∃ (w : HfWin), let x := tick t s.dev
let h := x.hf
(h.win = some w) ∧ (w.decided = true ∨ (w.sof = false ∧ hfAccepts w x = false)) ∧ True) :=
  ⟨⟨(lState[1]'(by decide)), ⟨0, ⟨[], ⟨{ desc := 0x03000000#32, tmo := some 9, sof := false, energy := false, coll := false, cpos := 0, decided := false, good := false, erased := false, parBad := false, blanked := false, sat := false, nbits := 0, shut := false }, by decide +kernel⟩⟩⟩⟩,
  ⟨(lState[1]'(by decide)), ⟨5000, ⟨[], ⟨{ desc := 0x03000000#32, tmo := some 9, sof := false, energy := false, coll := false, cpos := 0, decided := false, good := false, erased := false, parBad := false, blanked := false, sat := false, nbits := 0, shut := false }, by decide +kernel⟩⟩⟩⟩⟩
end HfFrames

namespace HfField
def w0 : HfWin := ⟨0x03000000, some 9, false, false, false, 0, false, false, false, false, false, false, 0, false⟩
def hs : List State := [sU, hh (fun h => { h with field := 1 }) sU, hh (fun h => { h with field := 1, txBusy := true }) (rg Reg.HF_ISO4_CFG 0x05000000 sU), hh (fun h => { h with field := 1, win := some w0 }) (rg Reg.HF_ISO4_CFG 0x05000000 sU), hh (fun h => { h with field := 2, level := 9, win := some w0, overrun := some 5 }) (rg Reg.HF_ISO4_CFG 0x05000000 sU), hh (fun h => { h with field := 1, level := 7, lim := true, cardActive := true, ac := { h.ac with step := .rack } }) (rg Reg.HF_ISO4_CFG 0x05000001 (rg Reg.HF_ISO4_STAT 1 sU)), hh (fun h => { h with field := 1, cardActive := true }) (rg Reg.HF_CFG 0x8 sU)]
def sl (d : Dev) : Dev := { d with tb := { d.tb with st := .locked, period := 819200000, cyc := 5 }, set0 := { d.set0 with plan := (List.range 240).map fun k => (k, 0xFFFFFFFF) } }
def lState : List State := hs ++ hs.map (mapDev sl)
theorem witness_HfField :
  (∃ (s : State), ∃ (t : Nat), let x := tick t s.dev
let h := x.hf
let more := h.txBusy || h.win.isSome || !hfExs h.ac
(hfWindowLeft x ≤ us 2) ∧ (h.field = 1) ∧ (h.overrun = none) ∧ (more = true) ∧ True) ∧
  (∃ (s : State), ∃ (t : Nat), let x := tick t s.dev
let h := x.hf
let more := h.txBusy || h.win.isSome || !hfExs h.ac
(hfWindowLeft x ≤ us 2) ∧ (h.field = 1) ∧ (h.overrun = none) ∧ (more = false) ∧ (hfKeeps x = true) ∧ True) ∧
  (∃ (s : State), ∃ (t : Nat), let x := tick t s.dev
let h := x.hf
let more := h.txBusy || h.win.isSome || !hfExs h.ac
(hfWindowLeft x ≤ us 2) ∧ (h.field = 1) ∧ (h.overrun = none) ∧ (more = false) ∧ (hfKeeps x = false) ∧ (x.ops = []) ∧ True) ∧
  (∃ (s : State), ∃ (t : Nat), let x := tick t s.dev
let h := x.hf
(us 2 < hfWindowLeft x ∨ h.overrun ≠ none ∧ h.field ≠ 0) ∧ True) ∧
  (∃ (s : State), ∃ (t : Nat), let x := tick t s.dev
let h := x.hf
(hfWindowLeft x ≤ us 2) ∧ (h.field = 0) ∧ True) ∧
  (∃ (s : State), ∃ (t : Nat), let x := tick t s.dev
let h := x.hf
∃ e, (h.overrun = some e) ∧ (e ≤ x.now) ∧ (x.ops = []) ∧ True) ∧
  (∃ (s : State), ∃ (t : Nat), let x := tick t s.dev
let h := x.hf
(h.overrun = none ∨ (∃ e, h.overrun = some e ∧ x.now < e)) ∧ True) ∧
  (∃ (s : State), ∃ (t : Nat), let x := tick t s.dev
let h := x.hf
(h.field ≠ 0) ∧ True) ∧
  (∃ (s : State), ∃ (t : Nat), let x := tick t s.dev
let h := x.hf
(h.field = 0) ∧ True) :=
  ⟨⟨(lState[2]'(by decide)), ⟨0, by decide +kernel⟩⟩,
  ⟨(lState[6]'(by decide)), ⟨0, by decide +kernel⟩⟩,
  ⟨(lState[1]'(by decide)), ⟨0, by decide +kernel⟩⟩,
  ⟨(lState[4]'(by decide)), ⟨0, by decide +kernel⟩⟩,
  ⟨(lState[0]'(by decide)), ⟨0, by decide +kernel⟩⟩,
  ⟨(lState[4]'(by decide)), ⟨5, ⟨5, by decide +kernel⟩⟩⟩,
  ⟨(lState[0]'(by decide)), ⟨0, by decide +kernel⟩⟩,
  ⟨(lState[1]'(by decide)), ⟨0, by decide +kernel⟩⟩,
  ⟨(lState[0]'(by decide)), ⟨0, by decide +kernel⟩⟩⟩
end HfField

namespace HfChoices
def oh : Op := { op0 with opcode := 0x500, block := [0x23, 0] }
def oa : Op := { op0 with opcode := 0x501, block := [0x00000002, 0x01020304] }
def lOp : List Op := [oh, oa]
def hc (o : Op) (f : AcState → AcState) (st cf res : Word) (bits : List Bool) : State := rg Reg.HF_RESULT (res ||| put 15 4 bits.length) (rg Reg.HF_ISO4_STAT st (rg Reg.HF_AC_CFG cf (hh (fun h => { h with field := 1, rx := ((packBits 129 bits).zipIdx).foldl (fun m p => memSet m p.2 p.1) h.rx, ac := f { h.ac with unitEnd := true } }) (mapDev (fun d => { updThr 3 (fun t => { t with op := some 7 }) d with ops := [o] }) sU))))
def blk (l : List Nat) : List Bool := hfBytes 0 (l ++ [0, 0])
def lState : List State := [sU, hc oh id 0 0 0 [], hc oh (fun a => { a with step := .anticoll }) 0 0x00030001 0x00300002 [true, false, true, true], hc oh (fun a => { a with step := .anticoll, iter := 2, known := [true] }) 0 0x00030001 0x00300002 [true, false, true, true], hc oh (fun a => { a with step := .select, level := 1, known := (List.range 40).map (· % 3 == 0) }) 0 0x00030001 1 (blk [4]), hc oh (fun a => { a with step := .reqb, proto := 2, slots := 4, slot := 3 }) 0 0x00030201 3 [], hc oh (fun a => { a with step := .hold }) 1 0x00030201 3 [], hc oa (fun a => { a with step := .iblock }) 1 0x00030201 1 (blk [2, 5]), hc oa (fun a => { a with step := .iblock }) 1 0x00030201 1 (blk [2]), hc oa (fun a => { a with step := .iblock, resp := [3, 4] }) 3 0x00030201 1 (blk [3, 63]), hc oa (fun a => { a with step := .iblock }) 1 0x00030201 1 (blk [0xF2, 63]), hc oa (fun a => { a with step := .iblock }) 1 0x00030201 1 (blk [0xF2, 5])]
theorem witness_HfChoices :
  (∃ (s : State), ∃ (t : Nat), let x := tick t s.dev
let a := x.hf.ac
(hfOp x = none ∨ a.unitEnd = false) ∧ True) ∧
  (∃ (s : State), ∃ (t : Nat), let x := tick t s.dev
let a := x.hf.ac
let c := cfg x Reg.HF_AC_CFG
∃ o : Op, (hfOp x = some o) ∧ (a.unitEnd = true) ∧ (x.hf.overrun = none) ∧ (o.opcode = 0x500) ∧ (x.hf.field = 1) ∧ (a.step = .anticoll) ∧ (hfOut x = 2) ∧ (a.iter + 1 < max 1 (fld c 23 16)) ∧ True) ∧
  (∃ (s : State), ∃ (t : Nat), let x := tick t s.dev
let a := x.hf.ac
let c := cfg x Reg.HF_AC_CFG
∃ o : Op, (hfOp x = some o) ∧ (a.unitEnd = true) ∧ (x.hf.overrun = none) ∧ (o.opcode = 0x500) ∧ (x.hf.field = 1) ∧ (a.step = .anticoll) ∧ (hfOut x = 2) ∧ (max 1 (fld c 23 16) ≤ a.iter + 1) ∧ True) ∧
  (∃ (s : State), ∃ (t : Nat), let x := tick t s.dev
let a := x.hf.ac
∃ o : Op, (hfOp x = some o) ∧ (a.unitEnd = true) ∧ (x.hf.overrun = none) ∧ (o.opcode = 0x500) ∧ (x.hf.field = 1) ∧ ∃ sak, ∃ r, (a.step = .select) ∧ (hfOut x = 1) ∧ (hfBody x = sak :: r) ∧ (sak.testBit 2 = true) ∧ (a.level < 3) ∧ True) ∧
  (∃ (s : State), ∃ (t : Nat), let x := tick t s.dev
let a := x.hf.ac
let c := cfg x Reg.HF_AC_CFG
∃ o : Op, (hfOp x = some o) ∧ (a.unitEnd = true) ∧ (x.hf.overrun = none) ∧ (o.opcode = 0x500) ∧ (x.hf.field = 1) ∧ (a.step = .reqb) ∧ (a.proto = 2) ∧ (hfOut x = 3) ∧ (a.slot + 1 = a.slots) ∧ (a.repeats < fld c 11 8) ∧ True) ∧
  (∃ (s : State), ∃ (t : Nat), let x := tick t s.dev
let a := x.hf.ac
∃ o : Op, (hfOp x = some o) ∧ (a.unitEnd = true) ∧ (x.hf.overrun = none) ∧ (o.opcode = 0x500) ∧ (x.hf.field = 1) ∧ (a.step = .hold) ∧ (bit (isoStat x) 0 = true) ∧ True) ∧
  (∃ (s : State), ∃ (t : Nat), let x := tick t s.dev
let a := x.hf.ac
∃ (o : Op), ∃ (pcb : Nat), ∃ (inf : List Nat), (hfOp x = some o) ∧ (a.unitEnd = true) ∧ (x.hf.overrun = none) ∧ (o.opcode = 0x501) ∧ (hfOut x = 1) ∧ (hfBody x = pcb :: inf) ∧ (pcb.testBit 3 = false) ∧ (a.step = .iblock) ∧ (pcb &&& 0xF2 = 0x02) ∧ (pcb % 2 = blkNum x) ∧ (apduMore x o a.sent = false) ∧ True) ∧
  (∃ (s : State), ∃ (t : Nat), let x := tick t s.dev
let a := x.hf.ac
∃ (o : Op), ∃ (pcb : Nat), ∃ (inf : List Nat), (hfOp x = some o) ∧ (a.unitEnd = true) ∧ (x.hf.overrun = none) ∧ (o.opcode = 0x501) ∧ (hfOut x = 1) ∧ (hfBody x = pcb :: inf) ∧ (pcb.testBit 3 = false) ∧ (a.step = .iblock) ∧ (pcb &&& 0xF7 = 0xF2) ∧ (nth 0 inf 0 % 64 ≠ 0) ∧ True) :=
  ⟨⟨(lState[0]'(by decide)), ⟨0, by decide +kernel⟩⟩,
  ⟨(lState[2]'(by decide)), ⟨0, ⟨(lOp[0]'(by decide)), by decide +kernel⟩⟩⟩,
  ⟨(lState[3]'(by decide)), ⟨0, ⟨(lOp[0]'(by decide)), by decide +kernel⟩⟩⟩,
  ⟨(lState[4]'(by decide)), ⟨0, ⟨(lOp[0]'(by decide)), ⟨by decide +kernel, ⟨by decide +kernel, ⟨by decide +kernel, ⟨by decide +kernel, ⟨by decide +kernel, ⟨4, ⟨[], by decide +kernel⟩⟩⟩⟩⟩⟩⟩⟩⟩⟩,
  ⟨(lState[5]'(by decide)), ⟨0, ⟨(lOp[0]'(by decide)), by decide +kernel⟩⟩⟩,
  ⟨(lState[6]'(by decide)), ⟨0, ⟨(lOp[0]'(by decide)), by decide +kernel⟩⟩⟩,
  ⟨(lState[7]'(by decide)), ⟨0, ⟨(lOp[1]'(by decide)), ⟨2, ⟨[5], by decide +kernel⟩⟩⟩⟩⟩,
  ⟨(lState[10]'(by decide)), ⟨0, ⟨(lOp[1]'(by decide)), ⟨242, ⟨[63], by decide +kernel⟩⟩⟩⟩⟩⟩
end HfChoices

end Sys2Proof.Tests.P32

namespace Sys2Proof.Tests.P33

def tg (f : Tagm → Tagm) (s : State) : State := { s with tagm := f s.tagm }
def rg (a : Nat) (v : Word) (s : State) : State := mapDev (fun d => setReg a v { d with set0 := { d.set0 with regs := CMap.set (fun _ => 0) d.set0.regs a v }, set1 := { d.set1 with regs := CMap.set (fun _ => 0) d.set1.regs a v } }) s
def ts : State := tg (fun g => { g with sess := true, uid := 0xE0445566778899AA, cfgS := 0x12340001, fprotS := 0x00038000 }) s1
def fr (m : TagMode) (opt : Bool) : TagFrame := ⟨7, m, true, opt, 2000, 2000, 2000, 2000, 2000, none⟩
def U : DWord := 0xE0445566778899AA
def lTagFrame : List TagFrame := [fr .nonAddressed false, fr (.addressed U) true, fr (.addressed 3) true, fr .selected false, { fr (.addressed U) true with vh4 := 0 }, { fr (.addressed U) false with vh5 := 100 }, { fr (.addressed U) false with t := 50000000, vh4 := 0 } ]

namespace TagSessions
def lState : List State := [s1, tg (fun g => { g with cfg := 0x55550001, uidCfg := 0x77, fprot := 9 }) s1, ts, tg (fun g => { g with lock := some 1 }) ts]
theorem witness_TagSessions :
  (∃ (s : State), ∃ (t vh : Nat), (s.tagm.hostW = none) ∧ let g := s.tagm
(g.sess = false) ∧ (vhOn ≤ vh) ∧ True) ∧
  (∃ (s : State), ∃ (t vh : Nat), (s.tagm.hostW = none) ∧ let g := s.tagm
(g.sess = true ∨ vh < vhOn) ∧ True) ∧
  (∃ (s : State), ∃ (t vh : Nat), (s.tagm.hostW = none) ∧ let g := s.tagm
(g.sess = true) ∧ (vh ≤ vhReset) ∧ True) ∧
  (∃ (s : State), ∃ (t vh : Nat), (s.tagm.hostW = none) ∧ let g := s.tagm
(g.sess = false ∨ vhReset < vh) ∧ True) ∧
  (∃ (s : State), ∃ (t vh : Nat), (s.tagm.hostW = none) ∧ let g := s.tagm
∃ e, (g.lock = some e) ∧ (e + us 50000 ≤ t) ∧ True) ∧
  (∃ (s : State), ∃ (t vh : Nat), (s.tagm.hostW = none) ∧ let g := s.tagm
∃ e, (g.lock = some e) ∧ (t < e + us 50000) ∧ True) ∧
  (∃ (s : State), ∃ (t vh : Nat), (s.tagm.hostW = none) ∧ let g := s.tagm
(g.lock = none) ∧ True) :=
  ⟨⟨(lState[0]'(by decide)), ⟨0, ⟨1250, by decide +kernel⟩⟩⟩,
  ⟨(lState[0]'(by decide)), ⟨0, ⟨0, by decide +kernel⟩⟩⟩,
  ⟨(lState[2]'(by decide)), ⟨0, ⟨0, by decide +kernel⟩⟩⟩,
  ⟨(lState[0]'(by decide)), ⟨0, ⟨0, by decide +kernel⟩⟩⟩,
  ⟨(lState[3]'(by decide)), ⟨9000000, ⟨0, ⟨by decide +kernel, ⟨1, by decide +kernel⟩⟩⟩⟩⟩,
  ⟨(lState[3]'(by decide)), ⟨0, ⟨0, ⟨by decide +kernel, ⟨1, by decide +kernel⟩⟩⟩⟩⟩,
  ⟨(lState[0]'(by decide)), ⟨0, ⟨0, by decide +kernel⟩⟩⟩⟩
end TagSessions

namespace TagWrites
def lState : List State := [ts, mapDev (fun d => { d with sys := { d.sys with stage := 0 } }) (tg (fun g => { g with fprotS := 0 }) ts), tg (fun g => { g with fprotS := 0 }) ts, tg (fun g => { g with recs := CMap.set (fun _ => (⟨⟨0,false,false,false⟩, ⟨0,false,false,false⟩⟩ : RecPair)) g.recs 1 ⟨⟨0xFFFF, true,false,true⟩,⟨5,false,true,true⟩⟩ }) ts]
theorem witness_TagWrites :
  (∃ (s : State), ∃ (f : TagFrame), ∃ (b : Byte), ∃ (ws : List Word), (FrameReaches s f) ∧ (tagAddressed s.tagm f.mode = true) ∧ (ws.length = 8) ∧ let x := tick f.t s.dev
(writeRefused s.tagm b.toNat f.t ws = false) ∧ (writeSupply x f.vh3 = true) ∧ (collapses f 3 = false) ∧ (writeSupply x f.vh4 = true) ∧ (collapses f 4 = false) ∧ True) ∧
  (∃ (s : State), ∃ (f : TagFrame), ∃ (b : Byte), ∃ (ws : List Word), (FrameReaches s f) ∧ (tagAddressed s.tagm f.mode = true) ∧ (ws.length = 8) ∧ let x := tick f.t s.dev
(writeRefused s.tagm b.toNat f.t ws = false) ∧ (writeSupply x f.vh3 = true) ∧ (collapses f 3 = false) ∧ (writeSupply x f.vh4 = false) ∧ True) ∧
  (∃ (s : State), ∃ (f : TagFrame), ∃ (b : Byte), ∃ (ws : List Word), (FrameReaches s f) ∧ (tagAddressed s.tagm f.mode = true) ∧ (ws.length = 8) ∧ (writeRefused s.tagm b.toNat f.t ws = true) ∧ True) :=
  ⟨⟨(lState[0]'(by decide)), ⟨(lTagFrame[0]'(by decide)), ⟨0x01#8, ⟨[0x00000001#32, 0x00000002#32, 0x00000003#32, 0x00000004#32, 0x00000005#32, 0x00000006#32, 0x00000007#32, 0x00000008#32], by decide +kernel⟩⟩⟩⟩,
  ⟨(lState[1]'(by decide)), ⟨(lTagFrame[4]'(by decide)), ⟨0x01#8, ⟨[0x00000001#32, 0x00000002#32, 0x00000003#32, 0x00000004#32, 0x00000005#32, 0x00000006#32, 0x00000007#32, 0x00000008#32], by decide +kernel⟩⟩⟩⟩,
  ⟨(lState[0]'(by decide)), ⟨(lTagFrame[0]'(by decide)), ⟨0x00#8, ⟨[0x00000001#32, 0x00000002#32, 0x00000003#32, 0x00000004#32, 0x00000005#32, 0x00000006#32, 0x00000007#32, 0x00000008#32], by decide +kernel⟩⟩⟩⟩⟩
end TagWrites

namespace TagPorts
def lState : List State := [ts, s1, rg Reg.TAGM_MB_IDX 0x3F8 ts, rg Reg.TAGM_MB_IDX 0x7FF (tg (fun g => { g with latch := some (255, [1,2,3,4,5,6,7,8]) }) ts)]
theorem witness_TagPorts :
  (∃ (s : State), ∃ (t : Nat), ∃ (r : Reader), (s.tagm.hostW = none) ∧ let x := tick t s.dev
(domPower x 0 = .on) ∧ let i := reg x Reg.TAGM_MB_IDX
(fld i 2 0 = 0) ∧ True) ∧
  (∃ (s : State), ∃ (t : Nat), ∃ (r : Reader), (s.tagm.hostW = none) ∧ let x := tick t s.dev
(domPower x 0 = .on) ∧ let i := reg x Reg.TAGM_MB_IDX
let b := fld i 10 3
∃ ws, (fld i 2 0 ≠ 0) ∧ (s.tagm.latch = some (b, ws)) ∧ True) ∧
  (∃ (s : State), ∃ (t : Nat), ∃ (r : Reader), (s.tagm.hostW = none) ∧ let x := tick t s.dev
(domPower x 0 = .on) ∧ ∃ (v : Word), (4 ≤ fld v 12 8) ∧ True) ∧
  (∃ (s : State), ∃ (t : Nat), ∃ (r : Reader), (s.tagm.hostW = none) ∧ let x := tick t s.dev
(domPower x 0 = .on) ∧ ∃ (v : Word), (fld v 12 8 < 4) ∧ True) :=
  ⟨⟨(lState[0]'(by decide)), ⟨0, ⟨(Sys2Proof.Reader.spiA), by decide +kernel⟩⟩⟩,
  ⟨(lState[3]'(by decide)), ⟨0, ⟨(Sys2Proof.Reader.spiA), ⟨by decide +kernel, ⟨by decide +kernel, ⟨[0x00000001#32, 0x00000002#32, 0x00000003#32, 0x00000004#32, 0x00000005#32, 0x00000006#32, 0x00000007#32, 0x00000008#32], by decide +kernel⟩⟩⟩⟩⟩⟩,
  ⟨(lState[0]'(by decide)), ⟨0, ⟨(Sys2Proof.Reader.spiA), ⟨by decide +kernel, ⟨by decide +kernel, ⟨0xffffffff#32, by decide +kernel⟩⟩⟩⟩⟩⟩,
  ⟨(lState[0]'(by decide)), ⟨0, ⟨(Sys2Proof.Reader.spiA), ⟨by decide +kernel, ⟨by decide +kernel, ⟨0x00000005#32, by decide +kernel⟩⟩⟩⟩⟩⟩⟩
end TagPorts

namespace TagRequests
def lState : List State := [ts, tg (fun g => { g with tagSt := .selected }) ts, tg (fun g => { g with tagSt := .quiet }) ts, tg (fun g => { g with lock := some 1, fram := [(3, 0x1234)] }) ts]
theorem witness_TagRequests :
  (∃ (s : State), ∃ (f : TagFrame), (FrameReaches s f) ∧ let g := s.tagm
∃ (slots : Bool), ∃ (mask : List Bool), ∃ (afi : Option Byte), (g.tagSt ≠ .quiet) ∧ (maskFits g.uid mask = true) ∧ (mask.length ≤ (if slots then 60 else 64)) ∧ (afi.all (fun a : Byte => afiFits a.toNat (fld g.cfgS 23 16)) = true) ∧ True) ∧
  (∃ (s : State), ∃ (f : TagFrame), (FrameReaches s f) ∧ let g := s.tagm
∃ (slots : Bool), ∃ (mask : List Bool), ∃ (afi : Option Byte), (g.tagSt = .quiet ∨ maskFits g.uid mask = false) ∧ True) ∧
  (∃ (s : State), ∃ (f : TagFrame), (FrameReaches s f) ∧ let g := s.tagm
(f.mode = .addressed g.uid) ∧ True) ∧
  (∃ (s : State), ∃ (f : TagFrame), (FrameReaches s f) ∧ let g := s.tagm
(tagAddressed g f.mode = true) ∧ ∃ b : Byte, (readDenied g b.toNat = true) ∧ True) ∧
  (∃ (s : State), ∃ (f : TagFrame), (FrameReaches s f) ∧ let g := s.tagm
(tagAddressed g f.mode = true) ∧ ∃ b : Byte, (readDenied g b.toNat = false) ∧ True) ∧
  (∃ (s : State), ∃ (f : TagFrame), (FrameReaches s f) ∧ let g := s.tagm
(tagAddressed g f.mode = true) ∧ ∃ (b : Byte), ∃ (n : Nat), (n ≤ 8) ∧ (b.toNat + n ≤ 256) ∧ ((∀ i, i < n → readDenied g (b.toNat + i) = false)) ∧ True) ∧
  (∃ (s : State), ∃ (f : TagFrame), (FrameReaches s f) ∧ let g := s.tagm
(tagAddressed g f.mode = true) ∧ ∃ (b : Byte), ∃ (n : Nat), (8 < n ∨ 256 < b.toNat + n) ∧ True) ∧
  (∃ (s : State), ∃ (f : TagFrame), (FrameReaches s f) ∧ let g := s.tagm
(tagAddressed g f.mode = true) ∧ ∃ (b : Byte), ∃ (n : Nat), (256 < b.toNat + n) ∧ True) ∧
  (∃ (s : State), ∃ (f : TagFrame), (FrameReaches s f) ∧ let g := s.tagm
(tagDirect g f.mode = true) ∧ True) :=
  ⟨⟨(lState[0]'(by decide)), ⟨(lTagFrame[0]'(by decide)), ⟨by decide +kernel, ⟨true, ⟨[], ⟨none, by decide +kernel⟩⟩⟩⟩⟩⟩,
  ⟨(lState[0]'(by decide)), ⟨(lTagFrame[0]'(by decide)), ⟨by decide +kernel, ⟨true, ⟨[true], ⟨none, by decide +kernel⟩⟩⟩⟩⟩⟩,
  ⟨(lState[0]'(by decide)), ⟨(lTagFrame[1]'(by decide)), by decide +kernel⟩⟩,
  ⟨(lState[0]'(by decide)), ⟨(lTagFrame[0]'(by decide)), ⟨by decide +kernel, ⟨by decide +kernel, ⟨0x00#8, by decide +kernel⟩⟩⟩⟩⟩,
  ⟨(lState[0]'(by decide)), ⟨(lTagFrame[0]'(by decide)), ⟨by decide +kernel, ⟨by decide +kernel, ⟨0x34#8, by decide +kernel⟩⟩⟩⟩⟩,
  ⟨(lState[0]'(by decide)), ⟨(lTagFrame[0]'(by decide)), ⟨by decide +kernel, ⟨by decide +kernel, ⟨0x00#8, ⟨0, by decide +kernel⟩⟩⟩⟩⟩⟩,
  ⟨(lState[0]'(by decide)), ⟨(lTagFrame[0]'(by decide)), ⟨by decide +kernel, ⟨by decide +kernel, ⟨0x00#8, ⟨9, by decide +kernel⟩⟩⟩⟩⟩⟩,
  ⟨(lState[0]'(by decide)), ⟨(lTagFrame[0]'(by decide)), ⟨by decide +kernel, ⟨by decide +kernel, ⟨0x11#8, ⟨240, by decide +kernel⟩⟩⟩⟩⟩⟩,
  ⟨(lState[0]'(by decide)), ⟨(lTagFrame[1]'(by decide)), by decide +kernel⟩⟩⟩
end TagRequests

end Sys2Proof.Tests.P33

namespace Sys2Proof.Tests.P40

def rg (a : Nat) (v : Word) (s : State) : State := mapDev (fun d => setReg a v { d with set0 := { d.set0 with regs := CMap.set (fun _ => 0) d.set0.regs a v }, set1 := { d.set1 with regs := CMap.set (fun _ => 0) d.set1.regs a v } }) s
def pw (n : Nat) (s : State) : State := mapDev (fun d => setDom n { dom d n with pos := .on, pend := none } d) s
def sP : State := (List.range 13).foldl (fun s n => pw n s) s1
def sU : State := { sP with tagm := { sP.tagm with hostW := none } }
def op0 : Op := ⟨7, 0x300, 2, 0, false, false, true, .running, .none, false, false, 0, 0, 0, 0, 1, [0,0,0,0], 0, none, false, [], none, none, false⟩
def both (a : Nat) (v : Word) (s : State) : State := mapDev (setReg a v ∘ setReg (a + 0x8000) v) s
def ptrs : List Word := [0, 0x104, 0x241, 0x200, 0x24F, 0x242, 0x0350]
def st (k : Nat) : State := let v : Word := nth 0 [0, 0x104, 0x241, 0x200, 0x24F, 0x242, 0x0350] k
  let s := [0x099, 0x307, 0x488, 0x520, 0x5E0].foldl (fun s a => both a (if a = 0x099 then v else nth 0 [0, 0xFFF, 0x3FF, 0x7FF, 63, 62, 0x800] k) s) sU
  mapDev (fun d => { d with set0 := { d.set0 with plan := [(0, 7), (3, 8), (239, 9)], chan := [(0, 5), (63, 6)], tab := [(0, 0x1234567890)], fb := [(0, 4)], hffb := [(0, 4)] } }) s
def sts : List State := (List.range 7).map st

namespace MemoryReads
def lState : List State := sts
theorem witness_MemoryReads :
  (∃ (s : State), ∃ (t : Nat), ∃ (r : Reader), ∃ (sh : Bool), (s.tagm.hostW = none) ∧ let x := tick t s.dev
let p := fun a => reg x (if sh then a + 0x8000 else a)
(domPower x 0 = .on) ∧ (fld (p 0x099) 9 8 < 3) ∧ (fld (p 0x099) 6 4 < 5) ∧ True) ∧
  (∃ (s : State), ∃ (t : Nat), ∃ (r : Reader), ∃ (sh : Bool), (s.tagm.hostW = none) ∧ let x := tick t s.dev
(domPower x 8 = .on) ∧ True) ∧
  (∃ (s : State), ∃ (t : Nat), ∃ (r : Reader), ∃ (sh : Bool), (s.tagm.hostW = none) ∧ let x := tick t s.dev
(domPower x 7 = .on) ∧ True) ∧
  (∃ (s : State), ∃ (t : Nat), ∃ (r : Reader), ∃ (sh : Bool), (s.tagm.hostW = none) ∧ let x := tick t s.dev
(domPower x 11 = .on) ∧ True) :=
  ⟨⟨(lState[0]'(by decide)), ⟨0, ⟨(Sys2Proof.Reader.spiA), ⟨true, by decide +kernel⟩⟩⟩⟩,
  ⟨(lState[0]'(by decide)), ⟨0, ⟨(Sys2Proof.Reader.spiA), ⟨true, by decide +kernel⟩⟩⟩⟩,
  ⟨(lState[0]'(by decide)), ⟨0, ⟨(Sys2Proof.Reader.spiA), ⟨true, by decide +kernel⟩⟩⟩⟩,
  ⟨(lState[0]'(by decide)), ⟨0, ⟨(Sys2Proof.Reader.spiA), ⟨true, by decide +kernel⟩⟩⟩⟩⟩
end MemoryReads

namespace MemoryWrites
def lState : List State := sts
theorem witness_MemoryWrites :
  (∃ (s : State), ∃ (t : Nat), ∃ (v : Word), (s.tagm.hostW = none) ∧ let x := tick t s.dev
let p := fun a => reg x (a + 0x8000)
(domPower x 0 = .on) ∧ (fld (p 0x099) 9 8 < 3) ∧ (fld (p 0x099) 6 4 < 5) ∧ True) ∧
  (∃ (s : State), ∃ (t : Nat), ∃ (v : Word), (s.tagm.hostW = none) ∧ let x := tick t s.dev
let c := shadowSet x
let chanOk := bit v 31 = false ∨ freqOk (chanFreq c (fld v 11 0)) = true
(domPower x 8 = .on) ∧ (chanOk) ∧ True) ∧
  (∃ (s : State), ∃ (t : Nat), ∃ (v : Word), (s.tagm.hostW = none) ∧ let x := tick t s.dev
let c := shadowSet x
let chanOk := bit v 31 = false ∨ freqOk (chanFreq c (fld v 11 0)) = true
(domPower x 8 = .on) ∧ (¬ chanOk) ∧ True) ∧
  (∃ (s : State), ∃ (t : Nat), ∃ (v : Word), (s.tagm.hostW = none) ∧ let x := tick t s.dev
∃ i, (i ∈ [Instr.planDataAccess t .fw false (some v), .fbDataAccess t .fw false (some v), .tabDataHAccess t .fw false (some v),
      .chanDataWrite t .fw false v, .hfFbDataAccess t .fw false (some v)]) ∧ (domPower x 0 = .on) ∧ (domPower x 7 = .on) ∧ (domPower x 8 = .on) ∧ (domPower x 11 = .on) ∧ True) :=
  ⟨⟨(lState[0]'(by decide)), ⟨0, ⟨0x00000000#32, by decide +kernel⟩⟩⟩,
  ⟨(lState[0]'(by decide)), ⟨0, ⟨0x00000000#32, by decide +kernel⟩⟩⟩,
  ⟨(lState[0]'(by decide)), ⟨0, ⟨0xffffffff#32, by decide +kernel⟩⟩⟩,
  ⟨(lState[0]'(by decide)), ⟨0, ⟨0x00000000#32, by decide +kernel⟩⟩⟩⟩
end MemoryWrites

namespace MemoryRefusals
def lState : List State := sts ++ sts.map (mapDev (fun d => { d with seq := { d.seq with turn := some ⟨9, none, some 500, true⟩ } }))
theorem witness_MemoryRefusals :
  (∃ (s : State), ∃ (t : Nat), ∃ (v : Word), ∃ (b : Bool), (s.tagm.hostW = none) ∧ let x := tick t s.dev
let r := if b then Reader.spiB else Reader.spiA
let held := shadowHeld x r
(held = false) ∧ (domPower x 7 = .on) ∧ (fld (reg x 0x8488) 11 0 < 0x800) ∧ True) ∧
  (∃ (s : State), ∃ (t : Nat), ∃ (v : Word), ∃ (b : Bool), (s.tagm.hostW = none) ∧ let x := tick t s.dev
let r := if b then Reader.spiB else Reader.spiA
let held := shadowHeld x r
(held = false) ∧ (domPower x 7 = .on) ∧ (fld (reg x 0x8520) 9 0 < 512) ∧ True) ∧
  (∃ (s : State), ∃ (t : Nat), ∃ (v : Word), ∃ (b : Bool), (s.tagm.hostW = none) ∧ let x := tick t s.dev
let r := if b then Reader.spiB else Reader.spiA
let held := shadowHeld x r
(held = false) ∧ (domPower x 11 = .on) ∧ (fld (reg x 0x85E0) 10 0 < 512) ∧ True) ∧
  (∃ (s : State), ∃ (t : Nat), ∃ (v : Word), ∃ (b : Bool), (s.tagm.hostW = none) ∧ let x := tick t s.dev
let r := if b then Reader.spiB else Reader.spiA
let held := shadowHeld x r
(held = true) ∧ (domPower x 0 = .on) ∧ (domPower x 7 = .on) ∧ (domPower x 8 = .on) ∧ (domPower x 11 = .on) ∧ ∃ i, (i ∈ [Instr.planDataAccess t r true (some v), .chanDataWrite t r true v, .tabDataHAccess t r true (some v),
        .fbDataAccess t r true (some v), .hfFbDataAccess t r true (some v)]) ∧ True) :=
  ⟨⟨(lState[0]'(by decide)), ⟨0, ⟨0x00000000#32, ⟨true, by decide +kernel⟩⟩⟩⟩,
  ⟨(lState[0]'(by decide)), ⟨0, ⟨0x00000000#32, ⟨true, by decide +kernel⟩⟩⟩⟩,
  ⟨(lState[0]'(by decide)), ⟨0, ⟨0x00000000#32, ⟨true, by decide +kernel⟩⟩⟩⟩,
  ⟨(lState[7]'(by decide)), ⟨0, ⟨0x00000000#32, ⟨true, by decide +kernel⟩⟩⟩⟩⟩
end MemoryRefusals

namespace PointerPorts
def pp (v : Word) : State := [Reg.UHF_CANC_IDX, Reg.LINK_M_IDX, Reg.CAL_SNR_IDX, Reg.SVC_LEDGER_IDX, Reg.CORE_UC_IDX].foldl (fun s a => mapDev (setReg a v) s) sU
def lState : List State := [pp 0, pp 0x7FF, pp 0x4FFFF, pp 0x23, pp 35, pp 0x30003, mapDev (fun d => { d with svc := { d.svc with ledger := [[1,2,3,4,5]] } , cal := { d.cal with snr := [(0, 6)]}}) (pp 0)]
theorem witness_PointerPorts :
  (∃ (s : State), ∃ (t : Nat), ∃ (r : Reader), (s.tagm.hostW = none) ∧ let x := tick t s.dev
(domPower x 8 = .on) ∧ True) ∧
  (∃ (s : State), ∃ (t : Nat), ∃ (r : Reader), (s.tagm.hostW = none) ∧ let x := tick t s.dev
(r ≠ .applet) ∧ (domPower x 2 = .on) ∧ True) ∧
  (∃ (s : State), ∃ (t : Nat), ∃ (r : Reader), (s.tagm.hostW = none) ∧ let x := tick t s.dev
(domPower x 12 = .on) ∧ True) ∧
  (∃ (s : State), ∃ (t : Nat), ∃ (r : Reader), (s.tagm.hostW = none) ∧ let x := tick t s.dev
(domPower x 0 = .on) ∧ True) ∧
  (∃ (s : State), ∃ (t : Nat), ∃ (r : Reader), (s.tagm.hostW = none) ∧ let x := tick t s.dev
(domPower x (coreDom x) = .on) ∧ True) :=
  ⟨⟨(lState[0]'(by decide)), ⟨0, ⟨(Sys2Proof.Reader.spiA), by decide +kernel⟩⟩⟩,
  ⟨(lState[0]'(by decide)), ⟨0, ⟨(Sys2Proof.Reader.spiA), by decide +kernel⟩⟩⟩,
  ⟨(lState[0]'(by decide)), ⟨0, ⟨(Sys2Proof.Reader.spiA), by decide +kernel⟩⟩⟩,
  ⟨(lState[0]'(by decide)), ⟨0, ⟨(Sys2Proof.Reader.spiA), by decide +kernel⟩⟩⟩,
  ⟨(lState[0]'(by decide)), ⟨0, ⟨(Sys2Proof.Reader.spiA), by decide +kernel⟩⟩⟩⟩
end PointerPorts

namespace ControlStorePort
def cc (f : Core → Core) (s : State) : State := mapDev (fun d => setCore (f (coreIn d)) d) s
def base : State := mapDev (setReg Reg.CORE_UC_DATA_L 0x89ABCDEF) sU
def lState : List State := [base, mapDev (setReg Reg.CORE_UC_IDX 255) base, mapDev (setReg Reg.CORE_UC_IDX 3) (cc (fun c => { c with dec := [(0, 0x80000105)] }) base)]
theorem witness_ControlStorePort :
  (∃ (s : State), ∃ (t : Nat), ∃ (r : Reader), ∃ (v : Word), ∃ (n : Fin 16), (s.tagm.hostW = none) ∧ let x := tick t s.dev
(domPower x (coreDom x) = .on) ∧ let c := coreIn x
let i := fld (reg x Reg.CORE_UC_IDX) 7 0
(r = .spiA ∨ r = .spiB) ∧ (ucInSpan c i = false) ∧ True) ∧
  (∃ (s : State), ∃ (t : Nat), ∃ (r : Reader), ∃ (v : Word), ∃ (n : Fin 16), (s.tagm.hostW = none) ∧ let x := tick t s.dev
(domPower x (coreDom x) = .on) ∧ let c := coreIn x
let i := fld (reg x Reg.CORE_UC_IDX) 7 0
(r = .spiA ∨ r = .spiB) ∧ (ucInSpan c i = true) ∧ True) ∧
  (∃ (s : State), ∃ (t : Nat), ∃ (r : Reader), ∃ (v : Word), ∃ (n : Fin 16), (s.tagm.hostW = none) ∧ let x := tick t s.dev
(domPower x (coreDom x) = .on) ∧ (r = .spiA ∨ r = .spiB) ∧ (bit v 31 = false ∨ fld v 15 8 + fld v 3 0 ≤ 255) ∧ True) ∧
  (∃ (s : State), ∃ (t : Nat), ∃ (r : Reader), ∃ (v : Word), ∃ (n : Fin 16), (s.tagm.hostW = none) ∧ let x := tick t s.dev
(domPower x (coreDom x) = .on) ∧ (r = .spiA ∨ r = .spiB) ∧ (bit v 31 = true) ∧ (255 < fld v 15 8 + fld v 3 0) ∧ True) ∧
  (∃ (s : State), ∃ (t : Nat), ∃ (r : Reader), ∃ (v : Word), ∃ (n : Fin 16), (s.tagm.hostW = none) ∧ let x := tick t s.dev
(domPower x (coreDom x) = .on) ∧ (r = .fw ∨ r = .applet) ∧ True) :=
  ⟨⟨(lState[0]'(by decide)), ⟨0, ⟨(Sys2Proof.Reader.spiA), ⟨0x00000000#32, ⟨0, by decide +kernel⟩⟩⟩⟩⟩,
  ⟨(lState[2]'(by decide)), ⟨0, ⟨(Sys2Proof.Reader.spiA), ⟨0x00000000#32, ⟨0, by decide +kernel⟩⟩⟩⟩⟩,
  ⟨(lState[0]'(by decide)), ⟨0, ⟨(Sys2Proof.Reader.spiA), ⟨0x00000000#32, ⟨0, by decide +kernel⟩⟩⟩⟩⟩,
  ⟨(lState[0]'(by decide)), ⟨0, ⟨(Sys2Proof.Reader.spiA), ⟨0xffffffff#32, ⟨0, by decide +kernel⟩⟩⟩⟩⟩,
  ⟨(lState[0]'(by decide)), ⟨0, ⟨(Sys2Proof.Reader.fw), ⟨0x00000000#32, ⟨0, by decide +kernel⟩⟩⟩⟩⟩⟩
end ControlStorePort

end Sys2Proof.Tests.P40

namespace Sys2Proof.Tests.P41

def rg (a : Nat) (v : Word) (s : State) : State := mapDev (fun d => setReg a v { d with set0 := { d.set0 with regs := CMap.set (fun _ => 0) d.set0.regs a v }, set1 := { d.set1 with regs := CMap.set (fun _ => 0) d.set1.regs a v } }) s
def pw (n : Nat) (s : State) : State := mapDev (fun d => setDom n { dom d n with pos := .on, pend := none } d) s
def sP : State := (List.range 13).foldl (fun s n => pw n s) s1
def sU : State := { sP with tagm := { sP.tagm with hostW := none } }
def op0 : Op := ⟨7, 0x300, 2, 0, false, false, true, .running, .none, false, false, 0, 0, 0, 0, 1, [0,0,0,0], 0, none, false, [], none, none, false⟩
def both (a : Nat) (v : Word) (s : State) : State := mapDev (setReg a v ∘ setReg (a + 0x8000) v) s
def off (n : Nat) (s : State) : State := mapDev (fun d => setDom n { dom d n with pos := .off, pend := none } d) s
def rt (n : Nat) (s : State) : State := mapDev (fun d => setDom n { dom d n with pos := .ret, pend := none } d) s

namespace RegisterWrites
def lState : List State := [sU, (List.range 0x800).foldl (fun s a => mapDev (fun d => if regDefined a then setReg a 0xFFFFFFFF d else d) s) sU, (List.range 13).foldl (fun s n => off n s) sU]
theorem witness_RegisterWrites :
  (∃ (s : State), ∃ (t : Nat), ∃ (r : Reader), ∃ (sh : Bool), ∃ (addr : BitVec 13), ∃ (v : Word), let a := addr.toNat
(a < 0x800) ∧ (s.tagm.hostW = none) ∧ ((r = .applet → appletBarred a = false)) ∧ (regDefined a = false) ∧ True) ∧
  (∃ (s : State), ∃ (t : Nat), ∃ (r : Reader), ∃ (sh : Bool), ∃ (addr : BitVec 13), ∃ (v : Word), let a := addr.toNat
let y := tick t s.dev
(a < 0x800) ∧ (s.tagm.hostW = none) ∧ ((r = .applet → appletBarred a = false)) ∧ (regDefined a = true) ∧ (domPower y (bankDomain y a) ≠ .on) ∧ True) ∧
  (∃ (s : State), ∃ (t : Nat), ∃ (r : Reader), ∃ (sh : Bool), ∃ (addr : BitVec 13), ∃ (v : Word), let a := addr.toNat
let y := tick t s.dev
(a < 0x800) ∧ (s.tagm.hostW = none) ∧ ((r = .applet → appletBarred a = false)) ∧ (regDefined a = true) ∧ (domPower y (bankDomain y a) = .on) ∧ (PlainRegister r a) ∧ (sh = false) ∧ (CMap.get (fun _ => 0) (tickMarks y).ev a = 0) ∧ True) ∧
  (∃ (s : State), ∃ (t : Nat), ∃ (r : Reader), ∃ (sh : Bool), ∃ (addr : BitVec 13), ∃ (v : Word), let a := addr.toNat
let i := regInfo a
let y := tick t s.dev
(a < 0x800) ∧ (s.tagm.hostW = none) ∧ ((r = .applet → appletBarred a = false)) ∧ (regDefined a = true) ∧ (domPower y (bankDomain y a) = .on) ∧ (portPointer a = none) ∧ (pointerMask a = none) ∧ (sh = true) ∧ (r = .fw) ∧ (a ≠ Reg.TIME_PLAN_CFG) ∧ (a ≠ Reg.HF_CFG) ∧ (i.sp ≠ 0) ∧ True) :=
  ⟨⟨(lState[0]'(by decide)), ⟨0, ⟨(Sys2Proof.Reader.spiA), ⟨true, ⟨0x0400#13, ⟨0x00000000#32, by decide +kernel⟩⟩⟩⟩⟩⟩,
  ⟨(lState[2]'(by decide)), ⟨0, ⟨(Sys2Proof.Reader.spiA), ⟨true, ⟨0x0000#13, ⟨0x00000000#32, by decide +kernel⟩⟩⟩⟩⟩⟩,
  ⟨(lState[0]'(by decide)), 0, Reader.spiA, false, 0, 0, by decide +kernel, by decide +kernel, by decide +kernel, by decide +kernel, by decide +kernel, ⟨by decide +kernel, by decide +kernel, fun _ _ => rfl⟩, by decide +kernel, by decide +kernel, trivial⟩,
  ⟨(lState[0]'(by decide)), ⟨0, ⟨(Sys2Proof.Reader.fw), ⟨true, ⟨0x0318#13, ⟨0x00000000#32, by decide +kernel⟩⟩⟩⟩⟩⟩⟩
end RegisterWrites

namespace LatchedPairs
def lState : List State := [sU, mapDev (fun d => { d with tb := { d.tb with cyc := 0x123456789ABCD } }) sU]
theorem witness_LatchedPairs :
  (∃ (s : State), ∃ (t : Nat), ∃ (r : Reader), ∃ (addr : BitVec 13), (s.tagm.hostW = none) ∧ let x := tick t s.dev
(regDefined addr.toNat = true) ∧ (domPower x (bankDomain x addr.toNat) = .on) ∧ ∃ pair, ∃ h, (latchLow x addr.toNat = some (pair, h)) ∧ True) ∧
  (∃ (s : State), ∃ (t : Nat), ∃ (r : Reader), ∃ (addr : BitVec 13), (s.tagm.hostW = none) ∧ let x := tick t s.dev
(regDefined addr.toNat = true) ∧ (domPower x (bankDomain x addr.toNat) = .on) ∧ ∃ pair, (latchHigh addr.toNat = some pair) ∧ True) :=
  ⟨⟨(lState[0]'(by decide)), ⟨0, ⟨(Sys2Proof.Reader.spiA), ⟨0x0088#13, ⟨by decide +kernel, ⟨by decide +kernel, ⟨by decide +kernel, ⟨0, ⟨0x00000000#32, by decide +kernel⟩⟩⟩⟩⟩⟩⟩⟩⟩,
  ⟨(lState[0]'(by decide)), ⟨0, ⟨(Sys2Proof.Reader.spiA), ⟨0x0089#13, ⟨by decide +kernel, ⟨by decide +kernel, ⟨by decide +kernel, ⟨0, by decide +kernel⟩⟩⟩⟩⟩⟩⟩⟩⟩
end LatchedPairs

namespace SetCopies
def lState : List State := [sU, mapDev (fun d => { d with seq := { d.seq with turn := some ⟨9, none, some 500, true⟩ } }) sU, mapDev (fun d => { d with seq := { d.seq with turn := some ⟨9, none, none, false⟩ }, sys := { d.sys with copyEnd := some 5 } }) sU, mapDev (fun d => { d with sys := { d.sys with copyEnd := some 5 } }) sU]
theorem witness_SetCopies :
  (∃ (s : State), ∃ (t : Nat), ∃ (r : Reader), let x := tick t s.dev
(s.tagm.hostW = none) ∧ (domPower x 0 = .on) ∧ (r ≠ .applet) ∧ (x.seq.turn = none) ∧ (x.sys.copyEnd = none) ∧ True) ∧
  (∃ (s : State), ∃ (t : Nat), ∃ (r : Reader), let x := tick t s.dev
(s.tagm.hostW = none) ∧ (domPower x 0 = .on) ∧ (r ≠ .applet) ∧ (x.seq.turn.isSome = true ∨ x.sys.copyEnd.isSome = true) ∧ True) ∧
  (∃ (s : State), ∃ (t : Nat), ∃ (r : Reader), (s.tagm.hostW = none) ∧ (r = .applet) ∧ True) ∧
  (∃ (s : State), ∃ (t : Nat), ∃ (r : Reader), let x := tick t s.dev
∃ e, (x.sys.copyEnd = some e) ∧ (e ≤ x.now) ∧ True) ∧
  (∃ (s : State), ∃ (t : Nat), ∃ (r : Reader), let x := tick t s.dev
∃ e, (x.sys.copyEnd = some e) ∧ (x.now < e) ∧ True) :=
  ⟨⟨(lState[0]'(by decide)), ⟨0, ⟨(Sys2Proof.Reader.spiA), by decide +kernel⟩⟩⟩,
  ⟨(lState[1]'(by decide)), ⟨0, ⟨(Sys2Proof.Reader.spiA), by decide +kernel⟩⟩⟩,
  ⟨(lState[0]'(by decide)), ⟨0, ⟨(Sys2Proof.Reader.applet), by decide +kernel⟩⟩⟩,
  ⟨(lState[2]'(by decide)), ⟨5, ⟨(Sys2Proof.Reader.spiA), ⟨5, by decide +kernel⟩⟩⟩⟩,
  ⟨(lState[2]'(by decide)), ⟨0, ⟨(Sys2Proof.Reader.spiA), ⟨5, by decide +kernel⟩⟩⟩⟩⟩
end SetCopies

namespace SystemControl
def lState : List State := [sU, mapDev (fun d => { d with uhf := { d.uhf with carrier := true, st := .tx }, hf := { d.hf with field := 1 }, ops := [op0] , svc := { d.svc with ledger := [[1]] }}) sU]
theorem witness_SystemControl :
  (∃ (s : State), ∃ (t : Nat), ∃ (r : Reader), ∃ (v : Word), (s.tagm.hostW = none) ∧ (r = .applet) ∧ True) ∧
  (∃ (s : State), ∃ (t : Nat), ∃ (r : Reader), ∃ (v : Word), (s.tagm.hostW = none) ∧ let x := tick t s.dev
(domPower x 0 = .on) ∧ (r ≠ .applet) ∧ (fld v 31 24 ≠ 0xA5) ∧ True) ∧
  (∃ (s : State), ∃ (t : Nat), ∃ (r : Reader), ∃ (v : Word), (s.tagm.hostW = none) ∧ let x := tick t s.dev
(domPower x 0 = .on) ∧ (r ≠ .applet) ∧ (fld v 31 24 = 0xA5) ∧ (bit v 0 = false) ∧ (x.svc.safe = false) ∧ True) ∧
  (∃ (s : State), ∃ (t : Nat), ∃ (r : Reader), ∃ (v : Word), (s.tagm.hostW = none) ∧ let x := tick t s.dev
(domPower x 0 = .on) ∧ (r ≠ .applet) ∧ (fld v 31 24 = 0xA5) ∧ (bit v 1 = false) ∧ True) :=
  ⟨⟨(lState[0]'(by decide)), ⟨0, ⟨(Sys2Proof.Reader.applet), ⟨0x00000000#32, by decide +kernel⟩⟩⟩⟩,
  ⟨(lState[0]'(by decide)), ⟨0, ⟨(Sys2Proof.Reader.spiA), ⟨0x00000000#32, by decide +kernel⟩⟩⟩⟩,
  ⟨(lState[0]'(by decide)), ⟨0, ⟨(Sys2Proof.Reader.spiA), ⟨0xa5000002#32, by decide +kernel⟩⟩⟩⟩,
  ⟨(lState[0]'(by decide)), ⟨0, ⟨(Sys2Proof.Reader.spiA), ⟨0xa5000001#32, by decide +kernel⟩⟩⟩⟩⟩
end SystemControl

namespace ModeWrites
def lState : List State := [sU, (List.range 13).foldl (fun s n => off n s) sU, (List.range 13).foldl (fun s n => rt n s) sU, s1, s0]
theorem witness_ModeWrites :
  ∃ (s : State), ∃ (t : Nat), ∃ (r : Reader), ∃ (v : Word), (s.tagm.hostW = none) ∧ let x := tick t s.dev
(domPower x 0 = .on) ∧ (r ≠ .applet) ∧ True :=
  ⟨(lState[0]'(by decide)), ⟨0, ⟨(Sys2Proof.Reader.spiA), ⟨0x00000000#32, by decide +kernel⟩⟩⟩⟩
end ModeWrites

namespace FenceControl
def lState : List State := [sU, mapDev (fun d => { d with svc := { d.svc with fences := 0x000A8020, opens := [], queue := [] } }) sU, mapDev (fun d => { d with svc := { d.svc with fences := 0x00130000, opens := [], queue := [] } }) sU]
def lOp : List Op := [op0]
theorem witness_FenceControl :
  (∃ (s : State), ∃ (t : Nat), ∃ (r : Reader), ∃ (v : Word), (s.tagm.hostW = none) ∧ let x := tick t s.dev
(domPower x 0 = .on) ∧ (r ≠ .applet) ∧ (fld v 31 24 ≠ 0x5A) ∧ True) ∧
  (∃ (s : State), ∃ (t : Nat), ∃ (r : Reader), ∃ (v : Word), (s.tagm.hostW = none) ∧ let x := tick t s.dev
(domPower x 0 = .on) ∧ (r ≠ .applet) ∧ let b := fld v 7 0
(fld v 31 24 = 0x5A) ∧ (b ∈ [5, 0x0E, 0x10, 0x11, 0x13, 0x15]) ∧ (bit v 8 = false) ∧ (fenced x b = false) ∧ ((∀ o ∈ x.ops, o.st ≠ .running)) ∧ True) ∧
  (∃ (s : State), ∃ (t : Nat), ∃ (r : Reader), ∃ (v : Word), (s.tagm.hostW = none) ∧ let x := tick t s.dev
(domPower x 0 = .on) ∧ (r ≠ .applet) ∧ let b := fld v 7 0
(fld v 31 24 = 0x5A) ∧ (b ∈ [5, 0x0E, 0x10, 0x11, 0x13, 0x15]) ∧ (bit v 8 = true) ∧ (fenced x b = true) ∧ (x.svc.opens = []) ∧ (x.svc.queue = []) ∧ True) ∧
  (∃ (s : State), ∃ (t : Nat), ∃ (r : Reader), ∃ (v : Word), (s.tagm.hostW = none) ∧ let x := tick t s.dev
(domPower x 0 = .on) ∧ (r ≠ .applet) ∧ let b := fld v 7 0
(fld v 31 24 = 0x5A) ∧ (blockFences b = false ∨ bit v 8 ≠ fenced x b) ∧ True) :=
  ⟨⟨(lState[0]'(by decide)), ⟨0, ⟨(Sys2Proof.Reader.spiA), ⟨0x00000000#32, by decide +kernel⟩⟩⟩⟩,
  ⟨(lState[0]'(by decide)), ⟨0, ⟨(Sys2Proof.Reader.spiA), ⟨0x5a000005#32, by decide +kernel⟩⟩⟩⟩,
  ⟨(lState[1]'(by decide)), ⟨0, ⟨(Sys2Proof.Reader.spiA), ⟨0x5a000105#32, by decide +kernel⟩⟩⟩⟩,
  ⟨(lState[0]'(by decide)), ⟨0, ⟨(Sys2Proof.Reader.spiA), ⟨0x5a000000#32, by decide +kernel⟩⟩⟩⟩⟩
end FenceControl

namespace PortControl
def mst (on : Bool) (bz : Option Nat) (fw : Bool) (c : Word) (s : State) : State := mapDev (fun d => setReg Reg.LINK_M_CTRL c { d with mst := { d.mst with on := on, busy := bz, fw := fw } }) s
def lState : List State := [sU, mapDev (fun d => { d with portA := { d.portA with off := true, seq := 5 } }) sU, mapDev (fun d => { d with portB := { d.portB with off := true, seq := 9 } }) sU, mapDev (fun d => { d with svc := { d.svc with fences := 6 } }) sU]
theorem witness_PortControl :
  (∃ (s : State), ∃ (t : Nat), ∃ (r : Reader), ∃ (b : Bool), (s.tagm.hostW = none) ∧ (r = .applet) ∧ True) ∧
  (∃ (s : State), ∃ (t : Nat), ∃ (r : Reader), ∃ (b : Bool), (s.tagm.hostW = none) ∧ let x := tick t s.dev
let p := port x b
(r ≠ .applet) ∧ (domPower x (if b then 2 else 1) = .on) ∧ (x.mst.on = false) ∧ (p.off = false) ∧ (ownPort r b = false) ∧ ((port x (!b)).off = false) ∧ True) ∧
  (∃ (s : State), ∃ (t : Nat), ∃ (r : Reader), ∃ (b : Bool), (s.tagm.hostW = none) ∧ let x := tick t s.dev
let p := port x b
(r ≠ .applet) ∧ (domPower x (if b then 2 else 1) = .on) ∧ (x.mst.on = false) ∧ (p.off = true ∨ ownPort r b = true ∨ (port x (!b)).off = true) ∧ True) ∧
  (∃ (s : State), ∃ (t : Nat), ∃ (r : Reader), ∃ (b : Bool), (s.tagm.hostW = none) ∧ let x := tick t s.dev
let p := port x b
(r ≠ .applet) ∧ (domPower x (if b then 2 else 1) = .on) ∧ (x.mst.on = false) ∧ (p.off = true) ∧ (fenced x (if b then 2 else 1) = false) ∧ True) ∧
  (∃ (s : State), ∃ (t : Nat), ∃ (r : Reader), ∃ (b : Bool), (s.tagm.hostW = none) ∧ let x := tick t s.dev
(r ≠ .applet) ∧ (domPower x (if b then 2 else 1) = .on) ∧ (x.mst.on = false) ∧ (b = true) ∧ (x.portA.off = false) ∧ True) ∧
  (∃ (s : State), ∃ (t : Nat), ∃ (r : Reader), ∃ (b : Bool), (s.tagm.hostW = none) ∧ let x := tick t s.dev
(r ≠ .applet) ∧ (domPower x (if b then 2 else 1) = .on) ∧ (x.mst.on = false) ∧ (b = true) ∧ (x.portA.off = true) ∧ True) :=
  ⟨⟨(lState[0]'(by decide)), ⟨0, ⟨(Sys2Proof.Reader.applet), ⟨true, by decide +kernel⟩⟩⟩⟩,
  ⟨(lState[0]'(by decide)), ⟨0, ⟨(Sys2Proof.Reader.spiA), ⟨true, by decide +kernel⟩⟩⟩⟩,
  ⟨(lState[0]'(by decide)), ⟨0, ⟨(Sys2Proof.Reader.spiA), ⟨false, by decide +kernel⟩⟩⟩⟩,
  ⟨(lState[1]'(by decide)), ⟨0, ⟨(Sys2Proof.Reader.spiA), ⟨false, by decide +kernel⟩⟩⟩⟩,
  ⟨(lState[0]'(by decide)), ⟨0, ⟨(Sys2Proof.Reader.spiA), ⟨true, by decide +kernel⟩⟩⟩⟩,
  ⟨(lState[1]'(by decide)), ⟨0, ⟨(Sys2Proof.Reader.spiA), ⟨true, by decide +kernel⟩⟩⟩⟩⟩
end PortControl

namespace SpiMaster
def mst (on : Bool) (bz : Option Nat) (fw : Bool) (c : Word) (s : State) : State := mapDev (fun d => setReg Reg.LINK_M_CTRL c { d with mst := { d.mst with on := on, busy := bz, fw := fw, out := List.replicate (fld c 8 0) 7 } }) s
def lState : List State := [mst true none false 0x5 sU, mst true none true 0x40000100 sU, mst true (some 5) true 0x40000100 sU, mst true none false 0x20000004 sU, mst false none false 0x5 sU, mst false (some 1) false 0x5 sU, mst true (some 5) false 0x7 sU, mst true (some 5) false 0 sU, mst true none false 0x101 sU, mapDev (fun d => { d with portB := { d.portB with off := true }}) (mst true none false 0x101 sU)]
theorem witness_SpiMaster :
  (∃ (s : State), ∃ (t : Nat), ∃ (r : Reader), (s.tagm.hostW = none) ∧ let x := tick t s.dev
let m := x.mst
let c := reg x Reg.LINK_M_CTRL
let n := fld c 8 0
(domPower x 2 = .on) ∧ (r ≠ .applet) ∧ (m.on = true) ∧ (m.fw = false ∨ r = .fw) ∧ (m.busy = none) ∧ (1 ≤ n) ∧ (n ≤ 256) ∧ True) ∧
  (∃ (s : State), ∃ (t : Nat), ∃ (r : Reader), (s.tagm.hostW = none) ∧ let x := tick t s.dev
let m := x.mst
let c := reg x Reg.LINK_M_CTRL
let n := fld c 8 0
(domPower x 2 = .on) ∧ (r ≠ .applet) ∧ (m.on = false ∨ m.busy.isSome = true ∨ n = 0 ∨ 256 < n ∨ (m.fw = true ∧ r ≠ .fw)) ∧ True) ∧
  (∃ (s : State), ∃ (t : Nat), ∃ (r : Reader), (s.tagm.hostW = none) ∧ let x := tick t s.dev
let m := x.mst
(domPower x 2 = .on) ∧ (r ≠ .applet) ∧ (m.on = true) ∧ (x.portB.off = false) ∧ (m.leaving = false) ∧ (m.busy = none) ∧ True) ∧
  (∃ (s : State), ∃ (t : Nat), ∃ (r : Reader), (s.tagm.hostW = none) ∧ let x := tick t s.dev
let m := x.mst
(domPower x 2 = .on) ∧ (r ≠ .applet) ∧ (m.on = true) ∧ (x.portB.off = false) ∧ (m.busy.isSome = true) ∧ True) ∧
  (∃ (s : State), ∃ (t : Nat), ∃ (r : Reader), (s.tagm.hostW = none) ∧ let x := tick t s.dev
let m := x.mst
∃ e, (m.busy = some e) ∧ (e ≤ t) ∧ (m.leaving = false) ∧ (m.out.length ≤ 256) ∧ True) ∧
  (∃ (s : State), ∃ (t : Nat), ∃ (r : Reader), (s.tagm.hostW = none) ∧ let x := tick t s.dev
let m := x.mst
∃ e, (m.busy = some e) ∧ (t < e) ∧ True) ∧
  (∃ (s : State), ∃ (t : Nat), ∃ (r : Reader), (s.tagm.hostW = none) ∧ let x := tick t s.dev
let m := x.mst
(m.busy = none) ∧ True) :=
  ⟨⟨(lState[0]'(by decide)), ⟨0, ⟨(Sys2Proof.Reader.spiA), by decide +kernel⟩⟩⟩,
  ⟨(lState[1]'(by decide)), ⟨0, ⟨(Sys2Proof.Reader.spiA), by decide +kernel⟩⟩⟩,
  ⟨(lState[0]'(by decide)), ⟨0, ⟨(Sys2Proof.Reader.spiA), by decide +kernel⟩⟩⟩,
  ⟨(lState[2]'(by decide)), ⟨0, ⟨(Sys2Proof.Reader.spiA), by decide +kernel⟩⟩⟩,
  ⟨(lState[2]'(by decide)), ⟨5, ⟨(Sys2Proof.Reader.spiA), ⟨by decide +kernel, ⟨5, by decide +kernel⟩⟩⟩⟩⟩,
  ⟨(lState[2]'(by decide)), ⟨0, ⟨(Sys2Proof.Reader.spiA), ⟨by decide +kernel, ⟨5, by decide +kernel⟩⟩⟩⟩⟩,
  ⟨(lState[0]'(by decide)), ⟨0, ⟨(Sys2Proof.Reader.spiA), by decide +kernel⟩⟩⟩⟩
end SpiMaster

end Sys2Proof.Tests.P41

namespace Sys2Proof.Tests.P42

def rg (a : Nat) (v : Word) (s : State) : State := mapDev (fun d => setReg a v { d with set0 := { d.set0 with regs := CMap.set (fun _ => 0) d.set0.regs a v }, set1 := { d.set1 with regs := CMap.set (fun _ => 0) d.set1.regs a v } }) s
def pw (n : Nat) (s : State) : State := mapDev (fun d => setDom n { dom d n with pos := .on, pend := none } d) s
def sP : State := (List.range 13).foldl (fun s n => pw n s) s1
def sU : State := { sP with tagm := { sP.tagm with hostW := none } }
def op0 : Op := ⟨7, 0x300, 2, 0, false, false, true, .running, .none, false, false, 0, 0, 0, 0, 1, [0,0,0,0], 0, none, false, [], none, none, false⟩
def both (a : Nat) (v : Word) (s : State) : State := mapDev (setReg a v ∘ setReg (a + 0x8000) v) s
def rgs (n : Nat) (f : Ring → Ring) (s : State) : State := mapDev (fun d => setRing n (f (ring d n)) d) s
def rec1 : List Word := [0x00010201, 5]
def oq (st : OpState) (oc : Nat) (rr : Nat) : Op := { op0 with opcode := oc, st := st, rring := rr, block := [0x00010001,0,0,0,0,0,0,0] }

namespace RingRegisters
def lState : List State := [sU, rgs 2 (fun g => { g with recs := [rec1] }) sU, rgs 4 (fun g => { g with recs := [rec1, rec1] }) (rgs 5 (fun g => { g with en := true }) sU), (List.range 32).foldl (fun s n => rgs n (fun g => { g with en := false }) s) sU]
theorem witness_RingRegisters :
  (∃ (s : State), ∃ (t n : Nat), ∃ (r : Reader), ∃ (v : Word), (s.tagm.hostW = none) ∧ let x := tick t s.dev
(domPower x 6 = .on) ∧ (n < 32) ∧ let g := ring x n
(g.en = true) ∧ (bit v 31 = true ∨ n = 4 ∨ (n < 4 ∧ g.recs ≠ [])) ∧ True) ∧
  (∃ (s : State), ∃ (t n : Nat), ∃ (r : Reader), ∃ (v : Word), (s.tagm.hostW = none) ∧ let x := tick t s.dev
(domPower x 6 = .on) ∧ (n < 32) ∧ let g := ring x n
(g.en = true) ∧ (bit v 31 = false) ∧ (n ≠ 4) ∧ ((n < 4 → g.recs = [])) ∧ True) ∧
  (∃ (s : State), ∃ (t n : Nat), ∃ (r : Reader), ∃ (v : Word), (s.tagm.hostW = none) ∧ let x := tick t s.dev
(domPower x 6 = .on) ∧ (n < 32) ∧ let g := ring x n
(g.en = false) ∧ (bit v 31 = true) ∧ (1 ≤ fld v 27 16) ∧ ((n < 4 → 4 ≤ fld v 27 16)) ∧ (fld v 10 0 + fld v 27 16 ≤ 2048) ∧ ((∀ m, m < 32 → m ≠ n → (ring x m).en = true →
      fld v 10 0 + fld v 27 16 ≤ (ring x m).base ∨ (ring x m).base + (ring x m).size ≤ fld v 10 0)) ∧ True) ∧
  (∃ (s : State), ∃ (t n : Nat), ∃ (r : Reader), ∃ (v : Word), (s.tagm.hostW = none) ∧ let x := tick t s.dev
(domPower x 6 = .on) ∧ (n < 32) ∧ let g := ring x n
(g.en = false) ∧ (bit v 31 = true) ∧ (fld v 27 16 = 0 ∨ 2048 < fld v 10 0 + fld v 27 16) ∧ True) ∧
  (∃ (s : State), ∃ (t n : Nat), ∃ (r : Reader), ∃ (v : Word), (s.tagm.hostW = none) ∧ let x := tick t s.dev
(domPower x 6 = .on) ∧ (n < 32) ∧ let g := ring x n
(4 ≤ n) ∧ (g.en = true) ∧ True) ∧
  (∃ (s : State), ∃ (t n : Nat), ∃ (r : Reader), ∃ (v : Word), (s.tagm.hostW = none) ∧ let x := tick t s.dev
(domPower x 6 = .on) ∧ (n < 32) ∧ let g := ring x n
(n < 4 ∨ g.en = false) ∧ True) :=
  ⟨⟨(lState[0]'(by decide)), ⟨0, ⟨0, ⟨(Sys2Proof.Reader.spiA), ⟨0x80000000#32, by decide +kernel⟩⟩⟩⟩⟩,
  ⟨(lState[0]'(by decide)), ⟨0, ⟨0, ⟨(Sys2Proof.Reader.spiA), ⟨0x00000000#32, by decide +kernel⟩⟩⟩⟩⟩,
  ⟨(lState[3]'(by decide)), ⟨0, ⟨0, ⟨(Sys2Proof.Reader.spiA), ⟨0x80100000#32, by decide +kernel⟩⟩⟩⟩⟩,
  ⟨(lState[3]'(by decide)), ⟨0, ⟨0, ⟨(Sys2Proof.Reader.spiA), ⟨0x80000000#32, by decide +kernel⟩⟩⟩⟩⟩,
  ⟨(lState[0]'(by decide)), ⟨0, ⟨4, ⟨(Sys2Proof.Reader.spiA), ⟨0x00000000#32, by decide +kernel⟩⟩⟩⟩⟩,
  ⟨(lState[0]'(by decide)), ⟨0, ⟨0, ⟨(Sys2Proof.Reader.spiA), ⟨0x00000000#32, by decide +kernel⟩⟩⟩⟩⟩⟩
end RingRegisters

namespace RingTimes
def lState : List State := [sU, rgs 4 (fun g => { g with recs := [rec1], staleAt := some 5 }) (mapDev (setReg (ringReg 4 5) 3) sU), rgs 4 (fun g => { g with recs := [], staleAt := some 5 }) (mapDev (setReg (ringReg 4 5) 3) sU), rgs 9 (fun g => { g with en := true, size := 64, pendGap := 3 }) sU, rgs 4 (fun g => { g with recs := [rec1], pendGap := 5 }) sU]
theorem witness_RingTimes :
  (∃ (s : State), ∃ (t n : Nat), (4 ≤ n) ∧ (n < 32) ∧ let x := tick t s.dev
let g := ring x n
let ms := fld (reg x (ringReg n 5)) 15 0
∃ e, (g.staleAt = some e) ∧ (e ≤ x.now) ∧ (ms ≠ 0) ∧ (g.recs ≠ []) ∧ True) ∧
  (∃ (s : State), ∃ (t n : Nat), (4 ≤ n) ∧ (n < 32) ∧ let x := tick t s.dev
let g := ring x n
let ms := fld (reg x (ringReg n 5)) 15 0
∃ e, (g.staleAt = some e) ∧ (e ≤ x.now) ∧ (ms ≠ 0) ∧ (g.recs = []) ∧ True) ∧
  (∃ (s : State), ∃ (t n : Nat), (4 ≤ n) ∧ (n < 32) ∧ let x := tick t s.dev
let g := ring x n
∃ e, (g.staleAt = some e) ∧ (x.now < e) ∧ True) ∧
  (∃ (s : State), ∃ (t n : Nat), (4 ≤ n) ∧ (n < 32) ∧ let x := tick t s.dev
let g := ring x n
(g.pendGap ≠ 0) ∧ (2 ≤ g.room) ∧ True) ∧
  (∃ (s : State), ∃ (t n : Nat), (4 ≤ n) ∧ (n < 32) ∧ let x := tick t s.dev
let g := ring x n
(g.pendGap = 0 ∨ g.room < 2) ∧ True) :=
  ⟨⟨(lState[1]'(by decide)), ⟨5, ⟨4, ⟨by decide +kernel, ⟨by decide +kernel, ⟨5, by decide +kernel⟩⟩⟩⟩⟩⟩,
  ⟨(lState[2]'(by decide)), ⟨5, ⟨4, ⟨by decide +kernel, ⟨by decide +kernel, ⟨5, by decide +kernel⟩⟩⟩⟩⟩⟩,
  ⟨(lState[1]'(by decide)), ⟨0, ⟨4, ⟨by decide +kernel, ⟨by decide +kernel, ⟨5, by decide +kernel⟩⟩⟩⟩⟩⟩,
  ⟨(lState[3]'(by decide)), ⟨0, ⟨9, by decide +kernel⟩⟩⟩,
  ⟨(lState[0]'(by decide)), ⟨0, ⟨4, by decide +kernel⟩⟩⟩⟩
end RingTimes

namespace HeldRecords
def hd (l : List HeldRec) (s : State) : State := mapDev (fun d => { d with held := l }) s
def lHeldRec : List HeldRec := [⟨7, 4, [2, 5, 6,7,8], true⟩, ⟨7, 5, [2, 5, 6,7,8], true⟩, ⟨8, 4, [2, 5], true⟩]
def oo (e : Bool) (tag : Nat) : Op := { op0 with ended := e, tag := tag }
def lState : List State := [hd [⟨7, 4, [2, 5, 6,7,8], true⟩] (mapDev (fun d => { d with ops := [oo true 7, oo false 8] }) sU), hd [⟨7, 4, [2, 5, 6,7,8], true⟩, ⟨7, 5, [2, 5, 6,7,8], true⟩] (mapDev (fun d => { d with ops := [oo true 7, oo false 8] }) sU), hd [⟨7, 4, [2, 5, 6,7,8], true⟩, ⟨8, 4, [2, 5], true⟩] (mapDev (fun d => { d with ops := [oo true 7, oo true 8] }) sU), (List.range 32).foldl (fun s n => rgs n (fun g => { g with en := false }) s) (hd [⟨7, 4, [2, 5, 6,7,8], true⟩] sU)]
theorem witness_HeldRecords :
  (∃ (s : State), ∃ (t : Nat), let x := tick t s.dev
∃ h, ∃ rest, ∃ ty, ∃ body, (x.held = h :: rest) ∧ (h.words = ty :: body) ∧ (RoomFor x h.ring body.length) ∧ True) ∧
  (∃ (s : State), ∃ (t : Nat), let x := tick t s.dev
((∀ h ∈ x.held, recFits x (heldRing x h) h.words.length = false)) ∧ True) :=
  ⟨⟨(lState[0]'(by decide)), ⟨0, ⟨(lHeldRec[0]'(by decide)), ⟨[], ⟨0x00000002#32, ⟨[0x00000005#32, 0x00000006#32, 0x00000007#32, 0x00000008#32], by decide +kernel⟩⟩⟩⟩⟩⟩,
  ⟨(lState[3]'(by decide)), ⟨0, by decide +kernel⟩⟩⟩
end HeldRecords

namespace OperationStarts
def ops (l : List Op) (s : State) : State := mapDev (fun d => { d with ops := l }) s
def sm : List Op := [{ oq .queued 0x300 4 with ended := true }, { oq .queued 0x300 4 with long := false }, oq .suspended 0x300 2, oq .queued 0x300 4, oq .queued 0x400 4, oq .queued 0x401 4, oq .queued 0x500 4, oq .running 0x903 4]
def lOp : List Op := sm
def lState : List State := sm.map (fun o => ops [o] sU) ++ sm.map (fun o => ops [o] (mapDev (fun d => setDom 11 { dom d 11 with pos := .off, pend := none } d) sU)) ++ [mapDev (fun d => { d with cpu := { d.cpu with onS := true } }) (ops [oq .running 0x903 4] sU), ops [oq .queued 0x300 4] (mapDev (updThr 0 fun t => { t with op := some 9 }) sU)]
theorem witness_OperationStarts :
  (∃ (s : State), ∃ (t tag : Nat), let x := tick t s.dev
(findOp x tag = none) ∧ True) ∧
  (∃ (s : State), ∃ (t tag : Nat), let x := tick t s.dev
∃ o, (findOp x tag = some o) ∧ (o.ended = true ∨ (o.long = false ∧ o.opcode ≠ 0x409)) ∧ ∃ ecc, ((ecc = true → o.ended = true)) ∧ True) ∧
  (∃ (s : State), ∃ (t tag : Nat), let x := tick t s.dev
∃ o, (findOp x tag = some o) ∧ (o.ended = false) ∧ (o.long = true) ∧ (o.st = .suspended ∨ (o.st = .queued ∧ (mayStart x o = false ∨ untriggered o = true))) ∧ True) ∧
  (∃ (s : State), ∃ (t tag : Nat), let x := tick t s.dev
∃ o, (findOp x tag = some o) ∧ (o.ended = false) ∧ (o.long = true) ∧ (o.st = .queued) ∧ (mayStart x o = true) ∧ (o.opcode ∈ [0x300, 0x400, 0x401, 0x500]) ∧ (untriggered o = false) ∧ ((opDomains x o).all (domOn x) = true) ∧ True) ∧
  (∃ (s : State), ∃ (t tag : Nat), let x := tick t s.dev
∃ o, (findOp x tag = some o) ∧ (o.ended = false) ∧ (o.long = true) ∧ (o.st = .queued) ∧ (mayStart x o = true) ∧ (o.opcode = 0x500) ∧ (untriggered o = false) ∧ ((dom x 11).pos = .off) ∧ (domOn x 7 = true) ∧ True) ∧
  (∃ (s : State), ∃ (t tag : Nat), let x := tick t s.dev
∃ o, (findOp x tag = some o) ∧ (o.ended = false) ∧ (o.long = true) ∧ (o.st = .running) ∧ (o.opcode = 0x903) ∧ (o.pend = .none) ∧ (o.failAs = none) ∧ (x.cpu.apl.run = false) ∧ (x.cpu.apl.ok = false) ∧ True) ∧
  (∃ (s : State), ∃ (t tag : Nat), let x := tick t s.dev
∃ o, (findOp x tag = some o) ∧ (o.ended = false) ∧ (o.long = true) ∧ (o.long = true ∧ o.ended = false) ∧ (x.svc.opens = []) ∧ (recentOf x 6 = false) ∧ True) :=
  ⟨⟨(lState[0]'(by decide)), ⟨0, ⟨0, by decide +kernel⟩⟩⟩,
  ⟨(lState[0]'(by decide)), ⟨0, ⟨7, ⟨(lOp[0]'(by decide)), ⟨by decide +kernel, ⟨by decide +kernel, ⟨true, by decide +kernel⟩⟩⟩⟩⟩⟩⟩,
  ⟨(lState[2]'(by decide)), ⟨0, ⟨7, ⟨(lOp[2]'(by decide)), by decide +kernel⟩⟩⟩⟩,
  ⟨(lState[3]'(by decide)), ⟨0, ⟨7, ⟨(lOp[3]'(by decide)), by decide +kernel⟩⟩⟩⟩,
  ⟨(lState[14]'(by decide)), ⟨0, ⟨7, ⟨(lOp[6]'(by decide)), by decide +kernel⟩⟩⟩⟩,
  ⟨(lState[7]'(by decide)), ⟨0, ⟨7, ⟨(lOp[7]'(by decide)), by decide +kernel⟩⟩⟩⟩,
  ⟨(lState[2]'(by decide)), ⟨0, ⟨7, ⟨(lOp[2]'(by decide)), by decide +kernel⟩⟩⟩⟩⟩
end OperationStarts

end Sys2Proof.Tests.P42

namespace Sys2Proof.Tests.P43

def rg (a : Nat) (v : Word) (s : State) : State := mapDev (fun d => setReg a v { d with set0 := { d.set0 with regs := CMap.set (fun _ => 0) d.set0.regs a v }, set1 := { d.set1 with regs := CMap.set (fun _ => 0) d.set1.regs a v } }) s
def pw (n : Nat) (s : State) : State := mapDev (fun d => setDom n { dom d n with pos := .on, pend := none } d) s
def sP : State := (List.range 13).foldl (fun s n => pw n s) s1
def sU : State := { sP with tagm := { sP.tagm with hostW := none } }
def op0 : Op := ⟨7, 0x300, 2, 0, false, false, true, .running, .none, false, false, 0, 0, 0, 0, 1, [0,0,0,0], 0, none, false, [], none, none, false⟩
def both (a : Nat) (v : Word) (s : State) : State := mapDev (setReg a v ∘ setReg (a + 0x8000) v) s
def rgs (n : Nat) (f : Ring → Ring) (s : State) : State := mapDev (fun d => setRing n (f (ring d n)) d) s
def base : State := mapDev (fun d => { d with sys := { d.sys with ready := true } }) (rgs 0 (fun g => { g with en := true, size := 4 }) sU)
def ops (l : List Op) (s : State) : State := mapDev (fun d => { d with ops := l }) s
def pk (b : List Word) : Packet := ⟨0, 5, 4, false, false, false, b⟩
def lock (s : State) : State := mapDev (fun d => { d with tb := { d.tb with st := .locked, period := 819200000 } }) s
def exOp (p : Op → Prop) [∀ o, Decidable (p o)] (d : Dev) : Bool := d.ops.any (fun o => decide (p o))
def rdyOf (base : State) : State := mapDev (fun d => { d with tb := { d.tb with st := .locked, period := 819200000 }, chA := { d.chA with stock := true, st := .idle }, set0 := { d.set0 with chan := [(0, 0x80000000), (1, 0x80000005)], plan := (List.range 240).map (fun i => (i, 0xFFFFFFFF)), regs := [(Reg.TIME_PLAN_CFG, 0x1F00), (Reg.UHF_AER_0, 0x80000000)] } }) base

namespace ReadingCommands
def cellOf (s : State) : State := mapDev (fun d => (List.range 8).foldl (fun d w => setCellW 8 w (nth 0 [0,0,0,0,0,0,0,0] w) d) d) s
def lPacket : List Packet := [pk [], pk [0x0302], pk [0xFF01], pk [0xFF02], pk [0x10, 0x12340000], pk [0x00020000], pk [0x0002FFFF]]
def lState : List State := [base, mapDev (fun d => (cpPlace ⟨0x0800, unpackBits 16 [0x12340000], 1, 0, 0, 0⟩ d).1) base, lock base, mapDev (fun d => { d with svc := { d.svc with fences := 0x20 } }) base, mapDev (fun d => { d with svc := { d.svc with ledger := [[0xFFFF0001,2,3,4,5], [0xFFFE0001,2,3,4,5]] , next := 0} }) base]
theorem witness_ReadingCommands :
  (∃ (s : State), ∃ (t : Nat), ∃ (p : Packet), (TagFree s.dev p.tag) ∧ let d := shortFound s t
let tells := fun (_ : Unit) (op _status : Nat) (res : List Word) => Taken s op p ∧ RoomFor d p.rring (4 + res.length)
(tells () 0x000 0 []) ∧ True) ∧
  (∃ (s : State), ∃ (t : Nat), ∃ (p : Packet), (TagFree s.dev p.tag) ∧ let d := shortFound s t
let tells := fun (_ : Unit) (op _status : Nat) (res : List Word) => Taken s op p ∧ RoomFor d p.rring (4 + res.length)
(tells () 0x001 0 [regWord s Reg.SYS_ID, s.dev.sys.fwVer, Config.serial.extractLsb' 0 32, Config.serial.extractLsb' 32 32]) ∧ True) ∧
  (∃ (s : State), ∃ (t : Nat), ∃ (p : Packet), (TagFree s.dev p.tag) ∧ let d := shortFound s t
let tells := fun (_ : Unit) (op _status : Nat) (res : List Word) => Taken s op p ∧ RoomFor d p.rring (4 + res.length)
(tells () 0x100 0 [timeStatusWord d, timePhaseWord d, s.dev.tb.cyc.extractLsb' 0 32, nw (s.dev.tb.cyc.toNat / 4294967296),
    nw (tbUnc d d.now), nw s.dev.tb.period]) ∧ True) ∧
  (∃ (s : State), ∃ (t : Nat), ∃ (p : Packet), (TagFree s.dev p.tag) ∧ let d := shortFound s t
let w := nth 0 p.block 0
let tells := fun (_ : Unit) (op _status : Nat) (res : List Word) => Taken s op p ∧ RoomFor d p.rring (4 + res.length)
(fld w 15 8 + fld w 4 0 ≤ 256) ∧ (tells () 0x601 0
    ((List.range (8 * fld w 4 0)).map fun i => blockWord s.tagm (fld w 15 8 + i / 8) (i % 8))) ∧ True) ∧
  (∃ (s : State), ∃ (t : Nat), ∃ (p : Packet), (TagFree s.dev p.tag) ∧ let d := shortFound s t
let w := nth 0 p.block 0
let tells := fun (_ : Unit) (op _status : Nat) (res : List Word) => Taken s op p ∧ RoomFor d p.rring (4 + res.length)
(256 < fld w 15 8 + fld w 4 0) ∧ (tells () 0x601 0x51 []) ∧ True) ∧
  (∃ (s : State), ∃ (t : Nat), ∃ (p : Packet), (TagFree s.dev p.tag) ∧ let d := shortFound s t
let w := nth 0 p.block 0
let tells := fun (_ : Unit) (op _status : Nat) (res : List Word) => Taken s op p ∧ RoomFor d p.rring (4 + res.length)
∃ c, (fenced s.dev 5 = false) ∧ (combFind s.dev (unpackBits (fld w 8 0) (p.block.drop 1)) = some c) ∧ (tells () 0x701 0 (put 16 0 c :: (List.range 8).map (dumpWord s.dev (cellWords s.dev c)))) ∧ True) ∧
  (∃ (s : State), ∃ (t : Nat), ∃ (p : Packet), (TagFree s.dev p.tag) ∧ let d := shortFound s t
let w := nth 0 p.block 0
(fenced s.dev 5 = false) ∧ (combFind s.dev (unpackBits (fld w 8 0) (p.block.drop 1)) = none) ∧ (Taken s 0x701 p) ∧ (RoomFor { d with free := s.dev.free + 8 } p.rring 13) ∧ True) ∧
  (∃ (s : State), ∃ (t : Nat), ∃ (p : Packet), (TagFree s.dev p.tag) ∧ let d := shortFound s t
let tells := fun (_ : Unit) (op _status : Nat) (res : List Word) => Taken s op p ∧ RoomFor d p.rring (4 + res.length)
(fenced s.dev 5 = true) ∧ (tells () 0x701 0x62 []) ∧ True) ∧
  (∃ (s : State), ∃ (t : Nat), ∃ (p : Packet), (TagFree s.dev p.tag) ∧ let d := shortFound s t
let w := nth 0 p.block 0
let tells := fun (_ : Unit) (op _status : Nat) (res : List Word) => Taken s op p ∧ RoomFor d p.rring (4 + res.length)
(tells () 0x803 0 (ledgerRes s.dev (fld w 15 0) (fld w 23 16))) ∧ True) :=
  ⟨⟨(lState[0]'(by decide)), ⟨0, ⟨(lPacket[0]'(by decide)), by decide +kernel⟩⟩⟩,
  ⟨(lState[0]'(by decide)), ⟨0, ⟨(lPacket[0]'(by decide)), by decide +kernel⟩⟩⟩,
  ⟨(lState[0]'(by decide)), ⟨0, ⟨(lPacket[0]'(by decide)), by decide +kernel⟩⟩⟩,
  ⟨(lState[0]'(by decide)), ⟨0, ⟨(lPacket[1]'(by decide)), by decide +kernel⟩⟩⟩,
  ⟨(lState[0]'(by decide)), ⟨0, ⟨(lPacket[3]'(by decide)), by decide +kernel⟩⟩⟩,
  ⟨(lState[1]'(by decide)), ⟨0, ⟨(lPacket[4]'(by decide)), ⟨by decide +kernel, ⟨82072, by decide +kernel⟩⟩⟩⟩⟩,
  ⟨(lState[0]'(by decide)), ⟨0, ⟨(lPacket[4]'(by decide)), by decide +kernel⟩⟩⟩,
  ⟨(lState[3]'(by decide)), ⟨0, ⟨(lPacket[4]'(by decide)), by decide +kernel⟩⟩⟩,
  ⟨(lState[0]'(by decide)), ⟨0, ⟨(lPacket[5]'(by decide)), by decide +kernel⟩⟩⟩⟩
end ReadingCommands

namespace KeyCommands
def lPacket : List Packet := [pk [0, 1,2,3,4], pk [0x100, 1,2,3,4], pk [1], pk [2], pk [3, 9], pk [4]]
def dk (f : Damask → Damask) (s : State) : State := mapDev (fun d => { d with dmk := f d.dmk }) s
def lState : List State := [base, dk (fun k => { k with key := some 5, nx := false }) base, dk (fun k => { k with key := some 5, nx := true }) base, mapDev (fun d => { d with svc := { d.svc with fences := 0x80000 } }) base]
theorem witness_KeyCommands :
  (∃ (s : State), ∃ (t : Nat), ∃ (p : Packet), ∃ (w : Word), ∃ (ws : List Word), (TagFree s.dev p.tag) ∧ (p.block = w :: ws) ∧ let d := shortFound s t
let key := fun (i : Nat) => fld w 2 0 = i ∧ Taken s 0x710 p
let tells := fun (_ : Unit) (e : Dev) (_status : Nat) (res : List Word) => RoomFor e p.rring (4 + res.length)
let linked := fun (e : Dev) => setReg Reg.COMB_DMK_CFG (reg s.dev Reg.COMB_DMK_CFG ||| 4) e
let k := s.dev.dmk
(key 0) ∧ (fenced s.dev 0x13 = false) ∧ (tells () (linked <| keepWrite 515 { d with dmk := { k with
    key := some (nth 0 ws 0 ++ nth 0 ws 1 ++ nth 0 ws 2 ++ nth 0 ws 3), nx := bit w 8, origin := false, gen := k.gen + 1 } }) 0 []) ∧ True) ∧
  (∃ (s : State), ∃ (t : Nat), ∃ (p : Packet), ∃ (w : Word), ∃ (ws : List Word), (TagFree s.dev p.tag) ∧ (p.block = w :: ws) ∧ let key := fun (i : Nat) => fld w 2 0 = i ∧ Taken s 0x710 p
(key 1) ∧ (fenced s.dev 0x13 = false) ∧ True) ∧
  (∃ (s : State), ∃ (t : Nat), ∃ (p : Packet), ∃ (w : Word), ∃ (ws : List Word), (TagFree s.dev p.tag) ∧ (p.block = w :: ws) ∧ let d := shortFound s t
let key := fun (i : Nat) => fld w 2 0 = i ∧ Taken s 0x710 p
let tells := fun (_ : Unit) (e : Dev) (_status : Nat) (res : List Word) => RoomFor e p.rring (4 + res.length)
let k := s.dev.dmk
(key 2) ∧ (fenced s.dev 0x13 = false) ∧ (tells () (keepWrite 515 { d with dmk := { k with nx := true } }) 0 []) ∧ True) ∧
  (∃ (s : State), ∃ (t : Nat), ∃ (p : Packet), ∃ (w : Word), ∃ (ws : List Word), (TagFree s.dev p.tag) ∧ (p.block = w :: ws) ∧ let d := shortFound s t
let key := fun (i : Nat) => fld w 2 0 = i ∧ Taken s 0x710 p
let tells := fun (_ : Unit) (e : Dev) (_status : Nat) (res : List Word) => RoomFor e p.rring (4 + res.length)
let k := s.dev.dmk
∃ v, (key 3) ∧ (k.key = some v) ∧ (k.nx = false) ∧ (tells () d 0 [(epochKey v (nth 0 ws 0)).extractLsb' 96 32,
    (epochKey v (nth 0 ws 0)).extractLsb' 64 32, (epochKey v (nth 0 ws 0)).extractLsb' 32 32, (epochKey v (nth 0 ws 0)).extractLsb' 0 32]) ∧ True) ∧
  (∃ (s : State), ∃ (t : Nat), ∃ (p : Packet), ∃ (w : Word), ∃ (ws : List Word), (TagFree s.dev p.tag) ∧ (p.block = w :: ws) ∧ let d := shortFound s t
let key := fun (i : Nat) => fld w 2 0 = i ∧ Taken s 0x710 p
let tells := fun (_ : Unit) (e : Dev) (_status : Nat) (res : List Word) => RoomFor e p.rring (4 + res.length)
let k := s.dev.dmk
(key 3) ∧ (k.key = none ∨ k.nx = true) ∧ (tells () d 0x28 []) ∧ True) ∧
  (∃ (s : State), ∃ (t : Nat), ∃ (p : Packet), ∃ (w : Word), ∃ (ws : List Word), (TagFree s.dev p.tag) ∧ (p.block = w :: ws) ∧ let d := shortFound s t
let key := fun (i : Nat) => fld w 2 0 = i ∧ Taken s 0x710 p
let tells := fun (_ : Unit) (e : Dev) (_status : Nat) (res : List Word) => RoomFor e p.rring (4 + res.length)
let k := s.dev.dmk
(key 4) ∧ (fenced s.dev 0x13 = false) ∧ (tells ()
    (setReg Reg.COMB_DMK_CFG (reg s.dev Reg.COMB_DMK_CFG &&& ~~~ 1) <| keepWrite 515 { d with dmk := { k with key := none, nx := false, gen := k.gen + 1 } }) 0 []) ∧ True) ∧
  (∃ (s : State), ∃ (t : Nat), ∃ (p : Packet), ∃ (w : Word), ∃ (ws : List Word), (TagFree s.dev p.tag) ∧ (p.block = w :: ws) ∧ let d := shortFound s t
let key := fun (i : Nat) => fld w 2 0 = i ∧ Taken s 0x710 p
let tells := fun (_ : Unit) (e : Dev) (_status : Nat) (res : List Word) => RoomFor e p.rring (4 + res.length)
(fenced s.dev 0x13 = true) ∧ (key 0) ∧ (tells () d 0x50 []) ∧ True) ∧
  (∃ (s : State), ∃ (t : Nat), ∃ (p : Packet), ∃ (w : Word), ∃ (ws : List Word), (TagFree s.dev p.tag) ∧ (p.block = w :: ws) ∧ let d := shortFound s t
let key := fun (i : Nat) => fld w 2 0 = i ∧ Taken s 0x710 p
let tells := fun (_ : Unit) (e : Dev) (_status : Nat) (res : List Word) => RoomFor e p.rring (4 + res.length)
(fenced s.dev 0x13 = true) ∧ (key 1) ∧ (tells () d 0x50 []) ∧ True) ∧
  (∃ (s : State), ∃ (t : Nat), ∃ (p : Packet), ∃ (w : Word), ∃ (ws : List Word), (TagFree s.dev p.tag) ∧ (p.block = w :: ws) ∧ let d := shortFound s t
let key := fun (i : Nat) => fld w 2 0 = i ∧ Taken s 0x710 p
let tells := fun (_ : Unit) (e : Dev) (_status : Nat) (res : List Word) => RoomFor e p.rring (4 + res.length)
(fenced s.dev 0x13 = true) ∧ (key 2) ∧ (tells () d 0x50 []) ∧ True) ∧
  (∃ (s : State), ∃ (t : Nat), ∃ (p : Packet), ∃ (w : Word), ∃ (ws : List Word), (TagFree s.dev p.tag) ∧ (p.block = w :: ws) ∧ let d := shortFound s t
let key := fun (i : Nat) => fld w 2 0 = i ∧ Taken s 0x710 p
let tells := fun (_ : Unit) (e : Dev) (_status : Nat) (res : List Word) => RoomFor e p.rring (4 + res.length)
(fenced s.dev 0x13 = true) ∧ (key 4) ∧ (tells () d 0x50 []) ∧ True) ∧
  (∃ (s : State), ∃ (t : Nat), ∃ (p : Packet), ∃ (w : Word), ∃ (ws : List Word), (TagFree s.dev p.tag) ∧ (p.block = w :: ws) ∧ let d := shortFound s t
let k := s.dev.dmk
(Taken s 0x711 p) ∧ (RoomFor (epochRecord false <| keepWrite 517 { d with dmk := { k with epoch := w, since := d.now } }) p.rring (4 + (([] : List Word)).length)) ∧ True) :=
  ⟨⟨(lState[0]'(by decide)), ⟨0, ⟨(lPacket[0]'(by decide)), ⟨0x00000000#32, ⟨[0x00000001#32, 0x00000002#32, 0x00000003#32, 0x00000004#32], by decide +kernel⟩⟩⟩⟩⟩,
  ⟨(lState[0]'(by decide)), ⟨0, ⟨(lPacket[2]'(by decide)), ⟨0x00000001#32, ⟨[], by decide +kernel⟩⟩⟩⟩⟩,
  ⟨(lState[0]'(by decide)), ⟨0, ⟨(lPacket[3]'(by decide)), ⟨0x00000002#32, ⟨[], by decide +kernel⟩⟩⟩⟩⟩,
  ⟨(lState[1]'(by decide)), ⟨0, ⟨(lPacket[4]'(by decide)), ⟨0x00000003#32, ⟨[0x00000009#32], ⟨by decide +kernel, ⟨by decide +kernel, ⟨0x00000000000000000000000000000005#128, by decide +kernel⟩⟩⟩⟩⟩⟩⟩⟩,
  ⟨(lState[0]'(by decide)), ⟨0, ⟨(lPacket[4]'(by decide)), ⟨0x00000003#32, ⟨[0x00000009#32], by decide +kernel⟩⟩⟩⟩⟩,
  ⟨(lState[0]'(by decide)), ⟨0, ⟨(lPacket[5]'(by decide)), ⟨0x00000004#32, ⟨[], by decide +kernel⟩⟩⟩⟩⟩,
  ⟨(lState[3]'(by decide)), ⟨0, ⟨(lPacket[0]'(by decide)), ⟨0x00000000#32, ⟨[0x00000001#32, 0x00000002#32, 0x00000003#32, 0x00000004#32], by decide +kernel⟩⟩⟩⟩⟩,
  ⟨(lState[3]'(by decide)), ⟨0, ⟨(lPacket[2]'(by decide)), ⟨0x00000001#32, ⟨[], by decide +kernel⟩⟩⟩⟩⟩,
  ⟨(lState[3]'(by decide)), ⟨0, ⟨(lPacket[3]'(by decide)), ⟨0x00000002#32, ⟨[], by decide +kernel⟩⟩⟩⟩⟩,
  ⟨(lState[3]'(by decide)), ⟨0, ⟨(lPacket[5]'(by decide)), ⟨0x00000004#32, ⟨[], by decide +kernel⟩⟩⟩⟩⟩,
  ⟨(lState[0]'(by decide)), ⟨0, ⟨(lPacket[2]'(by decide)), ⟨0x00000001#32, ⟨[], by decide +kernel⟩⟩⟩⟩⟩⟩
end KeyCommands

namespace ActingCommands
def wds : List Word := [0x0500, 0x0E00, 0x1000, 0x1100,0x1300,0x1500, 0x0C00, 0x501,0xE01, 0x4002,0x4502,0x5102, 0x6002, 0x7102, 0x3, 0x4, 0x0200, 0x0201, 0, 1]
def lPacket : List Packet := pk [] :: wds.map (fun w => pk [w]) ++ [pk [0, 64, 7], pk [1, 64, 7], pk [0, 64, 8]]
def ig (t : Nat) (bad : Bool) (s : State) : State := mapDev (fun d => { d with cpu := { d.cpu with img := { d.cpu.img with target := t, bad := bad, bytes := 64, crc := 7, hdr := [0xADEA7416, 0x02010000, 3, 0x10001000, 64, 7, 0x10002000, 0] } } }) s
def apl (ok run : Bool) (s : State) : State := mapDev (fun d => { d with cpu := { d.cpu with apl := { d.cpu.apl with ok := ok, run := run } } }) s
def lState : List State := [base, mapDev (fun d => { d with svc := { d.svc with fences := 0x2ACC26 } }) base, mapDev (fun d => { d with svc := { d.svc with safe := true }, pmu := { d.pmu with vpa := true } }) base, ig 0 false base, ig 1 false base, ig 0 true base, apl true false base, apl true true base]
theorem witness_ActingCommands :
  (∃ (s : State), ∃ (t : Nat), ∃ (p : Packet), (TagFree s.dev p.tag) ∧ let d := shortFound s t
(Taken s 0x502 p) ∧ (RoomFor (setReg Reg.HF_ISO4_STAT 0 { d with hf := { s.dev.hf with cardActive := false } }) p.rring (4 + (([] : List Word)).length)) ∧ True) ∧
  (∃ (s : State), ∃ (t : Nat), ∃ (p : Packet), (TagFree s.dev p.tag) ∧ let d := shortFound s t
let w := nth 0 p.block 0
let b := fld w 15 8
let plain := b ∈ [5, 0x0E, 0x10, 0x11, 0x13, 0x15]
let kw := keepWrite 512 d
let serves := fun (_ : Unit) (a : Nat) (e : Dev) (_status : Nat) => fld w 3 0 = a ∧ Taken s 0x802 p ∧ RoomFor e p.rring 4
(plain) ∧ (b ≠ 0x13) ∧ (fenced s.dev b = false) ∧ ((∀ o ∈ s.dev.ops, o.st ≠ .running)) ∧ (serves () 0
    (count Reg.SVC_CNT 23 16 1 (event Reg.SVC_EVENT 2 { kw with svc := { kw.svc with fences := s.dev.svc.fences ||| BitVec.ofNat 24 (2 ^ b) } })) 0) ∧ True) ∧
  (∃ (s : State), ∃ (t : Nat), ∃ (p : Packet), (TagFree s.dev p.tag) ∧ let d := shortFound s t
let w := nth 0 p.block 0
let b := fld w 15 8
let kw := keepWrite 512 d
let serves := fun (_ : Unit) (a : Nat) (e : Dev) (_status : Nat) => fld w 3 0 = a ∧ Taken s 0x802 p ∧ RoomFor e p.rring 4
(b = 0x13) ∧ (fenced s.dev b = false) ∧ (s.dev.svc.kept = none) ∧ ((∀ o ∈ s.dev.ops, o.st ≠ .running)) ∧ (serves () 0
    (count Reg.SVC_CNT 23 16 1 (event Reg.SVC_EVENT 2 { kw with svc := { kw.svc with
      fences := s.dev.svc.fences ||| BitVec.ofNat 24 (2 ^ b)
      kept := some { keptOf d with fences := s.dev.svc.fences ||| BitVec.ofNat 24 (2 ^ b) } } })) 0) ∧ True) ∧
  (∃ (s : State), ∃ (t : Nat), ∃ (p : Packet), (TagFree s.dev p.tag) ∧ let d := shortFound s t
let w := nth 0 p.block 0
let b := fld w 15 8
let serves := fun (_ : Unit) (a : Nat) (e : Dev) (_status : Nat) => fld w 3 0 = a ∧ Taken s 0x802 p ∧ RoomFor e p.rring 4
(blockFences b = true) ∧ (fenced s.dev b = true) ∧ (serves () 0 d 0x1C) ∧ True) ∧
  (∃ (s : State), ∃ (t : Nat), ∃ (p : Packet), (TagFree s.dev p.tag) ∧ let d := shortFound s t
let w := nth 0 p.block 0
let b := fld w 15 8
let plain := b ∈ [5, 0x0E, 0x10, 0x11, 0x13, 0x15]
let kw := keepWrite 512 d
let serves := fun (_ : Unit) (a : Nat) (e : Dev) (_status : Nat) => fld w 3 0 = a ∧ Taken s 0x802 p ∧ RoomFor e p.rring 4
(plain) ∧ (b ≠ 0x13) ∧ (fenced s.dev b = true) ∧ (s.dev.svc.opens = []) ∧ (s.dev.svc.queue = []) ∧ (serves () 1
    { kw with svc := { kw.svc with fences := s.dev.svc.fences &&& ~~~ BitVec.ofNat 24 (2 ^ b)
                                   recent := s.dev.svc.recent.filter fun h => h.block ≠ b } } 0) ∧ True) ∧
  (∃ (s : State), ∃ (t : Nat), ∃ (p : Packet), (TagFree s.dev p.tag) ∧ let d := shortFound s t
let w := nth 0 p.block 0
let b := fld w 15 8
let serves := fun (_ : Unit) (a : Nat) (e : Dev) (_status : Nat) => fld w 3 0 = a ∧ Taken s 0x802 p ∧ RoomFor e p.rring 4
(blockFences b = true) ∧ (fenced s.dev b = false) ∧ (serves () 1 d 0x1C) ∧ True) ∧
  (∃ (s : State), ∃ (t : Nat), ∃ (p : Packet), (TagFree s.dev p.tag) ∧ let d := shortFound s t
let w := nth 0 p.block 0
let serves := fun (_ : Unit) (a : Nat) (e : Dev) (_status : Nat) => fld w 3 0 = a ∧ Taken s 0x802 p ∧ RoomFor e p.rring 4
∃ ch, ∃ k, (serviceSlice w = some (ch, k)) ∧ (retireWrong s.dev ch k = false) ∧ (serves () 2 (retireSlice ch k d) 0) ∧ True) ∧
  (∃ (s : State), ∃ (t : Nat), ∃ (p : Packet), (TagFree s.dev p.tag) ∧ let d := shortFound s t
let w := nth 0 p.block 0
let serves := fun (_ : Unit) (a : Nat) (e : Dev) (_status : Nat) => fld w 3 0 = a ∧ Taken s 0x802 p ∧ RoomFor e p.rring 4
∃ ch, ∃ k, (serviceSlice w = some (ch, k)) ∧ (retireWrong s.dev ch k = true) ∧ (serves () 2 d 0x1C) ∧ True) ∧
  (∃ (s : State), ∃ (t : Nat), ∃ (p : Packet), (TagFree s.dev p.tag) ∧ let d := shortFound s t
let w := nth 0 p.block 0
let b := fld w 15 8
let serves := fun (_ : Unit) (a : Nat) (e : Dev) (_status : Nat) => fld w 3 0 = a ∧ Taken s 0x802 p ∧ RoomFor e p.rring 4
(leaveSafeOk s.dev = true) ∧ (b = 0) ∧ (serves () 3 (event Reg.SVC_EVENT 6 { d with svc := { s.dev.svc with safe := false } }) 0) ∧ True) ∧
  (∃ (s : State), ∃ (t : Nat), ∃ (p : Packet), (TagFree s.dev p.tag) ∧ let d := shortFound s t
let w := nth 0 p.block 0
let b := fld w 15 8
let serves := fun (_ : Unit) (a : Nat) (e : Dev) (_status : Nat) => fld w 3 0 = a ∧ Taken s 0x802 p ∧ RoomFor e p.rring 4
(leaveSafeOk s.dev = false) ∧ (b = 0) ∧ (serves () 3 d 0x1C) ∧ True) ∧
  (∃ (s : State), ∃ (t : Nat), ∃ (p : Packet), (TagFree s.dev p.tag) ∧ let w := nth 0 p.block 0
let b := fld w 15 8
(fld w 3 0 = 4) ∧ (b = 0) ∧ (Taken s 0x802 p) ∧ (s.dev.svc.safe = false) ∧ True) ∧
  (∃ (s : State), ∃ (t : Nat), ∃ (p : Packet), (TagFree s.dev p.tag) ∧ let d := shortFound s t
let w := nth 0 p.block 0
let img := s.dev.cpu.img
let good := imgCheck img (nth 0 p.block 1).toNat (nth 0 p.block 2)
let target : Nat := if bit w 0 then 1 else 0
(imgTarget s.dev = 0) ∧ (target = 0) ∧ (good = true) ∧ (Taken s 0x900 p) ∧ (RoomFor { d with cpu := { s.dev.cpu with
    apl := { s.dev.cpu.apl with ok := true, entry := nth 0 img.hdr 3, fentry := nth 0 img.hdr 6 } } } p.rring (4 + (([] : List Word)).length)) ∧ True) ∧
  (∃ (s : State), ∃ (t : Nat), ∃ (p : Packet), (TagFree s.dev p.tag) ∧ let w := nth 0 p.block 0
let img := s.dev.cpu.img
let good := imgCheck img (nth 0 p.block 1).toNat (nth 0 p.block 2)
let target : Nat := if bit w 0 then 1 else 0
(imgTarget s.dev = 1) ∧ (target = 1) ∧ (good = true) ∧ (Taken s 0x900 p) ∧ True) ∧
  (∃ (s : State), ∃ (t : Nat), ∃ (p : Packet), (TagFree s.dev p.tag) ∧ let d := shortFound s t
let w := nth 0 p.block 0
let img := s.dev.cpu.img
let good := imgCheck img (nth 0 p.block 1).toNat (nth 0 p.block 2)
let target : Nat := if bit w 0 then 1 else 0
(imgTarget s.dev ≠ target ∨ good = false) ∧ (Taken s 0x900 p) ∧ (RoomFor d p.rring (4 + (([] : List Word)).length)) ∧ True) ∧
  (∃ (s : State), ∃ (t : Nat), ∃ (p : Packet), (TagFree s.dev p.tag) ∧ let d := shortFound s t
(s.dev.cpu.apl.ok = false) ∧ (Taken s 0x901 p) ∧ (RoomFor d p.rring (4 + (([] : List Word)).length)) ∧ True) ∧
  (∃ (s : State), ∃ (t : Nat), ∃ (p : Packet), (TagFree s.dev p.tag) ∧ (s.dev.cpu.apl.ok = true) ∧ (s.dev.cpu.apl.run = false) ∧ (Taken s 0x901 p) ∧ True) ∧
  (∃ (s : State), ∃ (t : Nat), ∃ (p : Packet), (TagFree s.dev p.tag) ∧ let d := shortFound s t
(s.dev.cpu.apl.run = false) ∧ (Taken s 0x902 p) ∧ (RoomFor d p.rring (4 + (([] : List Word)).length)) ∧ True) ∧
  (∃ (s : State), ∃ (t : Nat), ∃ (p : Packet), (TagFree s.dev p.tag) ∧ (s.dev.cpu.apl.run = true) ∧ (s.dev.cpu.apl.filter = none) ∧ (s.dev.cpu.apl.fq = []) ∧ (Taken s 0x902 p) ∧ True) :=
  ⟨⟨(lState[0]'(by decide)), ⟨0, ⟨(lPacket[0]'(by decide)), by decide +kernel⟩⟩⟩,
  ⟨(lState[0]'(by decide)), ⟨0, ⟨(lPacket[1]'(by decide)), by decide +kernel⟩⟩⟩,
  ⟨(lState[0]'(by decide)), ⟨0, ⟨(lPacket[5]'(by decide)), by decide +kernel⟩⟩⟩,
  ⟨(lState[1]'(by decide)), ⟨0, ⟨(lPacket[1]'(by decide)), by decide +kernel⟩⟩⟩,
  ⟨(lState[1]'(by decide)), ⟨0, ⟨(lPacket[8]'(by decide)), by decide +kernel⟩⟩⟩,
  ⟨(lState[0]'(by decide)), ⟨0, ⟨(lPacket[8]'(by decide)), by decide +kernel⟩⟩⟩,
  ⟨(lState[0]'(by decide)), ⟨0, ⟨(lPacket[10]'(by decide)), ⟨by decide +kernel, ⟨false, ⟨0, by decide +kernel⟩⟩⟩⟩⟩⟩,
  ⟨(lState[0]'(by decide)), ⟨0, ⟨(lPacket[12]'(by decide)), ⟨by decide +kernel, ⟨false, ⟨17, by decide +kernel⟩⟩⟩⟩⟩⟩,
  ⟨(lState[2]'(by decide)), ⟨0, ⟨(lPacket[15]'(by decide)), by decide +kernel⟩⟩⟩,
  ⟨(lState[0]'(by decide)), ⟨0, ⟨(lPacket[15]'(by decide)), by decide +kernel⟩⟩⟩,
  ⟨(lState[0]'(by decide)), ⟨0, ⟨(lPacket[16]'(by decide)), by decide +kernel⟩⟩⟩,
  ⟨(lState[3]'(by decide)), ⟨0, ⟨(lPacket[21]'(by decide)), by decide +kernel⟩⟩⟩,
  ⟨(lState[4]'(by decide)), ⟨0, ⟨(lPacket[22]'(by decide)), by decide +kernel⟩⟩⟩,
  ⟨(lState[0]'(by decide)), ⟨0, ⟨(lPacket[21]'(by decide)), by decide +kernel⟩⟩⟩,
  ⟨(lState[0]'(by decide)), ⟨0, ⟨(lPacket[0]'(by decide)), by decide +kernel⟩⟩⟩,
  ⟨(lState[6]'(by decide)), ⟨0, ⟨(lPacket[0]'(by decide)), by decide +kernel⟩⟩⟩,
  ⟨(lState[0]'(by decide)), ⟨0, ⟨(lPacket[0]'(by decide)), by decide +kernel⟩⟩⟩,
  ⟨(lState[7]'(by decide)), ⟨0, ⟨(lPacket[0]'(by decide)), by decide +kernel⟩⟩⟩⟩
end ActingCommands

namespace WaitingCommands
def lPacket : List Packet := [pk [], pk [0], pk [0x80000005], pk [0x0000F010] , pk ([0x0000EF01] ++ List.replicate 8 3), pk ([0x0000F001] ++ List.replicate 8 3), pk [5,6], pk [0x10, 0], pk [0, 8, 5]]
def lState : List State := [base, lock base, mapDev (fun d => { d with seq := { d.seq with turn := some ⟨9, none, some 5, true⟩ } }) base, mapDev (fun d => { d with gen2 := { d.gen2 with rstate := 2 } }) base, { base with tagm := { base.tagm with lock := some 1 } }, mapDev (fun d => { d with cpu := { d.cpu with apl := { d.cpu.apl with ok := true, run := true } } }) base]
theorem witness_WaitingCommands :
  (∃ (s : State), ∃ (t : Nat), ∃ (p : Packet), (TagFree s.dev p.tag) ∧ let d := shortFound s t
(Taken s 0x002 p) ∧ (s.dev.seq.turn.isSome = true) ∧ (RoomFor d p.rring (4 + (([] : List Word)).length)) ∧ True) ∧
  (∃ (s : State), ∃ (t : Nat), ∃ (p : Packet), (TagFree s.dev p.tag) ∧ let d := shortFound s t
let w := nth 0 p.block 0
(Taken s 0x002 p) ∧ (s.dev.seq.turn = none) ∧ (bit w 31 = true) ∧ (tbValid s.dev = false) ∧ (RoomFor d p.rring (4 + (([] : List Word)).length)) ∧ True) ∧
  (∃ (s : State), ∃ (t : Nat), ∃ (p : Packet), (TagFree s.dev p.tag) ∧ let w := nth 0 p.block 0
(Taken s 0x002 p) ∧ (s.dev.seq.turn = none) ∧ (s.dev.sys.copyEnd = none) ∧ (bit w 31 = false) ∧ True) ∧
  (∃ (s : State), ∃ (t : Nat), ∃ (p : Packet), (TagFree s.dev p.tag) ∧ let w := nth 0 p.block 0
(Taken s 0x002 p) ∧ (s.dev.seq.turn = none) ∧ (s.dev.sys.copyEnd = none) ∧ (bit w 31 = true) ∧ (tbValid s.dev = true) ∧ True) ∧
  (∃ (s : State), ∃ (t : Nat), ∃ (p : Packet), (TagFree s.dev p.tag) ∧ (Taken s 0x301 p) ∧ (s.dev.gen2.rstate = 2) ∧ True) ∧
  (∃ (s : State), ∃ (t : Nat), ∃ (p : Packet), (TagFree s.dev p.tag) ∧ let d := shortFound s t
let w := nth 0 p.block 0
(Taken s 0x301 p) ∧ (s.dev.gen2.rstate = 0) ∧ (RoomFor (fwBuffer (8 + fld w 2 0)
    (setFld (fbHeader false 2 15 0 (selectFrame p.block).length) 31 31 (fld w 3 3)) (selectFrame p.block) d) p.rring (4 + (([] : List Word)).length)) ∧ True) ∧
  (∃ (s : State), ∃ (t : Nat), ∃ (p : Packet), (TagFree s.dev p.tag) ∧ let d := shortFound s t
let w := nth 0 p.block 0
(Taken s 0x602 p) ∧ (240 < fld w 15 8 + fld w 5 0) ∧ (RoomFor d p.rring (4 + (([] : List Word)).length)) ∧ True) ∧
  (∃ (s : State), ∃ (t : Nat), ∃ (p : Packet), (TagFree s.dev p.tag) ∧ let d := shortFound s t
let w := nth 0 p.block 0
(Taken s 0x602 p) ∧ (fld w 15 8 + fld w 5 0 ≤ 240) ∧ (s.tagm.lock.isSome = true) ∧ (RoomFor (event Reg.TAGM_EVENT 5 d) p.rring (4 + (([] : List Word)).length)) ∧ True) ∧
  (∃ (s : State), ∃ (t : Nat), ∃ (p : Packet), (TagFree s.dev p.tag) ∧ let w := nth 0 p.block 0
(Taken s 0x602 p) ∧ (fld w 15 8 + fld w 5 0 ≤ 240) ∧ (s.tagm.lock = none) ∧ True) ∧
  (∃ (s : State), ∃ (t : Nat), ∃ (p : Packet), (TagFree s.dev p.tag) ∧ let d := shortFound s t
(Taken s 0x904 p) ∧ (s.dev.cpu.apl.run = false) ∧ (RoomFor d p.rring (4 + (([] : List Word)).length)) ∧ True) ∧
  (∃ (s : State), ∃ (t : Nat), ∃ (p : Packet), (TagFree s.dev p.tag) ∧ (Taken s 0x904 p) ∧ (s.dev.cpu.apl.run = true) ∧ (s.dev.cpu.apl.waiting = none) ∧ True) :=
  ⟨⟨(lState[2]'(by decide)), ⟨0, ⟨(lPacket[1]'(by decide)), by decide +kernel⟩⟩⟩,
  ⟨(lState[0]'(by decide)), ⟨0, ⟨(lPacket[2]'(by decide)), by decide +kernel⟩⟩⟩,
  ⟨(lState[0]'(by decide)), ⟨0, ⟨(lPacket[1]'(by decide)), by decide +kernel⟩⟩⟩,
  ⟨(lState[1]'(by decide)), ⟨0, ⟨(lPacket[2]'(by decide)), by decide +kernel⟩⟩⟩,
  ⟨(lState[3]'(by decide)), ⟨0, ⟨(lPacket[6]'(by decide)), by decide +kernel⟩⟩⟩,
  ⟨(lState[0]'(by decide)), ⟨0, ⟨(lPacket[6]'(by decide)), by decide +kernel⟩⟩⟩,
  ⟨(lState[0]'(by decide)), ⟨0, ⟨(lPacket[5]'(by decide)), by decide +kernel⟩⟩⟩,
  ⟨(lState[4]'(by decide)), ⟨0, ⟨(lPacket[4]'(by decide)), by decide +kernel⟩⟩⟩,
  ⟨(lState[0]'(by decide)), ⟨0, ⟨(lPacket[4]'(by decide)), by decide +kernel⟩⟩⟩,
  ⟨(lState[0]'(by decide)), ⟨0, ⟨(lPacket[0]'(by decide)), by decide +kernel⟩⟩⟩,
  ⟨(lState[5]'(by decide)), ⟨0, ⟨(lPacket[0]'(by decide)), by decide +kernel⟩⟩⟩⟩
end WaitingCommands

namespace OperationRequests
def oq (st : OpState) (oc : Nat) (f : Op → Op := id) : Op := f { op0 with tag := 9, opcode := oc, st := st, rring := 6, long := oc ≥ 0x300, block := [0,0x100000,0,0xABCD0000,0x40000000,1], need := 6 }
def oqs : List Op := [oq .suspended 0x300, oq .running 0x300, oq .running 0x300 (fun o => { o with pend := .suspend }), oq .running 0x300 (fun o => { o with pend := .cancel }), oq .queued 0x700, oq .queued 0x400 (fun o => { o with block := [0,0x100000], need := 4 }), oq .running 0x002, oq .running 0x300 (fun o => { o with ended := true })]
def lOp : List Op := oqs
def lPacket : List Packet := [pk [9], pk [8], pk [9, 5]]
def lState : List State := oqs.map fun o => mapDev (updThr 0 fun t => { t with op := some 9, st := .waiting }) (ops [o] (rgs 6 (fun g => { g with en := true, size := 4 }) (rdyOf base)))
theorem witness_OperationRequests :
  (∃ (s : State), ∃ (t : Nat), ∃ (p : Packet), ∃ (o : Op), (hasHeld s.dev p.tag = false) ∧ (RoomFor s.dev p.rring 6) ∧ let target := fld (nth 0 p.block 0) 6 0
(findOp s.dev target = some o) ∧ (Taken s 0x006 p) ∧ (o.opcode ≠ 0x409) ∧ True) ∧
  (∃ (s : State), ∃ (t : Nat), ∃ (p : Packet), ∃ (o : Op), (hasHeld s.dev p.tag = false) ∧ (RoomFor s.dev p.rring 6) ∧ let target := fld (nth 0 p.block 0) 6 0
(findOp s.dev target = some o) ∧ (Taken s 0x003 p) ∧ (o.ended = false) ∧ (o.long = true) ∧ (o.st = .suspended) ∧ True) ∧
  (∃ (s : State), ∃ (t : Nat), ∃ (p : Packet), ∃ (o : Op), (hasHeld s.dev p.tag = false) ∧ (RoomFor s.dev p.rring 6) ∧ let target := fld (nth 0 p.block 0) 6 0
(findOp s.dev target = some o) ∧ (Taken s 0x003 p) ∧ (o.ended = false) ∧ (o.long = true) ∧ (o.st = .running) ∧ (o.pend = .none) ∧ (o.opcode = 0x300) ∧ ((∀ q ∈ s.dev.ops, q = o ∨ (q.tag ≠ target ∧ q.pend = .none))) ∧ ((thr s.dev 0).op = some target) ∧ ((thr s.dev 0).st = .waiting) ∧ True) ∧
  (∃ (s : State), ∃ (t : Nat), ∃ (p : Packet), ∃ (o : Op), (hasHeld s.dev p.tag = false) ∧ (RoomFor s.dev p.rring 6) ∧ let target := fld (nth 0 p.block 0) 6 0
(findOp s.dev target = some o) ∧ (Taken s 0x004 p) ∧ (o.ended = false) ∧ (o.long = true) ∧ (o.timeSusp = false) ∧ (o.st = .running) ∧ (o.pend = .suspend) ∧ True) ∧
  (∃ (s : State), ∃ (t : Nat), ∃ (p : Packet), ∃ (o : Op), (hasHeld s.dev p.tag = false) ∧ (RoomFor s.dev p.rring 6) ∧ let target := fld (nth 0 p.block 0) 6 0
(findOp s.dev target = some o) ∧ (Taken s 0x004 p) ∧ (o.ended = false) ∧ (o.long = true) ∧ (o.st = .running) ∧ (o.pend = .none) ∧ (o.timeSusp = false) ∧ True) ∧
  (∃ (s : State), ∃ (t : Nat), ∃ (p : Packet), ∃ (o : Op), (hasHeld s.dev p.tag = false) ∧ (RoomFor s.dev p.rring 6) ∧ let target := fld (nth 0 p.block 0) 6 0
(findOp s.dev target = some o) ∧ (Taken s 0x005 p) ∧ (o.ended = false) ∧ (o.long = true) ∧ (o.st = .running) ∧ (o.pend = .cancel) ∧ True) ∧
  (∃ (s : State), ∃ (t : Nat), ∃ (p : Packet), ∃ (o : Op), (hasHeld s.dev p.tag = false) ∧ (RoomFor s.dev p.rring 6) ∧ let target := fld (nth 0 p.block 0) 6 0
(findOp s.dev target = some o) ∧ (Taken s 0x005 p) ∧ (o.ended = false) ∧ (o.long = true) ∧ (o.st = .queued) ∧ (o.opcode = 0x700) ∧ (o.rring ≠ p.rring) ∧ (RoomFor s.dev o.rring 14) ∧ (o.res.length ≤ 4) ∧ (4 ≤ o.rring) ∧ (hasHeld s.dev target = false) ∧ (target ≠ p.tag) ∧ True) ∧
  (∃ (s : State), ∃ (t : Nat), ∃ (p : Packet), ∃ (o : Op), (hasHeld s.dev p.tag = false) ∧ (RoomFor s.dev p.rring 6) ∧ let target := fld (nth 0 p.block 0) 6 0
(findOp s.dev target = some o) ∧ (Taken s 0x007 p) ∧ (o.ended = false) ∧ (o.opcode = 0x400) ∧ (o.block.length < o.need) ∧ ((o.block ++ p.block.drop 1).length < blockNeed o.opcode (o.block ++ p.block.drop 1)) ∧ True) ∧
  (∃ (s : State), ∃ (t : Nat), ∃ (p : Packet), ∃ (o : Op), (hasHeld s.dev p.tag = false) ∧ (RoomFor s.dev p.rring 6) ∧ let target := fld (nth 0 p.block 0) 6 0
(findOp s.dev target = some o) ∧ (Taken s 0x007 p) ∧ (o.need ≤ o.block.length) ∧ True) ∧
  (∃ (s : State), ∃ (t : Nat), ∃ (p : Packet), ∃ (o : Op), (hasHeld s.dev p.tag = false) ∧ (RoomFor s.dev p.rring 6) ∧ let target := fld (nth 0 p.block 0) 6 0
∃ r, (r ∈ [(Instr.suspend, 0x003), (.resume, 0x004), (.cancel, 0x005), (.queryOp, 0x006), (.data, 0x007)]) ∧ (Taken s r.2 p) ∧ (findOp s.dev target = none) ∧ True) ∧
  (∃ (s : State), ∃ (t : Nat), ∃ (p : Packet), ∃ (o : Op), (hasHeld s.dev p.tag = false) ∧ (RoomFor s.dev p.rring 6) ∧ let target := fld (nth 0 p.block 0) 6 0
(findOp s.dev target = some o) ∧ ∃ r, (r ∈ [(Instr.suspend, 0x003), (.resume, 0x004), (.cancel, 0x005)]) ∧ (Taken s r.2 p) ∧ (o.ended = true) ∧ True) ∧
  (∃ (s : State), ∃ (t : Nat), ∃ (p : Packet), ∃ (o : Op), (hasHeld s.dev p.tag = false) ∧ (RoomFor s.dev p.rring 6) ∧ let target := fld (nth 0 p.block 0) 6 0
(findOp s.dev target = some o) ∧ ∃ r, (r ∈ [(Instr.suspend, 0x003), (.resume, 0x004)]) ∧ (Taken s r.2 p) ∧ (o.ended = false) ∧ (o.long = false) ∧ True) :=
  ⟨⟨(lState[0]'(by decide)), ⟨0, ⟨(lPacket[0]'(by decide)), ⟨(lOp[0]'(by decide)), by decide +kernel⟩⟩⟩⟩,
  ⟨(lState[0]'(by decide)), ⟨0, ⟨(lPacket[0]'(by decide)), ⟨(lOp[0]'(by decide)), by decide +kernel⟩⟩⟩⟩,
  ⟨(lState[1]'(by decide)), ⟨0, ⟨(lPacket[0]'(by decide)), ⟨(lOp[1]'(by decide)), by decide +kernel⟩⟩⟩⟩,
  ⟨(lState[2]'(by decide)), ⟨0, ⟨(lPacket[0]'(by decide)), ⟨(lOp[2]'(by decide)), by decide +kernel⟩⟩⟩⟩,
  ⟨(lState[1]'(by decide)), ⟨0, ⟨(lPacket[0]'(by decide)), ⟨(lOp[1]'(by decide)), by decide +kernel⟩⟩⟩⟩,
  ⟨(lState[3]'(by decide)), ⟨0, ⟨(lPacket[0]'(by decide)), ⟨(lOp[3]'(by decide)), by decide +kernel⟩⟩⟩⟩,
  ⟨(lState[4]'(by decide)), ⟨0, ⟨(lPacket[0]'(by decide)), ⟨(lOp[4]'(by decide)), by decide +kernel⟩⟩⟩⟩,
  ⟨(lState[5]'(by decide)), ⟨0, ⟨(lPacket[0]'(by decide)), ⟨(lOp[5]'(by decide)), by decide +kernel⟩⟩⟩⟩,
  ⟨(lState[0]'(by decide)), ⟨0, ⟨(lPacket[0]'(by decide)), ⟨(lOp[0]'(by decide)), by decide +kernel⟩⟩⟩⟩,
  ⟨ops oqs base, 0, pk [8], op0, by decide +kernel, by decide +kernel, (.suspend, 0x003), by simp, by decide +kernel⟩,
  ⟨ops [oq .running 0x300 (fun o => { o with ended := true })] base, 0, pk [9], oq .running 0x300 (fun o => { o with ended := true }), by decide +kernel, by decide +kernel, by decide +kernel, (.suspend, 0x003), by simp, by decide +kernel⟩,
  ⟨ops [oq .running 0x002] base, 0, pk [9], oq .running 0x002, by decide +kernel, by decide +kernel, by decide +kernel, (.suspend, 0x003), by simp, by decide +kernel⟩⟩
end OperationRequests

theorem row_nop (p : Packet) : RowOf .cmdNop 0x000 p := .inl (by simp [plainRows])
theorem row_inventory (p : Packet) : RowOf .inventory 0x300 p := .inl (by simp [plainRows])
theorem row_mboxRead (p : Packet) : RowOf .mboxRead 0x601 p := .inl (by simp [plainRows])

def oneWord (w : Word) : State := rgs 0 (fun g => { g with recs := [[w]] }) base
theorem witness_PacketsTaken :
    (∃ (s : State) (ws : List Word), s.tagm.hostW = none ∧ (ring s.dev 0).en = true ∧ (ring s.dev 0).recs = ws :: [] ∧
      fwTakes s.dev = true ∧ ∃ row p, RowOf row (fld (nth 0 ws 0) 31 16) p) ∧
    (∃ (s : State) (ws : List Word), s.tagm.hostW = none ∧ (ring s.dev 0).en = true ∧ (ring s.dev 0).recs = ws :: [] ∧
      fwTakes s.dev = true ∧ opKnown (fld (nth 0 ws 0) 31 16) = false ∧ 4 ≤ fld (nth 0 ws 0) 8 4 ∧
      hasHeld s.dev (fld (nth 0 ws 0) 15 9) = false ∧ RoomFor s.dev (fld (nth 0 ws 0) 8 4) 4) ∧
    (∃ (s : State) (ws : List Word), s.tagm.hostW = none ∧ (ring s.dev 0).en = true ∧ (ring s.dev 0).recs = ws :: [] ∧
      fwTakes s.dev = false) :=
  ⟨⟨oneWord 0x00000A40, [0x00000A40], by decide +kernel, by decide +kernel, by decide +kernel, by decide +kernel, .cmdNop, pk [], row_nop _⟩, ⟨oneWord 0xFFFF0A40, [0xFFFF0A40], by decide +kernel⟩,
   ⟨mapDev (fun d => { d with sys := { d.sys with ready := false } }) (oneWord 0x00000A40), [0x00000A40], by decide +kernel⟩⟩

theorem witness_PacketChecks :
    (∃ (s : State) (p : Packet), RowOf .cmdNop 0x000 p ∧ s.tagm.hostW = none ∧ fwTakes s.dev = true ∧ p.cring < 4 ∧ p.tag < 128 ∧
      p.rring < 32 ∧ hasHeld s.dev p.tag = false ∧ (findOp s.dev p.tag).isSome = true ∧ 4 ≤ p.rring ∧ RoomFor s.dev p.rring 4) ∧
    (∃ (s : State) (p : Packet), RowOf .cmdNop 0x000 p ∧ s.tagm.hostW = none ∧ fwTakes s.dev = true ∧ p.cring < 4 ∧ p.tag < 128 ∧
      hasHeld s.dev p.tag = false ∧ findOp s.dev p.tag = none ∧ p.rring < 4 ∧ RoomFor s.dev 4 4) ∧
    (∃ (s : State) (p : Packet), RowOf .cmdNop 0x000 p ∧ s.tagm.hostW = none ∧ fwTakes s.dev = true ∧ p.cring < 4 ∧ p.tag < 128 ∧
      p.rring < 32 ∧ hasHeld s.dev p.tag = false ∧ findOp s.dev p.tag = none ∧ 4 ≤ p.rring ∧
      blockNeed 0x000 p.block < p.block.length ∧ RoomFor s.dev p.rring 4) ∧
    (∃ (s : State) (p : Packet), RowOf .mboxRead 0x601 p ∧ s.tagm.hostW = none ∧ fwTakes s.dev = true ∧ p.cring < 4 ∧ p.tag < 128 ∧
      p.rring < 32 ∧ hasHeld s.dev p.tag = false ∧ findOp s.dev p.tag = none ∧ 4 ≤ p.rring ∧
      p.block.length = blockNeed 0x601 p.block ∧ blockFixed 0x601 p.block ≤ p.block.length ∧ p.block.length ≤ 1280 ∧
      paramBad s.dev 0x601 p.block = true ∧ RoomFor s.dev p.rring 4) :=
  ⟨⟨ops [{ op0 with tag := 5 }] base, pk [], row_nop _, by decide +kernel⟩, ⟨base, { pk [] with rring := 3 }, row_nop _, by decide +kernel⟩,
   ⟨base, pk [1], row_nop _, by decide +kernel⟩, ⟨base, pk [0], row_mboxRead _, by decide +kernel⟩⟩

def hp : Packet := ⟨0, 5, 4, false, false, true, [1, 0]⟩
def ip : Packet := ⟨0, 5, 4, false, false, false, [1, 0]⟩
theorem witness_LongCommands :
    (∃ (s : State) (p : Packet), RowOf .inventory 0x300 p ∧ Taken s 0x300 p ∧ TagFree s.dev p.tag ∧ RoomFor s.dev p.rring 4 ∧
      longRefusal (tick 0 s.dev) (packetOp 0x300 p (tick 0 s.dev)) = some 0x40) ∧
    (∃ (s : State) (p : Packet), RowOf .inventory 0x300 p ∧ Taken s 0x300 p ∧ TagFree s.dev p.tag ∧ RoomFor s.dev p.rring 4 ∧
      longRefusal (tick 0 s.dev) (packetOp 0x300 p (tick 0 s.dev)) = none ∧ p.hold = true) ∧
    (∃ (s : State) (p : Packet), RowOf .inventory 0x300 p ∧ Taken s 0x300 p ∧ TagFree s.dev p.tag ∧ RoomFor s.dev p.rring 4 ∧
      longRefusal (tick 0 s.dev) (packetOp 0x300 p (tick 0 s.dev)) = none ∧ p.hold = false ∧
      (mayStart { shortFound s 0 with ops := s.dev.ops ++ [packetOp 0x300 p (tick 0 s.dev)] } (packetOp 0x300 p (tick 0 s.dev)) = false ∨
        untriggered (packetOp 0x300 p (tick 0 s.dev)) = true)) ∧
    (∃ (s : State) (p : Packet), RowOf .inventory 0x300 p ∧ Taken s 0x300 p ∧ TagFree s.dev p.tag ∧ RoomFor s.dev p.rring 4 ∧
      longRefusal (tick 0 s.dev) (packetOp 0x300 p (tick 0 s.dev)) = none ∧ p.hold = false ∧
      mayStart { shortFound s 0 with ops := s.dev.ops ++ [packetOp 0x300 p (tick 0 s.dev)] } (packetOp 0x300 p (tick 0 s.dev)) = true ∧
      untriggered (packetOp 0x300 p (tick 0 s.dev)) = false ∧
      (opDomains { shortFound s 0 with ops := s.dev.ops ++ [packetOp 0x300 p (tick 0 s.dev)] } (packetOp 0x300 p (tick 0 s.dev))).all
        (domOn { shortFound s 0 with ops := s.dev.ops ++ [packetOp 0x300 p (tick 0 s.dev)] }) = true) :=
  ⟨⟨base, ip, row_inventory _, by decide +kernel⟩, ⟨rdyOf base, hp, row_inventory _, by decide +kernel⟩, ⟨ops [{ op0 with tag := 9 }] (rdyOf base), ip, row_inventory _, by decide +kernel⟩,
   ⟨rdyOf base, ip, row_inventory _, by decide +kernel⟩⟩

end Sys2Proof.Tests.P43

namespace Sys2Proof.Tests.P44

def rg (a : Nat) (v : Word) (s : State) : State := mapDev (fun d => setReg a v { d with set0 := { d.set0 with regs := CMap.set (fun _ => 0) d.set0.regs a v }, set1 := { d.set1 with regs := CMap.set (fun _ => 0) d.set1.regs a v } }) s
def pw (n : Nat) (s : State) : State := mapDev (fun d => setDom n { dom d n with pos := .on, pend := none } d) s
def sP : State := (List.range 13).foldl (fun s n => pw n s) s1
def sU : State := { sP with tagm := { sP.tagm with hostW := none } }
def op0 : Op := ⟨7, 0x300, 2, 0, false, false, true, .running, .none, false, false, 0, 0, 0, 0, 1, [0,0,0,0], 0, none, false, [], none, none, false⟩
def both (a : Nat) (v : Word) (s : State) : State := mapDev (setReg a v ∘ setReg (a + 0x8000) v) s
def rgs (n : Nat) (f : Ring → Ring) (s : State) : State := mapDev (fun d => setRing n (f (ring d n)) d) s
def base : State := mapDev (fun d => { d with pmu := { d.pmu with vioA := true, vioB := true, wakeAt := none }, sys := { d.sys with ready := true } }) (rgs 0 (fun g => { g with en := true, size := 4 }) sU)
def mkf (s : State) (port : Bool) (ws : List Word) (sq : Option Nat := none) : FrameIn := { fall := 0, t := 5, rel := 9, port := port, seq := (match sq with | some n => BitVec.ofNat 8 n | none => (Sys2Proof.Machine.port s.dev port).seq), crc := frameCrc (Sys2Proof.Machine.port s.dev port).epoch (Sys2Proof.Machine.port s.dev port).seq ws }
def hd (s : State) (port : Bool) (k low : Nat) : Word := put 31 28 k ||| put 23 16 (Sys2Proof.Machine.port s.dev port).seq.toNat ||| put 15 0 low
def S2 : State := mapDev (fun d => { d with portA := { d.portA with seq := 255, errRun := 3 } }) base
def rec1 : List Word := [0x00010201, 5]

namespace RegisterFrames
def addrs : List Nat := [0x10, 0x11, 0x7FE, 0x7FF, 0x800, 0x307, 0x481]
def datas : List (List Word) := [[5], [0xFFFFFFFF, 7], [1,2,3]]
def lFrameIn : List FrameIn := addrs.flatMap fun a => [mkf base false [hd base false 1 a], mkf base true [hd base true 1 a], mkf base false [hd base false 2 a, 1], mkf base true [hd base true 2 (0x8000 + a), 3], mkf S2 false ([hd S2 false 1 a, 3] ++ [1,2,3]), mkf base true ([hd base true 1 (0x8000+a), 1] ++ [5]), mkf base false ([hd base false 1 a, 2] ++ [0xFFFFFFFF, 7])]
def lState : List State := [base, S2]
theorem witness_RegisterFrames :
  (∃ (s : State), ∃ (f : FrameIn), ∃ (sh : Bool), ∃ (addr : BitVec 13), ∃ (data : List Word), ∃ (n : Nat), let a := addr.toNat
let r := portReader f.port
let s1 := frameFound s f
let h := fun (kind : Nat) => put 31 28 kind ||| put 23 16 f.seq.toNat ||| put 15 0 ((if sh then 0x8000 else 0) + a)
(a < 0x800) ∧ (1 ≤ n) ∧ (n ≤ 256) ∧ (data.length = n) ∧ (FrameGood s f (h 1 :: nw n :: data)) ∧ let e := (List.range n).foldl (fun u i => if a + i < 0x800 then (writeReg r sh (a + i) (nth 0 data i) u).1 else u) (release f.rel s1)
(s1.dev.sys.stage ≤ e.dev.sys.stage) ∧ True) ∧
  (∃ (s : State), ∃ (f : FrameIn), ∃ (sh : Bool), ∃ (addr : BitVec 13), ∃ (data : List Word), ∃ (n : Nat), let a := addr.toNat
let h := fun (kind : Nat) => put 31 28 kind ||| put 23 16 f.seq.toNat ||| put 15 0 ((if sh then 0x8000 else 0) + a)
(a < 0x800) ∧ (1 ≤ n) ∧ (n ≤ 256) ∧ (FrameGood s f [h 2, nw n]) ∧ True) ∧
  (∃ (s : State), ∃ (f : FrameIn), ∃ (sh : Bool), ∃ (addr : BitVec 13), ∃ (data : List Word), ∃ (n : Nat), let a := addr.toNat
let h := fun (kind : Nat) => put 31 28 kind ||| put 23 16 f.seq.toNat ||| put 15 0 ((if sh then 0x8000 else 0) + a)
(0x800 ≤ a) ∧ (FrameGood s f [h 1]) ∧ True) :=
  ⟨⟨(lState[0]'(by decide)), ⟨(lFrameIn[5]'(by decide)), ⟨true, ⟨0x0010#13, ⟨[0x00000005#32], ⟨1, by decide +kernel⟩⟩⟩⟩⟩⟩,
  ⟨(lState[0]'(by decide)), ⟨(lFrameIn[2]'(by decide)), ⟨false, ⟨0x0010#13, ⟨[0x00000005#32], ⟨1, by decide +kernel⟩⟩⟩⟩⟩⟩,
  ⟨(lState[0]'(by decide)), ⟨(lFrameIn[28]'(by decide)), ⟨false, ⟨0x0800#13, ⟨[0x00000005#32], ⟨1, by decide +kernel⟩⟩⟩⟩⟩⟩⟩
end RegisterFrames

namespace RefusedFrames
def S3 : State := mapDev (fun d => { d with portA := { d.portA with off := true } }) base
def S4 : State := mapDev (fun d => setReg Reg.LINK_CFG 4 { d with portA := { d.portA with errRun := 3 }, portB := { d.portB with errRun := 3 } }) base
def lState : List State := [base, S2, S3, S4]
def lFrameIn : List FrameIn := [mkf base false [], mkf base false [] (some 9), mkf base true [], mkf S2 false [], mkf S2 false [hd S2 false 7 0x123], mkf base false [hd base false 0 0x123], mkf base false [hd base false 15 0x123]]
theorem witness_RefusedFrames :
  (∃ (s : State), ∃ (f : FrameIn), ∃ (sh : Bool), ∃ (addr : BitVec 13), ∃ (fall t : Nat), ∃ (b : Bool), (s.tagm.hostW = none) ∧ let x := tick f.t s.dev
(portHears x f.port f.fall = false) ∧ True) ∧
  (∃ (s : State), ∃ (f : FrameIn), ∃ (sh : Bool), ∃ (addr : BitVec 13), ∃ (fall t : Nat), ∃ (b : Bool), (s.tagm.hostW = none) ∧ let y := tick t s.dev
(portHears y b fall = false) ∧ True) ∧
  (∃ (s : State), ∃ (f : FrameIn), ∃ (sh : Bool), ∃ (addr : BitVec 13), ∃ (fall t : Nat), ∃ (b : Bool), (s.tagm.hostW = none) ∧ let p := port s.dev f.port
let x := tick f.t s.dev
let h := put 31 28 2 ||| put 23 16 f.seq.toNat ||| put 15 0 ((if sh then 0x8000 else 0) + addr.toNat)
(portHears x f.port f.fall = true) ∧ (addr.toNat < 0x800) ∧ (f.crc ≠ frameCrc p.epoch p.seq [h, 1]) ∧ (p.errRun + 1 ≠ fld (reg s.dev Reg.LINK_CFG) 7 0) ∧ True) ∧
  (∃ (s : State), ∃ (f : FrameIn), ∃ (sh : Bool), ∃ (addr : BitVec 13), ∃ (fall t : Nat), ∃ (b : Bool), (s.tagm.hostW = none) ∧ let y := tick t s.dev
(portHears y b fall = true) ∧ ((port s.dev b).errRun + 1 ≠ fld (reg s.dev Reg.LINK_CFG) 7 0) ∧ True) ∧
  (∃ (s : State), ∃ (f : FrameIn), ∃ (sh : Bool), ∃ (addr : BitVec 13), ∃ (fall t : Nat), ∃ (b : Bool), (s.tagm.hostW = none) ∧ let y := tick t s.dev
(portHears y b fall = true) ∧ ((port s.dev b).errRun + 1 = fld (reg s.dev Reg.LINK_CFG) 7 0) ∧ (s.dev.svc.opens = []) ∧ (s.dev.svc.recent = []) ∧ True) ∧
  (∃ (s : State), ∃ (f : FrameIn), ∃ (sh : Bool), ∃ (addr : BitVec 13), ∃ (fall t : Nat), ∃ (b : Bool), (s.tagm.hostW = none) ∧ ∃ kind, ∃ low, (kind < 16) ∧ (kind = 0 ∨ 5 < kind) ∧ (low < 65536) ∧ let w := put 31 28 kind ||| put 23 16 f.seq.toNat ||| put 15 0 low
(w ≠ 0x6B2D6B2D) ∧ (FrameGood s f [w]) ∧ True) :=
  ⟨⟨(lState[2]'(by decide)), ⟨(lFrameIn[0]'(by decide)), ⟨true, ⟨0x0010#13, ⟨0, ⟨0, ⟨true, by decide +kernel⟩⟩⟩⟩⟩⟩⟩,
  ⟨(lState[2]'(by decide)), ⟨(lFrameIn[0]'(by decide)), ⟨true, ⟨0x0010#13, ⟨0, ⟨0, ⟨false, by decide +kernel⟩⟩⟩⟩⟩⟩⟩,
  ⟨(lState[0]'(by decide)), ⟨(lFrameIn[0]'(by decide)), ⟨true, ⟨0x0010#13, ⟨0, ⟨0, ⟨true, by decide +kernel⟩⟩⟩⟩⟩⟩⟩,
  ⟨(lState[0]'(by decide)), ⟨(lFrameIn[0]'(by decide)), ⟨true, ⟨0x0010#13, ⟨0, ⟨0, ⟨true, by decide +kernel⟩⟩⟩⟩⟩⟩⟩,
  ⟨(lState[3]'(by decide)), ⟨(lFrameIn[0]'(by decide)), ⟨true, ⟨0x0010#13, ⟨0, ⟨0, ⟨true, by decide +kernel⟩⟩⟩⟩⟩⟩⟩,
  ⟨(lState[0]'(by decide)), ⟨(lFrameIn[5]'(by decide)), ⟨true, ⟨0x0010#13, ⟨0, ⟨0, ⟨true, ⟨by decide +kernel, ⟨0, ⟨291, by decide +kernel⟩⟩⟩⟩⟩⟩⟩⟩⟩⟩⟩
end RefusedFrames

namespace RingFrames
def S8 : State := rgs 1 (fun g => { g with en := false }) base
def pks : List (List Word) := [[0x00000A40], [0x00000A40, 1,2], List.replicate 256 7]
def F (s : State) : List FrameIn := (pks.flatMap fun p => [mkf s false (hd s false 3 (2048 * 0 + p.length) :: p), mkf s true (hd s true 3 (2048 * 1 + p.length) :: p)]) ++
  ([1,2,5,1024].flatMap fun m => [mkf s false [hd s false 4 (2048 * 4 + m % 2048), 0], mkf s true [hd s true 4 (2048 * 4 + m), 0x80000001], mkf s true [hd s true 4 (2048 * 4 + m), 0x80000000]])
def S5 : State := rgs 4 (fun g => { g with recs := [rec1], held := 0 }) base
def S6 : State := rgs 4 (fun g => { g with recs := [[0x00010201, 5], [0x00010202, 6], [0x00010203, 7]], held := 2 }) (rgs 0 (fun g => { g with recs := [List.replicate 200 7] }) base)
def lState : List State := [base, S5, S6, S8]
def lFrameIn : List FrameIn := F base
theorem witness_RingFrames :
  (∃ (s : State), ∃ (f : FrameIn), ∃ (n : Nat), ∃ (packet : List Word), ∃ (m : Nat), let g := ring s.dev n
let k := packet.length
let h := put 31 28 3 ||| put 23 16 f.seq.toNat ||| put 15 0 (2048 * n + k % 2048)
(n < 4) ∧ (1 ≤ k) ∧ (k ≤ 256) ∧ (g.en = true) ∧ (k ≤ g.room) ∧ (FrameGood s f (h :: packet)) ∧ True) ∧
  (∃ (s : State), ∃ (f : FrameIn), ∃ (n : Nat), ∃ (packet : List Word), ∃ (m : Nat), let g := ring s.dev n
let k := packet.length
let h := put 31 28 3 ||| put 23 16 f.seq.toNat ||| put 15 0 (2048 * n + k % 2048)
(n < 4) ∧ (1 ≤ k) ∧ (k ≤ 256) ∧ (g.en = true) ∧ (g.room < k) ∧ (FrameGood s f (h :: packet)) ∧ True) ∧
  (∃ (s : State), ∃ (f : FrameIn), ∃ (n : Nat), ∃ (packet : List Word), ∃ (m : Nat), let g := ring s.dev n
let k := packet.length
let h := put 31 28 3 ||| put 23 16 f.seq.toNat ||| put 15 0 (2048 * n + k % 2048)
(n < 4) ∧ (1 ≤ k) ∧ (k ≤ 256) ∧ (g.en = false) ∧ (FrameGood s f (h :: packet)) ∧ True) ∧
  (∃ (s : State), ∃ (f : FrameIn), ∃ (n : Nat), ∃ (packet : List Word), ∃ (m : Nat), let g := ring s.dev n
let pull := put 31 28 4 ||| put 23 16 f.seq.toNat ||| put 15 0 (2048 * n + m % 2048)
(4 ≤ n) ∧ (n < 32) ∧ (1 ≤ m) ∧ (m ≤ 1024) ∧ (g.en = true) ∧ (FrameGood s f [pull, 0]) ∧ (g.recs = []) ∧ True) ∧
  (∃ (s : State), ∃ (f : FrameIn), ∃ (n : Nat), ∃ (packet : List Word), ∃ (m : Nat), let g := ring s.dev n
let pull := put 31 28 4 ||| put 23 16 f.seq.toNat ||| put 15 0 (2048 * n + m % 2048)
(4 ≤ n) ∧ (n < 32) ∧ (1 ≤ m) ∧ (m ≤ 1024) ∧ (g.en = true) ∧ (FrameGood s f [pull, 0]) ∧ ∃ a, ∃ rest, (g.recs = a :: rest) ∧ (a.length ≤ m) ∧ True) ∧
  (∃ (s : State), ∃ (f : FrameIn), ∃ (n : Nat), ∃ (packet : List Word), ∃ (m : Nat), let g := ring s.dev n
let pull := put 31 28 4 ||| put 23 16 f.seq.toNat ||| put 15 0 (2048 * n + m % 2048)
(4 ≤ n) ∧ (n < 32) ∧ (1 ≤ m) ∧ (m ≤ 1024) ∧ (g.en = true) ∧ (FrameGood s f [pull, 0]) ∧ ∃ a, ∃ rest, (g.recs = a :: rest) ∧ (m < a.length) ∧ True) ∧
  (∃ (s : State), ∃ (f : FrameIn), ∃ (n : Nat), ∃ (packet : List Word), ∃ (m : Nat), let g := ring s.dev n
let pull := put 31 28 4 ||| put 23 16 f.seq.toNat ||| put 15 0 (2048 * n + m % 2048)
∃ q : BitVec 8, (4 ≤ n) ∧ (n < 32) ∧ (1 ≤ m) ∧ (g.en = true) ∧ (0 < g.held) ∧ (FrameGood s f [pull, 0x80000000 ||| put 7 0 q.toNat]) ∧ ((q - (nth 0 (nth [] g.recs 0) 0).extractLsb' 0 8).toNat < g.held) ∧ True) :=
  ⟨⟨(lState[0]'(by decide)), ⟨(lFrameIn[0]'(by decide)), ⟨0, ⟨[0x00000a40#32], ⟨0, by decide +kernel⟩⟩⟩⟩⟩,
  ⟨(lState[2]'(by decide)), ⟨(lFrameIn[4]'(by decide)), ⟨0, ⟨[0x00000007#32, 0x00000007#32, 0x00000007#32, 0x00000007#32, 0x00000007#32, 0x00000007#32, 0x00000007#32, 0x00000007#32, 0x00000007#32, 0x00000007#32, 0x00000007#32, 0x00000007#32, 0x00000007#32, 0x00000007#32, 0x00000007#32, 0x00000007#32, 0x00000007#32, 0x00000007#32, 0x00000007#32, 0x00000007#32, 0x00000007#32, 0x00000007#32, 0x00000007#32, 0x00000007#32, 0x00000007#32, 0x00000007#32, 0x00000007#32, 0x00000007#32, 0x00000007#32, 0x00000007#32, 0x00000007#32, 0x00000007#32, 0x00000007#32, 0x00000007#32, 0x00000007#32, 0x00000007#32, 0x00000007#32, 0x00000007#32, 0x00000007#32, 0x00000007#32, 0x00000007#32, 0x00000007#32, 0x00000007#32, 0x00000007#32, 0x00000007#32, 0x00000007#32, 0x00000007#32, 0x00000007#32, 0x00000007#32, 0x00000007#32, 0x00000007#32, 0x00000007#32, 0x00000007#32, 0x00000007#32, 0x00000007#32, 0x00000007#32, 0x00000007#32, 0x00000007#32, 0x00000007#32, 0x00000007#32, 0x00000007#32, 0x00000007#32, 0x00000007#32, 0x00000007#32, 0x00000007#32, 0x00000007#32, 0x00000007#32, 0x00000007#32, 0x00000007#32, 0x00000007#32, 0x00000007#32, 0x00000007#32, 0x00000007#32, 0x00000007#32, 0x00000007#32, 0x00000007#32, 0x00000007#32, 0x00000007#32, 0x00000007#32, 0x00000007#32, 0x00000007#32, 0x00000007#32, 0x00000007#32, 0x00000007#32, 0x00000007#32, 0x00000007#32, 0x00000007#32, 0x00000007#32, 0x00000007#32, 0x00000007#32, 0x00000007#32, 0x00000007#32, 0x00000007#32, 0x00000007#32, 0x00000007#32, 0x00000007#32, 0x00000007#32, 0x00000007#32, 0x00000007#32, 0x00000007#32, 0x00000007#32, 0x00000007#32, 0x00000007#32, 0x00000007#32, 0x00000007#32, 0x00000007#32, 0x00000007#32, 0x00000007#32, 0x00000007#32, 0x00000007#32, 0x00000007#32, 0x00000007#32, 0x00000007#32, 0x00000007#32, 0x00000007#32, 0x00000007#32, 0x00000007#32, 0x00000007#32, 0x00000007#32, 0x00000007#32, 0x00000007#32, 0x00000007#32, 0x00000007#32, 0x00000007#32, 0x00000007#32, 0x00000007#32, 0x00000007#32, 0x00000007#32, 0x00000007#32, 0x00000007#32, 0x00000007#32, 0x00000007#32, 0x00000007#32, 0x00000007#32, 0x00000007#32, 0x00000007#32, 0x00000007#32, 0x00000007#32, 0x00000007#32, 0x00000007#32, 0x00000007#32, 0x00000007#32, 0x00000007#32, 0x00000007#32, 0x00000007#32, 0x00000007#32, 0x00000007#32, 0x00000007#32, 0x00000007#32, 0x00000007#32, 0x00000007#32, 0x00000007#32, 0x00000007#32, 0x00000007#32, 0x00000007#32, 0x00000007#32, 0x00000007#32, 0x00000007#32, 0x00000007#32, 0x00000007#32, 0x00000007#32, 0x00000007#32, 0x00000007#32, 0x00000007#32, 0x00000007#32, 0x00000007#32, 0x00000007#32, 0x00000007#32, 0x00000007#32, 0x00000007#32, 0x00000007#32, 0x00000007#32, 0x00000007#32, 0x00000007#32, 0x00000007#32, 0x00000007#32, 0x00000007#32, 0x00000007#32, 0x00000007#32, 0x00000007#32, 0x00000007#32, 0x00000007#32, 0x00000007#32, 0x00000007#32, 0x00000007#32, 0x00000007#32, 0x00000007#32, 0x00000007#32, 0x00000007#32, 0x00000007#32, 0x00000007#32, 0x00000007#32, 0x00000007#32, 0x00000007#32, 0x00000007#32, 0x00000007#32, 0x00000007#32, 0x00000007#32, 0x00000007#32, 0x00000007#32, 0x00000007#32, 0x00000007#32, 0x00000007#32, 0x00000007#32, 0x00000007#32, 0x00000007#32, 0x00000007#32, 0x00000007#32, 0x00000007#32, 0x00000007#32, 0x00000007#32, 0x00000007#32, 0x00000007#32, 0x00000007#32, 0x00000007#32, 0x00000007#32, 0x00000007#32, 0x00000007#32, 0x00000007#32, 0x00000007#32, 0x00000007#32, 0x00000007#32, 0x00000007#32, 0x00000007#32, 0x00000007#32, 0x00000007#32, 0x00000007#32, 0x00000007#32, 0x00000007#32, 0x00000007#32, 0x00000007#32, 0x00000007#32, 0x00000007#32, 0x00000007#32, 0x00000007#32, 0x00000007#32, 0x00000007#32, 0x00000007#32, 0x00000007#32, 0x00000007#32, 0x00000007#32, 0x00000007#32, 0x00000007#32, 0x00000007#32, 0x00000007#32, 0x00000007#32, 0x00000007#32, 0x00000007#32, 0x00000007#32, 0x00000007#32, 0x00000007#32, 0x00000007#32, 0x00000007#32, 0x00000007#32, 0x00000007#32, 0x00000007#32], ⟨0, by decide +kernel⟩⟩⟩⟩⟩,
  ⟨(lState[3]'(by decide)), ⟨(lFrameIn[1]'(by decide)), ⟨1, ⟨[0x00000a40#32], ⟨0, by decide +kernel⟩⟩⟩⟩⟩,
  ⟨(lState[0]'(by decide)), ⟨(lFrameIn[6]'(by decide)), ⟨4, ⟨[0x00000a40#32], ⟨1, by decide +kernel⟩⟩⟩⟩⟩,
  ⟨(lState[1]'(by decide)), ⟨(lFrameIn[9]'(by decide)), ⟨4, ⟨[0x00000a40#32], ⟨2, ⟨by decide +kernel, ⟨by decide +kernel, ⟨by decide +kernel, ⟨by decide +kernel, ⟨by decide +kernel, ⟨by decide +kernel, ⟨[0x00010201#32, 0x00000005#32], ⟨[], by decide +kernel⟩⟩⟩⟩⟩⟩⟩⟩⟩⟩⟩⟩⟩,
  ⟨(lState[1]'(by decide)), ⟨(lFrameIn[6]'(by decide)), ⟨4, ⟨[0x00000a40#32], ⟨1, ⟨by decide +kernel, ⟨by decide +kernel, ⟨by decide +kernel, ⟨by decide +kernel, ⟨by decide +kernel, ⟨by decide +kernel, ⟨[0x00010201#32, 0x00000005#32], ⟨[], by decide +kernel⟩⟩⟩⟩⟩⟩⟩⟩⟩⟩⟩⟩⟩,
  ⟨(lState[2]'(by decide)), ⟨(lFrameIn[7]'(by decide)), ⟨4, ⟨[0x00000a40#32], ⟨1, ⟨0x01#8, by decide +kernel⟩⟩⟩⟩⟩⟩⟩
end RingFrames

namespace BulkFrames
def S7 : State := mapDev (setReg Reg.LINK_XLEN 0x00200040) base
def bk2 (s : State) : State := mapDev (fun d => { d with portA := { d.portA with bulk := some ⟨0x308, true, [5,6,7], 300⟩ } }) s
def bk (s : State) : State := mapDev (fun d => { d with portA := { d.portA with bulk := some ⟨0x308, true, [5], 3⟩ }, portB := { d.portB with bulk := some ⟨0x32C, false, [5], 3⟩ } }) s
def lState : List State := [S7, bk S7, bk2 S7]
def datas : List (List Word) := [[5], [5, 6], [], [5,6,7]]
def addrs : List Nat := [0x09A, 0x308, 0x32C, 0x489, 0x10]
def lFrameIn : List FrameIn := addrs.flatMap fun a => (datas.flatMap fun p => [mkf S7 false (hd S7 false 5 (0x8000 + a) :: p), mkf S7 true (hd S7 true 5 a :: p)]) ++ [mkf S7 false [hd S7 false 5 (0xC000 + a)], mkf S7 true [hd S7 true 5 (0x4000 + a)]]
theorem witness_BulkFrames :
  (∃ (s : State), ∃ (f : FrameIn), ∃ (sh : Bool), ∃ (addr : BitVec 13), ∃ (data : List Word), let a := addr.toNat
let n := bulkWords s.dev f.port
let h := fun (rd : Bool) => put 31 28 5 ||| put 23 16 f.seq.toNat ||| put 15 0 ((if rd then 0x4000 else 0) + ((if sh then 0x8000 else 0) + a))
(bulkTarget a sh false = true) ∧ (data.length = n) ∧ (bulkBits s.dev f.port % 32 = 0) ∧ (FrameGood s f (h false :: data)) ∧ True) ∧
  (∃ (s : State), ∃ (f : FrameIn), ∃ (sh : Bool), ∃ (addr : BitVec 13), ∃ (data : List Word), let a := addr.toNat
let n := bulkWords s.dev f.port
(bulkTarget a sh false = true) ∧ (data.length < n) ∧ (portHears (tick f.t s.dev) f.port f.fall = true) ∧ True) ∧
  (∃ (s : State), ∃ (f : FrameIn), ∃ (sh : Bool), ∃ (addr : BitVec 13), ∃ (data : List Word), let a := addr.toNat
let h := fun (rd : Bool) => put 31 28 5 ||| put 23 16 f.seq.toNat ||| put 15 0 ((if rd then 0x4000 else 0) + ((if sh then 0x8000 else 0) + a))
(bulkTarget a sh true = true) ∧ (FrameGood s f [h true]) ∧ (bulkBits s.dev f.port % 32 = 0) ∧ True) ∧
  (∃ (s : State), ∃ (f : FrameIn), ∃ (sh : Bool), ∃ (addr : BitVec 13), ∃ (data : List Word), let a := addr.toNat
let h := fun (rd : Bool) => put 31 28 5 ||| put 23 16 f.seq.toNat ||| put 15 0 ((if rd then 0x4000 else 0) + ((if sh then 0x8000 else 0) + a))
(bulkTarget a sh false = false) ∧ (FrameGood s f [h false]) ∧ True) ∧
  (∃ (s : State), ∃ (f : FrameIn), ∃ (sh : Bool), ∃ (addr : BitVec 13), ∃ (data : List Word), ∃ b, (s.tagm.hostW = none) ∧ ((port s.dev b).bulk = none) ∧ True) ∧
  (∃ (s : State), ∃ (f : FrameIn), ∃ (sh : Bool), ∃ (addr : BitVec 13), ∃ (data : List Word), let a := addr.toNat
∃ (t : Nat), ∃ b, ∃ ws, ∃ start, (s.tagm.hostW = none) ∧ ((port s.dev b).bulk = some ⟨a, sh, ws, start⟩) ∧ ((tick t s.dev).now < start + ws.length) ∧ True) ∧
  (∃ (s : State), ∃ (f : FrameIn), ∃ (sh : Bool), ∃ (addr : BitVec 13), ∃ (data : List Word), let a := addr.toNat
∃ (t : Nat), ∃ b, ∃ v, ∃ start, (s.tagm.hostW = none) ∧ ((port s.dev b).bulk = some ⟨a, sh, [v], start⟩) ∧ (start + 1 ≤ (tick t s.dev).now) ∧ (a ≠ 0x489) ∧ True) :=
  ⟨⟨(lState[0]'(by decide)), ⟨(lFrameIn[1]'(by decide)), ⟨false, ⟨0x009a#13, ⟨[0x00000005#32], by decide +kernel⟩⟩⟩⟩⟩,
  ⟨(lState[0]'(by decide)), ⟨(lFrameIn[0]'(by decide)), ⟨true, ⟨0x009a#13, ⟨[0x00000005#32], by decide +kernel⟩⟩⟩⟩⟩,
  ⟨(lState[0]'(by decide)), ⟨(lFrameIn[8]'(by decide)), ⟨true, ⟨0x009a#13, ⟨[0x00000005#32], by decide +kernel⟩⟩⟩⟩⟩,
  ⟨(lState[0]'(by decide)), ⟨(lFrameIn[24]'(by decide)), ⟨true, ⟨0x032c#13, ⟨[0x00000005#32], by decide +kernel⟩⟩⟩⟩⟩,
  ⟨(lState[0]'(by decide)), ⟨(lFrameIn[0]'(by decide)), ⟨true, ⟨0x009a#13, ⟨[0x00000005#32], ⟨true, by decide +kernel⟩⟩⟩⟩⟩⟩,
  ⟨(lState[1]'(by decide)), ⟨(lFrameIn[0]'(by decide)), ⟨true, ⟨0x0308#13, ⟨[0x00000005#32], ⟨0, ⟨false, ⟨[0x00000005#32], ⟨3, by decide +kernel⟩⟩⟩⟩⟩⟩⟩⟩⟩,
  ⟨(lState[1]'(by decide)), ⟨(lFrameIn[0]'(by decide)), ⟨true, ⟨0x0308#13, ⟨[0x00000005#32], ⟨5, ⟨false, ⟨0x00000005#32, ⟨3, by decide +kernel⟩⟩⟩⟩⟩⟩⟩⟩⟩⟩
end BulkFrames

namespace LinkWakes
def dp (n : Nat) (p : DomPos) (s : State) : State := mapDev (fun d => setDom n { dom d n with pos := p, pend := none } d) s
def lState : List State := [base, dp 1 .off base, dp 1 .ret base, dp 2 .off base, dp 2 .ret base, mapDev (fun d => { d with pmu := { d.pmu with vioA := false } }) (dp 1 .off base), mapDev (fun d => { d with mst := { d.mst with on := true } }) (dp 2 .off base), (List.range 14).foldl (fun s n => dp n .off s) (mapDev (fun d => { d with pmu := { d.pmu with coreBuck := false, xo := false } }) base)]
theorem witness_LinkWakes :
  (∃ (s : State), ∃ (fall t : Nat), ∃ (b : Bool), let n := if b then 2 else 1
(deepState s.dev = true ∨ slaveService s.dev b = false ∨ portRail s.dev b = false ∨ domOn s.dev n = true) ∧ True) ∧
  (∃ (s : State), ∃ (fall t : Nat), ∃ (b : Bool), let n := if b then 2 else 1
∃ (off : Bool), (deepState s.dev = false) ∧ (slaveService s.dev b = true) ∧ (portRail s.dev b = true) ∧ (s.dev.pmu.wakeAt = none) ∧ ((dom s.dev n).pos = (if off then .off else .ret)) ∧ True) ∧
  (∃ (s : State), ∃ (fall t : Nat), ∃ (b : Bool), (portRail s.dev b = false ∨ (b = true ∧ s.dev.mst.on = true)) ∧ True) ∧
  (∃ (s : State), ∃ (fall t : Nat), ∃ (b : Bool), let n := if b then 2 else 1
∃ (off : Bool), ((b = true → s.dev.mst.on = false)) ∧ (portRail s.dev b = true) ∧ (s.dev.pmu.wakeAt = none) ∧ ((dom s.dev n).pos = (if off then .off else .ret)) ∧ True) ∧
  (∃ (s : State), ∃ (fall t : Nat), ∃ (b : Bool), let x := tick t s.dev
((b = true → s.dev.mst.on = false)) ∧ (portRail s.dev b = true) ∧ (portHears x b fall = true) ∧ True) :=
  ⟨⟨(lState[0]'(by decide)), ⟨0, ⟨0, ⟨true, by decide +kernel⟩⟩⟩⟩,
  ⟨(lState[1]'(by decide)), ⟨0, ⟨0, ⟨false, ⟨true, by decide +kernel⟩⟩⟩⟩⟩,
  ⟨(lState[5]'(by decide)), ⟨0, ⟨0, ⟨false, by decide +kernel⟩⟩⟩⟩,
  ⟨(lState[1]'(by decide)), ⟨0, ⟨0, ⟨false, ⟨true, by decide +kernel⟩⟩⟩⟩⟩,
  ⟨(lState[0]'(by decide)), ⟨0, ⟨0, ⟨true, by decide +kernel⟩⟩⟩⟩⟩
end LinkWakes

end Sys2Proof.Tests.P44

namespace Sys2Proof.Tests.P50

def rg (a : Nat) (v : Word) (s : State) : State := mapDev (fun d => setReg a v { d with set0 := { d.set0 with regs := CMap.set (fun _ => 0) d.set0.regs a v }, set1 := { d.set1 with regs := CMap.set (fun _ => 0) d.set1.regs a v } }) s
def pw (n : Nat) (s : State) : State := mapDev (fun d => setDom n { dom d n with pos := .on, pend := none } d) s
def sP : State := (List.range 13).foldl (fun s n => pw n s) s1
def sU : State := { sP with tagm := { sP.tagm with hostW := none } }
def op0 : Op := ⟨7, 0x300, 2, 0, false, false, true, .running, .none, false, false, 0, 0, 0, 0, 1, [0,0,0,0], 0, none, false, [], none, none, false⟩
def both (a : Nat) (v : Word) (s : State) : State := mapDev (setReg a v ∘ setReg (a + 0x8000) v) s
def cc (f : Core → Core) (s : State) : State := mapDev (fun d => setCore (f (coreIn d)) d) s
def fill (k : Core) : Core := { k with g := [0, 1, 0xFFFFFFFF, 0x80000000, 5, 0x10000040, 7, 0x1003F000], w := (List.range 256).map (fun i => nth 0 [0x10000100, 0x80000000, 0xFFFFFFFF, 3, 0, 33, 0x7FFFFFFF, 0x30000, 0x1000, 0x20000010] (i % 10) + 0x10000 * nw (i / 10)), h := [1,2,3,4,5,0x10000200,0x20000040,8], pc := 0x100, st := .run }
def cb : State := cc fill (mapDev (fun d => { d with cpu := { d.cpu with dsram := [(0, 0x11223344), (16, 0x80C0FF7E), (0x1001, 0x55667788)] } }) sU)
def cbs : List State := [cb, cc (fun k => { k with inton := true }) cb, cc (fun k => { k with nest := true }) cb, cc (fun k => { k with sup := false, pc := 0x30010, win := 15, depth := 15 }) cb, cc (fun k => { k with win := 14, depth := 1 }) cb, cc (fun k => { k with win := 3, depth := 9 }) cb]
def lState : List State := cbs
def lCore : List Core := cbs.map fun s => coreIn s.dev

namespace AccessTraps

theorem witness_AccessTraps :
  (∃ (s : State), ∃ (c : Bool), ∃ (rd ra : BitVec 5), ∃ (imm : BitVec 14), (Runs s (instrLen c)) ∧ ((coreIn s.dev).sup = true) ∧ ((coreIn s.dev).nest = false) ∧ let k := coreIn s.dev
let a := k.get ra + imm.signExtend 32
(a.toNat % 4 ≠ 0) ∧ True) ∧
  (∃ (s : State), ∃ (c : Bool), ∃ (rd ra : BitVec 5), ∃ (imm : BitVec 14), (Runs s (instrLen c)) ∧ ((coreIn s.dev).sup = true) ∧ ((coreIn s.dev).nest = false) ∧ let k := coreIn s.dev
let a := k.get ra + imm.signExtend 32
(a.toNat % 4 = 0) ∧ ((0x30000000 ≤ a.toNat ∨ 0x10040000 ≤ a.toNat ∧ a.toNat < 0x20000000)) ∧ True) ∧
  (∃ (s : State), ∃ (c : Bool), ∃ (rd ra : BitVec 5), ∃ (imm : BitVec 14), (Runs s (instrLen c)) ∧ ((coreIn s.dev).sup = true) ∧ ((coreIn s.dev).nest = false) ∧ let k := coreIn s.dev
let a := k.get ra + imm.signExtend 32
(a.toNat % 4 = 0) ∧ (a.toNat < 0x30000) ∧ True) :=
  ⟨⟨(lState[0]'(by decide)), ⟨true, ⟨0x11#5, ⟨0x11#5, ⟨0x0001#14, by decide +kernel⟩⟩⟩⟩⟩,
  ⟨(lState[0]'(by decide)), ⟨true, ⟨0x11#5, ⟨0x03#5, ⟨0x0000#14, by decide +kernel⟩⟩⟩⟩⟩,
  ⟨(lState[0]'(by decide)), ⟨true, ⟨0x11#5, ⟨0x00#5, ⟨0x0000#14, by decide +kernel⟩⟩⟩⟩⟩⟩
end AccessTraps

namespace AppletStops
def lState : List State := cbs ++ [mapDev (fun d => { d with cpu := { d.cpu with apl := { d.cpu.apl with ok := true, run := true } } }) (cc (fun k => { k with sup := false, pc := 0x30010 }) cb)]
theorem witness_AppletStops :
  ∃ (s : State), ∃ (imm : BitVec 14), (Runs s 4) ∧ let k := coreIn s.dev
(k.nest = false) ∧ (k.sup = false) ∧ (serviceAllowed s.dev imm.toNat = false) ∧ (s.dev.cpu.apl.fq = []) ∧ (s.dev.cpu.apl.filter = none) ∧ (s.dev.cpu.apl.xchg = none) ∧ (s.dev.cpu.apl.cmds = []) ∧ (s.dev.cpu.apl.taken = []) ∧ True :=
  ⟨(lState[3]'(by decide)), ⟨0x0020#14, by decide +kernel⟩⟩
end AppletStops

namespace BranchResults

theorem witness_BranchResults :
  ∃ (s : State), ∃ (c : Bool), ∃ (ra rb : BitVec 5), ∃ (off : BitVec 14), ∃ (far : BitVec 24), (Runs s (instrLen c)) ∧ (c = false) ∧ True :=
  ⟨(lState[0]'(by decide)), ⟨false, ⟨0x11#5, ⟨0x11#5, ⟨0x0000#14, ⟨0x000005#24, by decide +kernel⟩⟩⟩⟩⟩⟩
end BranchResults

namespace ImmediateResults

theorem witness_ImmediateResults :
  ∃ (s : State), ∃ (c : Bool), ∃ (rd ra : BitVec 5), ∃ (imm : BitVec 14), ∃ (up : BitVec 19), (Runs s (instrLen c)) ∧ (c = false) ∧ True :=
  ⟨(lState[0]'(by decide)), ⟨false, ⟨0x11#5, ⟨0x11#5, ⟨0x0000#14, ⟨0x00005#19, by decide +kernel⟩⟩⟩⟩⟩⟩
end ImmediateResults

namespace LoadResults

theorem witness_LoadResults :
  (∃ (s : State), ∃ (c : Bool), ∃ (rd ra : BitVec 5), ∃ (imm : BitVec 14), (Runs s (instrLen c)) ∧ let k := coreIn s.dev
let a := k.get ra + imm.signExtend 32
∃ m : CMap Word, ∃ base : Nat, (((m = s.dev.cpu.dsram ∧ base = 0x10000000 ∧ a.toNat < 0x10040000 ∧ (if k.sup then 0x10000000 else 0x1003C000) ≤ a.toNat) ∨
     (m = k.isram ∧ base = 0 ∧ a.toNat < 0x40000 ∧ (if k.sup then 0 else 0x30000) ≤ a.toNat))) ∧ (a.toNat % 4 = 0) ∧ True) ∧
  (∃ (s : State), ∃ (c : Bool), ∃ (rd ra : BitVec 5), ∃ (imm : BitVec 14), (Runs s (instrLen c)) ∧ let k := coreIn s.dev
let a := k.get ra + imm.signExtend 32
∃ m : CMap Word, ∃ base : Nat, (((m = s.dev.cpu.dsram ∧ base = 0x10000000 ∧ a.toNat < 0x10040000 ∧ (if k.sup then 0x10000000 else 0x1003C000) ≤ a.toNat) ∨
     (m = k.isram ∧ base = 0 ∧ a.toNat < 0x40000 ∧ (if k.sup then 0 else 0x30000) ≤ a.toNat))) ∧ (c = false) ∧ (a.toNat % 2 = 0) ∧ True) ∧
  (∃ (s : State), ∃ (c : Bool), ∃ (rd ra : BitVec 5), ∃ (imm : BitVec 14), (Runs s (instrLen c)) ∧ let k := coreIn s.dev
let a := k.get ra + imm.signExtend 32
(a.toNat % 4 = 0) ∧ (0x20000000 ≤ a.toNat) ∧ (a.toNat < 0x20002000) ∧ True) :=
  ⟨⟨(lState[0]'(by decide)), ⟨true, ⟨0x11#5, ⟨0x00#5, ⟨0x0000#14, ⟨by decide +kernel, ⟨[], ⟨0, by decide +kernel⟩⟩⟩⟩⟩⟩⟩⟩,
  ⟨(lState[0]'(by decide)), ⟨false, ⟨0x11#5, ⟨0x00#5, ⟨0x0000#14, ⟨by decide +kernel, ⟨[], ⟨0, by decide +kernel⟩⟩⟩⟩⟩⟩⟩⟩,
  ⟨(lState[0]'(by decide)), ⟨true, ⟨0x11#5, ⟨0x11#5, ⟨0x0000#14, by decide +kernel⟩⟩⟩⟩⟩⟩
end LoadResults

namespace MulDivResults

theorem witness_MulDivResults :
  (∃ (s : State), ∃ (rd ra rb : BitVec 5), (Runs s 4) ∧ let b := (coreIn s.dev).get rb
(b = 0) ∧ True) ∧
  (∃ (s : State), ∃ (rd ra rb : BitVec 5), (Runs s 4) ∧ let a := (coreIn s.dev).get ra
let b := (coreIn s.dev).get rb
(b ≠ 0) ∧ (¬ (a = 0x80000000 ∧ b = 0xFFFFFFFF)) ∧ True) :=
  ⟨⟨(lState[0]'(by decide)), ⟨0x11#5, ⟨0x11#5, ⟨0x00#5, by decide +kernel⟩⟩⟩⟩,
  ⟨(lState[0]'(by decide)), ⟨0x11#5, ⟨0x11#5, ⟨0x11#5, by decide +kernel⟩⟩⟩⟩⟩
end MulDivResults

namespace ShiftResults

theorem witness_ShiftResults :
  (∃ (s : State), ∃ (c : Bool), ∃ (rd ra rb : BitVec 5), ∃ (imm : BitVec 14), (Runs s (instrLen c)) ∧ let i := imm.signExtend 32
(i.toNat < 32) ∧ (c = false) ∧ True) ∧
  (∃ (s : State), ∃ (c : Bool), ∃ (rd ra rb : BitVec 5), ∃ (imm : BitVec 14), (Runs s (instrLen c)) ∧ let b := (coreIn s.dev).get rb
(c = false) ∧ (b.toNat < 32) ∧ True) :=
  ⟨⟨(lState[0]'(by decide)), ⟨false, ⟨0x11#5, ⟨0x11#5, ⟨0x11#5, ⟨0x0000#14, by decide +kernel⟩⟩⟩⟩⟩⟩,
  ⟨(lState[0]'(by decide)), ⟨false, ⟨0x11#5, ⟨0x11#5, ⟨0x00#5, ⟨0x0000#14, by decide +kernel⟩⟩⟩⟩⟩⟩⟩
end ShiftResults

namespace SystemInstructions

theorem witness_SystemInstructions :
  (∃ (s : State), ∃ (r : BitVec 5), (Runs s 4) ∧ let k := coreIn s.dev
∃ n : Fin 11, (k.sup = true ∨ n.val = 0 ∨ n.val = 1 ∨ n.val = 7) ∧ True) ∧
  (∃ (s : State), ∃ (r : BitVec 5), (Runs s 4) ∧ let k := coreIn s.dev
∃ n : Fin 11, (k.sup = true) ∧ True) :=
  ⟨⟨(lState[0]'(by decide)), ⟨0x11#5, ⟨by decide +kernel, ⟨0, by decide +kernel⟩⟩⟩⟩,
  ⟨(lState[0]'(by decide)), ⟨0x11#5, ⟨by decide +kernel, ⟨0, by decide +kernel⟩⟩⟩⟩⟩
end SystemInstructions

namespace WindowStack
def ws (wsp wlim wtop : Word) (s : State) : State := cc (fun k => { k with wsp := wsp, wlim := wlim, wtop := wtop, depth := 15 }) s
def lState : List State := [ws 0x10001000 0x10000FC0 0x10002000 cb, ws 0x10001000 0x10000000 0x10002000 cb, ws 0x10040000 0x10000000 0x10040000 cb, ws 0x10000040 0x10000000 0x10040000 cb]
theorem witness_WindowStack :
  (∃ (s : State), (RunsSup s) ∧ let k := coreIn s.dev
(k.wlim.toNat + 64 ≤ k.wsp.toNat) ∧ (frameIn (k.wsp - 64) = true) ∧ (k.wsp.toNat % 64 = 0) ∧ True) ∧
  (∃ (s : State), (RunsSup s) ∧ let k := coreIn s.dev
(k.wsp ≠ k.wtop) ∧ (frameIn k.wsp = true) ∧ (k.wsp.toNat % 64 = 0) ∧ True) :=
  ⟨⟨(lState[0]'(by decide)), by decide +kernel⟩,
  ⟨(lState[0]'(by decide)), by decide +kernel⟩⟩
end WindowStack

namespace WindowTraps

theorem witness_WindowTraps :
  (∃ (s : State), ∃ (off : BitVec 24), ∃ (c : Bool), let k := coreIn s.dev
(k.nest = false) ∧ (Runs s 4) ∧ (15 ≤ k.depth) ∧ True) ∧
  (∃ (s : State), ∃ (off : BitVec 24), ∃ (c : Bool), let k := coreIn s.dev
(k.nest = false) ∧ (Runs s (instrLen c)) ∧ (k.depth ≤ 1) ∧ True) :=
  ⟨⟨(lState[3]'(by decide)), ⟨0x000005#24, ⟨true, by decide +kernel⟩⟩⟩,
  ⟨(lState[0]'(by decide)), ⟨0x000005#24, ⟨true, by decide +kernel⟩⟩⟩⟩
end WindowTraps

namespace TrapEntry

theorem witness_TrapEntry :
  (∃ (s : State), ∃ (imm : BitVec 14), ∃ (t : Nat), ∃ (cause : Fin 16), let k := coreIn s.dev
(Runs s 4) ∧ (k.nest = false) ∧ ((k.sup = true ∨ serviceAllowed s.dev imm.toNat = true)) ∧ True) ∧
  (∃ (s : State), ∃ (imm : BitVec 14), ∃ (t : Nat), ∃ (cause : Fin 16), let k := coreIn s.dev
(coreRuns s.dev = true) ∧ (k.inton = true) ∧ True) ∧
  (∃ (s : State), ∃ (imm : BitVec 14), ∃ (t : Nat), ∃ (cause : Fin 16), let k := coreIn s.dev
(coreRuns s.dev = false ∨ k.inton = false) ∧ True) :=
  ⟨⟨(lState[0]'(by decide)), ⟨0x0000#14, ⟨1, ⟨0, by decide +kernel⟩⟩⟩⟩,
  ⟨(lState[1]'(by decide)), ⟨0x0000#14, ⟨1, ⟨0, by decide +kernel⟩⟩⟩⟩,
  ⟨(lState[0]'(by decide)), ⟨0x0000#14, ⟨1, ⟨0, by decide +kernel⟩⟩⟩⟩⟩
end TrapEntry

namespace WaitResults
def dp (n : Nat) (m : Nat) (s : State) : State := mapDev (fun d => setDom n { dom d n with pos := .on, pend := some m } d) s
def lState : List State := cbs ++ [dp 9 1 cb, dp 9 2 (dp 6 1 cb), dp 5 2 cb, dp 3 1 cb, dp 9 2 (cc (fun k => { k with sup := false, pc := 0x30000 }) cb)]
theorem witness_WaitResults :
  (∃ (s : State), ∃ (t : Nat), (Runs s 4) ∧ let k := coreIn s.dev
(k.sup = false) ∧ True) ∧
  (∃ (s : State), ∃ (t : Nat), (Runs s 4) ∧ let k := coreIn s.dev
(k.sup = true) ∧ ((∀ n, n < 14 → (dom s.dev n).pend = none ∧ ∀ o u, (dom s.dev n).pos ≠ .entering o 0 u)) ∧ True) ∧
  (∃ (s : State), ∃ (t : Nat), (Runs s 4) ∧ let k := coreIn s.dev
∃ n, ∃ m, (k.sup = true) ∧ (1 ≤ n) ∧ (n ≤ 12) ∧ (n ≠ coreDom s.dev) ∧ (n ≠ 6) ∧ ((dom s.dev n).pos = .on) ∧ ((dom s.dev n).pend = some m) ∧ ((m = 1 ∨ m = 2)) ∧ (domNeeded s.dev n = false) ∧ True) :=
  ⟨⟨(lState[3]'(by decide)), ⟨0, by decide +kernel⟩⟩,
  ⟨(lState[0]'(by decide)), 0, by decide +kernel, by decide +kernel, fun n h => ⟨(show ∀ n, n < 14 → (dom (lState[0]'(by decide)).dev n).pend = none by decide +kernel) n h, no_entering _ (by decide +kernel) n h⟩, trivial⟩,
  ⟨(lState[6]'(by decide)), ⟨0, ⟨by decide +kernel, ⟨9, ⟨1, by decide +kernel⟩⟩⟩⟩⟩⟩
end WaitResults

theorem witness_RegisterAluResults : (∃ (s : State), Runs s (instrLen true)) ∧ (∃ (s : State), Runs s (instrLen false)) :=
  ⟨⟨cb, by decide +kernel⟩, ⟨cb, by decide +kernel⟩⟩
theorem witness_WindowRegisters : ∃ (k : Core), k.nest = false := ⟨coreIn cb.dev, by decide +kernel⟩

def stAt (a : Word) (s : State) : State := cc (fun k => k.put 0 a) s
theorem witness_StoreResults :
    (∃ (s : State) (i : Instr), i = .stb 1 0 0 ∧ Runs s 4 ∧ (coreIn s.dev).sup = false ∧ ((coreIn s.dev).get 0).toNat = 0x1003C000) ∧
    (∃ (s : State) (i : Instr), i = .sth 1 0 0 ∧ Runs s 4 ∧ (coreIn s.dev).sup = true ∧ ((coreIn s.dev).get 0).toNat = 0x1003FFFE) ∧
    (∃ (s : State) (i : Instr), i = .stw true 1 0 0 ∧ Runs s 2 ∧ (coreIn s.dev).sup = true ∧ ((coreIn s.dev).get 0).toNat = 0x30000) ∧
    (∃ (s : State) (i : Instr), i = .stw false 1 0 0 ∧ Runs s 4 ∧ ((coreIn s.dev).get 0).toNat = 0x20001FFC) :=
  ⟨⟨stAt 0x1003C000 (cc (fun k => { k with sup := false, pc := 0x30010 }) cb), _, rfl, by decide +kernel⟩, ⟨stAt 0x1003FFFE cb, _, rfl, by decide +kernel⟩,
   ⟨stAt 0x30000 cb, _, rfl, by decide +kernel⟩, ⟨stAt 0x20001FFC cb, _, rfl, by decide +kernel⟩⟩

def deep (n : Nat) : State := cc (fun k => { k with win := 14, depth := n }) cb
theorem witness_CallReturn :
    (∃ (s : State) (i : Instr) (dest : Word), i = .callr 3 ∧ dest = (coreIn s.dev).get 3 ∧ Runs s 4 ∧ (coreIn s.dev).nest = false ∧
      (coreIn s.dev).depth = 14) ∧
    (∃ (s : State) (i : Instr) (dest : Word), i = .call 5 ∧ dest = target (coreIn s.dev).pc 4 ((5 : BitVec 24).signExtend 32) ∧ Runs s 4 ∧
      (coreIn s.dev).nest = false ∧ (coreIn s.dev).depth = 2 ∧ Runs s (instrLen true)) :=
  ⟨⟨deep 14, _, _, rfl, rfl, by decide +kernel⟩, ⟨deep 2, _, _, rfl, rfl, by decide +kernel⟩⟩

def micro (op : Nat) : BitVec 48 := BitVec.ofNat 48 (2 ^ 47 + op * 2 ^ 42 + 1 * 2 ^ 38 + 2 * 2 ^ 34 + 3 * 2 ^ 30)
def custom (op : Nat) (entry : Word) : State := cc (fun k => { k with dec := [(0, entry), (15, entry)], cs := [(7, micro op)] }) cb
abbrev customRuns (s : State) (sel : Fin 16) (op : Nat) : Prop :=
  Runs s 4 ∧ bit (decWord (coreIn s.dev) sel) 31 = true ∧ (bit (decWord (coreIn s.dev) sel) 30 = true → (coreIn s.dev).sup = true) ∧
  csWord (coreIn s.dev) (fld (decWord (coreIn s.dev) sel) 15 8 % 256) = micro op ∧ bit (micro op) 47 = true ∧ fld (micro op) 41 38 = 1 ∧
  fld (micro op) 37 34 = 2 ∧ fld (micro op) 33 30 = 3 ∧ fld (micro op) 46 42 = op
theorem witness_CustomerInstruction :
    (∀ op ∈ [0x01, 0x05, 0x06, 0x0E], customRuns (custom op 0xC0000700) 15 op) ∧
    (∃ (s : State) (sel : Fin 16), Runs s 4 ∧ bit (decWord (coreIn s.dev) sel) 31 = false ∧ (coreIn s.dev).nest = false ∧
      (coreIn s.dev).sup = true) :=
  ⟨by decide +kernel, ⟨custom 1 0x00000700, 0, by decide +kernel⟩⟩

end Sys2Proof.Tests.P50

namespace Sys2Proof.Tests.P52

def rg (a : Nat) (v : Word) (s : State) : State := mapDev (fun d => setReg a v { d with set0 := { d.set0 with regs := CMap.set (fun _ => 0) d.set0.regs a v }, set1 := { d.set1 with regs := CMap.set (fun _ => 0) d.set1.regs a v } }) s
def pw (n : Nat) (s : State) : State := mapDev (fun d => setDom n { dom d n with pos := .on, pend := none } d) s
def sP : State := (List.range 13).foldl (fun s n => pw n s) s1
def sU : State := { sP with tagm := { sP.tagm with hostW := none } }
def op0 : Op := ⟨7, 0x300, 2, 0, false, false, true, .running, .none, false, false, 0, 0, 0, 0, 1, [0,0,0,0], 0, none, false, [], none, none, false⟩
def both (a : Nat) (v : Word) (s : State) : State := mapDev (setReg a v ∘ setReg (a + 0x8000) v) s
def cc (f : Core → Core) (s : State) : State := mapDev (fun d => setCore (f (coreIn d)) d) s
def fill (k : Core) : Core := { k with g := [0, 1, 0xFFFFFFFF, 0x80000000, 5, 0x10000040, 7, 0x1003F000], w := (List.range 256).map (fun i => nth 0 [0x10000100, 0x80000000, 0xFFFFFFFF, 3, 0, 33, 0x7FFFFFFF, 0x30000, 0x1000, 0x20000010] (i % 10) + 0x10000 * nw (i / 10)), h := [1,2,3,4,5,0x10000200,0x20000040,8], pc := 0x100, st := .run }
def cb : State := cc fill (mapDev (fun d => { d with cpu := { d.cpu with dsram := [(0, 0x11223344), (16, 0x80C0FF7E), (0x1001, 0x55667788)] } }) sU)
def cbs : List State := [cb, cc (fun k => { k with inton := true }) cb, cc (fun k => { k with nest := true }) cb, cc (fun k => { k with sup := false, pc := 0x30010, win := 15, depth := 15 }) cb, cc (fun k => { k with win := 14, depth := 1 }) cb, cc (fun k => { k with win := 3, depth := 9 }) cb]
def lCore : List Core := cbs.map fun s => coreIn s.dev
def mem : CMap Word := [(0xF040, 0x30000060), (0xF041, 0x11112222), (0xF042, 0x33334444), (0xF043, 0x55556666), (0xF044, 0x05038877), (0xF050, 5), (0xF051, 0x41424344), (0xF052, 0x45000000)]
def ab (a b : Word) (s : State) : State := cc (fun k => { k with g := [a, 1, 2, b, 5, 6, 7, 8] }) (mapDev (fun d => { d with cpu := { d.cpu with dsram := mem } }) s)
def adrs : List (Word × Word) := [(0xF, 0), (5, 1), (0xF, 2), (0x1003C100, 0x1003C100), (0x1003C140, 0x1003C160), (0x1003C100, 8), (0x12, 5), (0x15, 4096), (0x1003C140, 5), (2, 3), (4, 4)]
def s0s : List State := [cb, cc (fun k => { k with sup := false, pc := 0x30010 }) cb]
def abs_ : List State := s0s.flatMap fun s => adrs.map fun p => ab p.1 p.2 s

namespace CheckCodePort
def lState : List State := abs_
theorem witness_CheckCodePort :
  (∃ (s : State), ∃ (rd ra rb : BitVec 5), (Runs s 4) ∧ let k := coreIn s.dev
let a := k.get ra
(fld a 1 0 = 2) ∧ True) ∧
  (∃ (s : State), ∃ (rd ra rb : BitVec 5), (Runs s 4) ∧ let k := coreIn s.dev
let a := k.get ra
(fld a 1 0 = 1) ∧ (fld a 3 2 ≤ 2) ∧ True) ∧
  (∃ (s : State), ∃ (rd ra rb : BitVec 5), (Runs s 4) ∧ let k := coreIn s.dev
let a := k.get ra
let b := k.get rb
∃ u, ∃ (bs : List Byte), (1 ≤ b.toNat) ∧ (b.toNat ≤ 4096) ∧ (readBytes k.sup a.toNat b.toNat s = some (u, bs)) ∧ (coreIn u.dev = k) ∧ True) :=
  ⟨⟨(lState[2]'(by decide)), ⟨0x00#5, ⟨0x03#5, ⟨0x00#5, by decide +kernel⟩⟩⟩⟩,
  ⟨(lState[1]'(by decide)), ⟨0x00#5, ⟨0x00#5, ⟨0x00#5, by decide +kernel⟩⟩⟩⟩,
  ⟨(lState[8]'(by decide)), ⟨0x00#5, ⟨0x00#5, ⟨0x03#5, ⟨by decide +kernel, ⟨(lState[8]'(by decide)), ⟨[0x00#8, 0x00#8, 0x00#8, 0x05#8, 0x41#8], by decide +kernel⟩⟩⟩⟩⟩⟩⟩⟩
end CheckCodePort

namespace CombPort
def withTag (s : State) : State := match readDesc true 0x1003C100 s with | some (u, r) => mapDev (fun d => (cpPlace r d).1) u | none => s
def lState : List State := abs_ ++ abs_.map withTag ++ abs_.map (fun s => mapDev (fun d => { d with comb := { d.comb with pos := 21, retired := [2] } }) s)
def lReadDesc : List ReadDesc := (readDesc true 0x1003C100 (ab 0 0 cb)).toList.map (·.2)
theorem witness_CombPort :
  (∃ (s : State), ∃ (rd ra rb : BitVec 5), (Runs s 4) ∧ let k := coreIn s.dev
let a := k.get ra
∃ u, ∃ (epc : List Bool), (readEpc k.sup a.toNat s = some (u, epc)) ∧ (coreIn u.dev = k) ∧ True) ∧
  (∃ (s : State), ∃ (rd ra rb : BitVec 5), (Runs s 4) ∧ let k := coreIn s.dev
let a := k.get ra
let b := k.get rb
(b.toNat < 131072) ∧ (a.toNat % 4 = 0) ∧ (0x1003C000 ≤ a.toNat) ∧ (a.toNat + 32 ≤ 0x10040000) ∧ True) ∧
  (∃ (s : State), ∃ (rd ra rb : BitVec 5), (Runs s 4) ∧ let k := coreIn s.dev
let a := k.get ra
(k.sup = true) ∧ (a.toNat < 131072) ∧ True) ∧
  (∃ (s : State), ∃ (rd ra rb : BitVec 5), (Runs s 4) ∧ let k := coreIn s.dev
let a := k.get ra
(k.sup = true) ∧ ∃ u, ∃ r, ∃ c, (readDesc true a.toNat s = some (u, r)) ∧ (coreIn u.dev = k) ∧ (fenced u.dev 0x05 = false) ∧ (domOn u.dev 5 = true) ∧ (combFind u.dev r.epc = some c) ∧ True) ∧
  (∃ (s : State), ∃ (rd ra rb : BitVec 5), (Runs s 4) ∧ let k := coreIn s.dev
(k.sup = true) ∧ (s.dev.comb.sweep = none) ∧ (s.dev.comb.retired.contains (s.dev.comb.pos / 8) = true) ∧ True) :=
  ⟨⟨(lState[3]'(by decide)), ⟨0x00#5, ⟨0x00#5, ⟨0x00#5, ⟨by decide +kernel, ⟨(lState[3]'(by decide)), ⟨[false, false, false, true, false, false, false, true, false, false, false, true, false, false, false, true, false, false, true, false, false, false, true, false, false, false, true, false, false, false, true, false, false, false, true, true, false, false, true, true, false, false, true, true, false, false, true, true, false, true, false, false, false, true, false, false, false, true, false, false, false, true, false, false, false, true, false, true, false, true, false, true, false, true, false, true, false, true, false, true, false, true, true, false, false, true, true, false, false, true, true, false, false, true, true, false], by decide +kernel⟩⟩⟩⟩⟩⟩⟩,
  ⟨(lState[5]'(by decide)), ⟨0x00#5, ⟨0x00#5, ⟨0x03#5, by decide +kernel⟩⟩⟩⟩,
  ⟨(lState[0]'(by decide)), ⟨0x00#5, ⟨0x00#5, ⟨0x00#5, by decide +kernel⟩⟩⟩⟩,
  ⟨(lState[25]'(by decide)), ⟨0x00#5, ⟨0x00#5, ⟨0x00#5, ⟨by decide +kernel, ⟨by decide +kernel, ⟨(lState[25]'(by decide)), ⟨(lReadDesc[0]'(by decide)), ⟨108336, by decide +kernel⟩⟩⟩⟩⟩⟩⟩⟩⟩,
  ⟨(lState[44]'(by decide)), ⟨0x00#5, ⟨0x00#5, ⟨0x00#5, by decide +kernel⟩⟩⟩⟩⟩
end CombPort

namespace HasherPort
def ky (s : State) : State := mapDev (fun d => { d with dmk := { d.dmk with key := some 5 } }) s
def lState : List State := abs_ ++ abs_.map ky
theorem witness_HasherPort :
  (∃ (s : State), ∃ (rd ra rb : BitVec 5), (Runs s 4) ∧ let k := coreIn s.dev
∃ key, (k.sup = true) ∧ (s.dev.dmk.key = some key) ∧ True) ∧
  (∃ (s : State), ∃ (rd ra rb : BitVec 5), (Runs s 4) ∧ let k := coreIn s.dev
let a := k.get ra
let b := k.get rb
∃ u, ∃ (epc : List Bool), (readEpc k.sup a.toNat s = some (u, epc)) ∧ (u.dev = s.dev) ∧ (s.dev.dmk.key.isSome = true) ∧ (b.toNat % 4 = 0) ∧ (0x1003C000 ≤ b.toNat) ∧ (b.toNat + 8 ≤ 0x10040000) ∧ True) ∧
  (∃ (s : State), ∃ (rd ra rb : BitVec 5), (Runs s 4) ∧ let k := coreIn s.dev
let a := k.get ra
let b := k.get rb
∃ n, ∃ u₁, ∃ u₂, ∃ u₃, ∃ msg, ∃ key, (readWords k.sup a.toNat 1 s = some (u₁, [n])) ∧ (n.toNat ≤ 0x40000) ∧ (readBytes k.sup b.toNat 16 s = some (u₂, key)) ∧ (readBytes k.sup (a.toNat + 4) n.toNat s = some (u₃, msg)) ∧ (u₃.dev = s.dev) ∧ (b.toNat % 4 = 0) ∧ (0x1003C000 ≤ b.toNat) ∧ (b.toNat + 24 ≤ 0x10040000) ∧ True) :=
  ⟨⟨(lState[22]'(by decide)), ⟨0x00#5, ⟨0x00#5, ⟨0x00#5, ⟨by decide +kernel, ⟨0x00000000000000000000000000000005#128, by decide +kernel⟩⟩⟩⟩⟩⟩,
  ⟨(lState[25]'(by decide)), ⟨0x00#5, ⟨0x00#5, ⟨0x00#5, ⟨by decide +kernel, ⟨(lState[25]'(by decide)), ⟨[false, false, false, true, false, false, false, true, false, false, false, true, false, false, false, true, false, false, true, false, false, false, true, false, false, false, true, false, false, false, true, false, false, false, true, true, false, false, true, true, false, false, true, true, false, false, true, true, false, true, false, false, false, true, false, false, false, true, false, false, false, true, false, false, false, true, false, true, false, true, false, true, false, true, false, true, false, true, false, true, false, true, true, false, false, true, true, false, false, true, true, false, false, true, true, false], by decide +kernel⟩⟩⟩⟩⟩⟩⟩,
  ⟨(lState[4]'(by decide)), 0, 0, 3, by decide +kernel, 5, (lState[4]'(by decide)), (lState[4]'(by decide)), (lState[4]'(by decide)), [0x41, 0x42, 0x43, 0x44, 0x45], List.replicate 16 0, by decide +kernel⟩⟩
end HasherPort

namespace SequencerPort
def more (s : State) : State := mapDev (fun d => { updThr 2 (fun t => { t with st := .suspended }) (updThr 0 (fun t => { t with st := .held }) d) with seq := { (updThr 2 (fun t => { t with st := .suspended }) (updThr 0 (fun t => { t with st := .held }) d)).seq with sw := 0xA5 } }) s
def lState : List State := abs_ ++ abs_.map more
theorem witness_SequencerPort :
  (∃ (s : State), ∃ (rd ra rb : BitVec 5), (RunsSup s) ∧ (domOn s.dev 7 = true) ∧ let k := coreIn s.dev
let b := k.get rb
(b ≠ 0xFFFFFFFF) ∧ True) ∧
  (∃ (s : State), ∃ (rd ra rb : BitVec 5), (RunsSup s) ∧ (domOn s.dev 7 = true) ∧ let k := coreIn s.dev
let b := k.get rb
(b.toNat ≤ 2) ∧ True) :=
  ⟨⟨(lState[0]'(by decide)), ⟨0x00#5, ⟨0x00#5, ⟨0x00#5, by decide +kernel⟩⟩⟩⟩,
  ⟨(lState[0]'(by decide)), ⟨0x00#5, ⟨0x00#5, ⟨0x03#5, by decide +kernel⟩⟩⟩⟩⟩
end SequencerPort

namespace SequencerReads
def lg (s : State) : State := mapDev (fun d => { d with seq := { d.seq with log := [[1,2,3,4],[5,6,7,8]], bells := [(1, 9), (2, 4)] } }) s
def lState : List State := abs_ ++ [lg (ab 0x1003C100 0 cb), lg (ab 0x1003C100 0 (cc (fun k => { k with sup := false, pc := 0x30010 }) cb))]
theorem witness_SequencerReads :
  (∃ (s : State), ∃ (rd ra rb : BitVec 5), (Runs s 4) ∧ (domOn s.dev 7 = true) ∧ ∃ i, (i < 32) ∧ True) ∧
  (∃ (s : State), ∃ (rd ra rb : BitVec 5), (Runs s 4) ∧ (domOn s.dev 7 = true) ∧ let k := coreIn s.dev
let a := k.get ra
(k.sup = true) ∧ (s.dev.seq.log = []) ∧ (canWrite true a.toNat 4 = true) ∧ True) ∧
  (∃ (s : State), ∃ (rd ra rb : BitVec 5), (Runs s 4) ∧ (domOn s.dev 7 = true) ∧ let k := coreIn s.dev
let a := k.get ra
(k.sup = true) ∧ ∃ w0, ∃ w1, ∃ w2, ∃ w3, ∃ rest, (s.dev.seq.log = [w0, w1, w2, w3] :: rest) ∧ (0x10000000 ≤ a.toNat) ∧ (a.toNat + 16 ≤ 0x10040000) ∧ (a.toNat % 4 = 0) ∧ True) ∧
  (∃ (s : State), ∃ (rd ra rb : BitVec 5), (Runs s 4) ∧ (domOn s.dev 7 = true) ∧ let k := coreIn s.dev
(k.sup = true) ∧ (s.dev.seq.bells = []) ∧ True) ∧
  (∃ (s : State), ∃ (rd ra rb : BitVec 5), (Runs s 4) ∧ (domOn s.dev 7 = true) ∧ let k := coreIn s.dev
(k.sup = true) ∧ ∃ n, ∃ code, ∃ rest, (s.dev.seq.bells = (n, code) :: rest) ∧ True) :=
  ⟨⟨(lState[0]'(by decide)), ⟨0x00#5, ⟨0x00#5, ⟨0x00#5, ⟨by decide +kernel, ⟨by decide +kernel, ⟨0, by decide +kernel⟩⟩⟩⟩⟩⟩⟩,
  ⟨(lState[3]'(by decide)), ⟨0x00#5, ⟨0x00#5, ⟨0x00#5, by decide +kernel⟩⟩⟩⟩,
  ⟨(lState[22]'(by decide)), ⟨0x00#5, ⟨0x00#5, ⟨0x00#5, ⟨by decide +kernel, ⟨by decide +kernel, ⟨by decide +kernel, ⟨0x00000001#32, ⟨0x00000002#32, ⟨0x00000003#32, ⟨0x00000004#32, ⟨[[0x00000005#32, 0x00000006#32, 0x00000007#32, 0x00000008#32]], by decide +kernel⟩⟩⟩⟩⟩⟩⟩⟩⟩⟩⟩⟩,
  ⟨(lState[0]'(by decide)), ⟨0x00#5, ⟨0x00#5, ⟨0x00#5, by decide +kernel⟩⟩⟩⟩,
  ⟨(lState[22]'(by decide)), ⟨0x00#5, ⟨0x00#5, ⟨0x00#5, ⟨by decide +kernel, ⟨by decide +kernel, ⟨by decide +kernel, ⟨1, ⟨9, ⟨[(2, 4)], by decide +kernel⟩⟩⟩⟩⟩⟩⟩⟩⟩⟩⟩
end SequencerReads

namespace ThreadHaltPort
def lState : List State := [ab 2 0 cb, ab 4 0 cb, mapDev (updThr 1 (fun t => { t with st := .waiting })) (ab 2 0 cb), mapDev (updThr 2 (fun t => { t with st := .held })) (ab 4 0 cb)]
theorem witness_ThreadHaltPort :
  ∃ (s : State), ∃ (rd ra rb : BitVec 5), ∃ (n : Nat), (RunsSup s) ∧ (domOn s.dev 7 = true) ∧ let k := coreIn s.dev
((n = 1 ∨ n = 2)) ∧ (k.get ra = BitVec.ofNat 32 (2 ^ n)) ∧ (s.dev.chA.win = none) ∧ (s.dev.chB.win = none) ∧ (s.dev.ops = []) ∧ True :=
  ⟨(lState[0]'(by decide)), ⟨0x00#5, ⟨0x00#5, ⟨0x00#5, ⟨1, by decide +kernel⟩⟩⟩⟩⟩
end ThreadHaltPort

end Sys2Proof.Tests.P52

namespace Sys2Proof.Tests.P53

def rg (a : Nat) (v : Word) (s : State) : State := mapDev (fun d => setReg a v { d with set0 := { d.set0 with regs := CMap.set (fun _ => 0) d.set0.regs a v }, set1 := { d.set1 with regs := CMap.set (fun _ => 0) d.set1.regs a v } }) s
def pw (n : Nat) (s : State) : State := mapDev (fun d => setDom n { dom d n with pos := .on, pend := none } d) s
def sP : State := (List.range 13).foldl (fun s n => pw n s) s1
def sU : State := { sP with tagm := { sP.tagm with hostW := none } }
def op0 : Op := ⟨7, 0x300, 2, 0, false, false, true, .running, .none, false, false, 0, 0, 0, 0, 1, [0,0,0,0], 0, none, false, [], none, none, false⟩
def both (a : Nat) (v : Word) (s : State) : State := mapDev (setReg a v ∘ setReg (a + 0x8000) v) s
def cc (f : Core → Core) (s : State) : State := mapDev (fun d => setCore (f (coreIn d)) d) s
def fill (k : Core) : Core := { k with g := [0, 1, 0xFFFFFFFF, 0x80000000, 5, 0x10000040, 7, 0x1003F000], w := (List.range 256).map (fun i => nth 0 [0x10000100, 0x80000000, 0xFFFFFFFF, 3, 0, 33, 0x7FFFFFFF, 0x30000, 0x1000, 0x20000010] (i % 10) + 0x10000 * nw (i / 10)), h := [1,2,3,4,5,0x10000200,0x20000040,8], pc := 0x100, st := .run }
def cb : State := cc fill (mapDev (fun d => { d with cpu := { d.cpu with dsram := [(0, 0x11223344), (16, 0x80C0FF7E), (0x1001, 0x55667788)] } }) sU)
def cbs : List State := [cb, cc (fun k => { k with inton := true }) cb, cc (fun k => { k with nest := true }) cb, cc (fun k => { k with sup := false, pc := 0x30010, win := 15, depth := 15 }) cb, cc (fun k => { k with win := 14, depth := 1 }) cb, cc (fun k => { k with win := 3, depth := 9 }) cb]
def lState : List State := cbs
def lCore : List Core := cbs.map fun s => coreIn s.dev

def ap (f : Applet → Applet) (s : State) : State := mapDev (fun d => { d with cpu := { d.cpu with apl := f { d.cpu.apl with ok := true, run := true, entry := 0x30000, fentry := 0x30100 } } }) s
def mem : CMap Word := [(0xF040, 0x30000060), (0xF041, 0x11112222), (0xF042, 0x33334444), (0xF043, 0x55556666), (0xF044, 33), (0xF045, 6), (0xF046, 0), (0xF050, 5), (0xF051, 0x41424344), (0xF052, 0x45000000)]
def srv (n : Nat) (a0 a1 a2 a3 : Word) (f : Applet → Applet) (s : State := cb) : State :=
  cc (fun k => let k := { k with sup := false, nest := false, tra := 0x30040, tstate := 0, tcause := 11, tval := nw n, win := 3 }; let k := k.put 24 a0 |>.put 25 a1 |>.put 26 a2 |>.put 27 a3; { k with sup := true, nest := true, pc := 0x400 }) (ap f (mapDev (fun d => { d with cpu := { d.cpu with dsram := mem } }) s))
def opA : Op := { op0 with tag := 7, opcode := 0x904, long := false, rring := 4, block := [0x11,0x22,0x33] }
def withOps (s : State) : State := mapDev (fun d => { d with ops := [opA] }) s
def rdyOf (base : State) : State := mapDev (fun d => { d with tb := { d.tb with st := .locked, period := 819200000 }, chA := { d.chA with stock := true, st := .idle }, set0 := { d.set0 with chan := [(0, 0x80000000), (1, 0x80000005)], plan := (List.range 240).map (fun i => (i, 0xFFFFFFFF)), regs := [(Reg.TIME_PLAN_CFG, 0x1F00), (Reg.UHF_AER_0, 0x80000000)] } }) base
def lOp : List Op := [opA]

namespace AppletServices
def lState : List State := [cb, srv 0 0 0 0 0 id, srv 1 0 0 0 0 id, srv 1 7 5 0 0 id, srv 1 4 5 0 0 (fun a => { a with bells := [3, 9] }), srv 1 2 5 0 0 (fun a => { a with waiting := some (2, some 5) }), withOps (srv 2 0x1003C100 2 0 0 (fun a => { a with cmds := [7] })), withOps (srv 2 0x1003C100 20 0 0 (fun a => { a with cmds := [7, 9] })), withOps (srv 3 7 0 0x1003C100 3 (fun a => { a with taken := [7] })), withOps (srv 3 7 0x55 0x1003C100 0 (fun a => { a with cmds := [7] })), srv 4 4 0x980 0x1003C100 3 id, srv 4 31 0x9FF 0x1003C100 254 id, mapDev (fun d => setRing 4 { ring d 4 with en := false } d) (srv 4 4 0x980 0x1003C100 3 id), withOps (srv 5 0x1003C100 9 0 0 (fun a => { a with taken := [7] })), rdyOf (withOps (srv 5 0x1003C100 9 0 0 (fun a => { a with taken := [7] }))), mapDev (fun d => { d with ops := d.ops ++ [{ op0 with tag := 9, opcode := 0x300 }] }) (rdyOf (withOps (srv 5 0x1003C100 9 0 0 (fun a => { a with taken := [7] })))), mapDev (fun d => { d with ops := d.ops ++ [{ op0 with tag := 9, opcode := 0x400 }] }) (rdyOf (withOps (srv 5 0x1003C100 9 0 0 (fun a => { a with taken := [7] })))), srv 6 0 0 0 0 id]
def lXchgBlock : List XchgBlock := (readXchg 0x1003C100 (srv 3 7 0 0x1003C100 3 id)).toList
theorem witness_AppletServices :
  (∃ (s : State), ∃ (t : Nat), (Serving s 0) ∧ True) ∧
  (∃ (s : State), ∃ (t : Nat), let a := s.dev.cpu.apl
let arg := fun (n : Nat) => (coreIn s.dev).get (BitVec.ofNat 5 (24 + n))
(Serving s 1) ∧ ((bit (arg 0) 0 = true → a.cmds = [])) ∧ ((bit (arg 0) 2 = true → a.bells = [])) ∧ ((bit (arg 0) 1 = true → 0 < (arg 1).toNat)) ∧ True) ∧
  (∃ (s : State), ∃ (t : Nat), let a := s.dev.cpu.apl
let arg := fun (n : Nat) => (coreIn s.dev).get (BitVec.ofNat 5 (24 + n))
∃ b, ∃ rest, (Serving s 1) ∧ (a.bells = b :: rest) ∧ (arg 0 = 4) ∧ True) ∧
  (∃ (s : State), ∃ (t : Nat), let d := tick t s.dev
let a := s.dev.cpu.apl
∃ e, (Serving s 1) ∧ (a.waiting = some (2, some e)) ∧ (e ≤ d.now) ∧ True) ∧
  (∃ (s : State), ∃ (t : Nat), let d := tick t s.dev
let a := s.dev.cpu.apl
∃ e, (a.waiting = some (2, some e)) ∧ (d.now < e) ∧ True) ∧
  (∃ (s : State), ∃ (t : Nat), let a := s.dev.cpu.apl
let arg := fun (n : Nat) => (coreIn s.dev).get (BitVec.ofNat 5 (24 + n))
∃ tag, ∃ rest, ∃ o, (Serving s 2) ∧ (a.cmds = tag :: rest) ∧ (findOp s.dev tag = some o) ∧ (0x1003C000 ≤ (arg 0).toNat) ∧ ((arg 0).toNat % 4 = 0) ∧ ((arg 0).toNat + 4 * min (arg 1).toNat o.block.length ≤ 0x10040000) ∧ True) ∧
  (∃ (s : State), ∃ (t : Nat), let d := tick t s.dev
let a := s.dev.cpu.apl
let arg := fun (n : Nat) => (coreIn s.dev).get (BitVec.ofNat 5 (24 + n))
∃ o, ∃ (v : State), ∃ (ws : List Word), (Serving s 3) ∧ ((a.cmds ++ a.taken).contains (arg 0).toNat = true) ∧ ((arg 3).toNat ≤ 250) ∧ (readWords false (arg 2).toNat (arg 3).toNat { s with dev := d } = some (v, ws)) ∧ (findOp s.dev (arg 0).toNat = some o) ∧ (o.opcode = 0x904) ∧ (o.ended = false) ∧ (4 ≤ o.rring) ∧ (RoomFor s.dev o.rring (4 + ws.length)) ∧ (hasHeld s.dev o.tag = false) ∧ (s.dev.acc.op ≠ some o.tag) ∧ (s.dev.cal.cmd = none) ∧ (s.dev.svc.test = none) ∧ True) ∧
  (∃ (s : State), ∃ (t : Nat), let d := tick t s.dev
let arg := fun (n : Nat) => (coreIn s.dev).get (BitVec.ofNat 5 (24 + n))
∃ (v : State), ∃ (ws : List Word), (Serving s 4) ∧ (4 ≤ (arg 0).toNat) ∧ ((arg 0).toNat ≤ 31) ∧ (0x980 ≤ (arg 1).toNat) ∧ ((arg 1).toNat ≤ 0x9FF) ∧ (1 ≤ (arg 3).toNat) ∧ ((arg 3).toNat ≤ 254) ∧ (readWords false (arg 2).toNat (arg 3).toNat { s with dev := d } = some (v, ws)) ∧ (RoomFor s.dev (arg 0).toNat ws.length) ∧ True) ∧
  (∃ (s : State), ∃ (t : Nat), let d := tick t s.dev
let arg := fun (n : Nat) => (coreIn s.dev).get (BitVec.ofNat 5 (24 + n))
∃ (v : State), ∃ (ws : List Word), (Serving s 4) ∧ (4 ≤ (arg 0).toNat) ∧ ((arg 0).toNat ≤ 31) ∧ (0x980 ≤ (arg 1).toNat) ∧ ((arg 1).toNat ≤ 0x9FF) ∧ (1 ≤ (arg 3).toNat) ∧ ((arg 3).toNat ≤ 254) ∧ (readWords false (arg 2).toNat (arg 3).toNat { s with dev := d } = some (v, ws)) ∧ ((ring s.dev (arg 0).toNat).en = false) ∧ True) ∧
  (∃ (s : State), ∃ (t : Nat), let d := tick t s.dev
let a := s.dev.cpu.apl
let arg := fun (n : Nat) => (coreIn s.dev).get (BitVec.ofNat 5 (24 + n))
∃ tag, ∃ (x : XchgBlock), ∃ o, (Serving s 5) ∧ (a.taken.getLast? = some tag) ∧ (readXchg (arg 0).toNat { s with dev := d } = some x) ∧ (findOp s.dev tag = some o) ∧ let o' := { o with opcode := 0x409, st := .queued, pend := .none, block := xchgBlock x, need := 3, progress := 0 }
∃ st, (ownRefusal d o' = some st) ∧ True) ∧
  (∃ (s : State), ∃ (t : Nat), let d := tick t s.dev
let a := s.dev.cpu.apl
let arg := fun (n : Nat) => (coreIn s.dev).get (BitVec.ofNat 5 (24 + n))
∃ tag, ∃ (x : XchgBlock), ∃ o, (Serving s 5) ∧ (a.taken.getLast? = some tag) ∧ (readXchg (arg 0).toNat { s with dev := d } = some x) ∧ (findOp s.dev tag = some o) ∧ let o' := { o with opcode := 0x409, st := .queued, pend := .none, block := xchgBlock x, need := 3, progress := 0 }
(ownRefusal d o' = none) ∧ (mayStart (updOp tag (fun _ => o') d) o' = false) ∧ True) ∧
  (∃ (s : State), ∃ (t : Nat), let d := tick t s.dev
let a := s.dev.cpu.apl
let arg := fun (n : Nat) => (coreIn s.dev).get (BitVec.ofNat 5 (24 + n))
∃ tag, ∃ (x : XchgBlock), ∃ o, (Serving s 5) ∧ (a.taken.getLast? = some tag) ∧ (readXchg (arg 0).toNat { s with dev := d } = some x) ∧ (findOp s.dev tag = some o) ∧ let o' := { o with opcode := 0x409, st := .queued, pend := .none, block := xchgBlock x, need := 3, progress := 0 }
(ownRefusal d o' = none) ∧ (mayStart (updOp tag (fun _ => o') d) o' = true) ∧ ((opDomains d o').all (domOn d) = true) ∧ True) ∧
  (∃ (s : State), ∃ (t : Nat), let a := s.dev.cpu.apl
(a.run = true) ∧ (inService s.dev 6 = true) ∧ True) ∧
  (∃ (s : State), ∃ (t : Nat), let a := s.dev.cpu.apl
∃ n, (a.run = false ∨ inService s.dev n = false) ∧ ∃ i, (i ∈ ([(.yield t, 0), (.waitEvent t, 1), (.cmdGet t, 2), (.cmdReply t, 3), (.appletPost t, 4),
    (.tagXchg t, 5), (.timeService t, 6)] : List (Instr × Nat))) ∧ (i.2 = n) ∧ True) :=
  ⟨⟨(lState[1]'(by decide)), ⟨0, by decide +kernel⟩⟩,
  ⟨(lState[2]'(by decide)), ⟨0, by decide +kernel⟩⟩,
  ⟨(lState[4]'(by decide)), ⟨0, ⟨3, ⟨[9], by decide +kernel⟩⟩⟩⟩,
  ⟨(lState[5]'(by decide)), ⟨5, ⟨5, by decide +kernel⟩⟩⟩,
  ⟨(lState[5]'(by decide)), ⟨0, ⟨5, by decide +kernel⟩⟩⟩,
  ⟨(lState[6]'(by decide)), ⟨0, ⟨7, ⟨[], ⟨(lOp[0]'(by decide)), by decide +kernel⟩⟩⟩⟩⟩,
  ⟨(lState[8]'(by decide)), ⟨0, ⟨(lOp[0]'(by decide)), ⟨(lState[8]'(by decide)), ⟨[0x30000060#32, 0x11112222#32, 0x33334444#32], by decide +kernel⟩⟩⟩⟩⟩,
  ⟨(lState[10]'(by decide)), ⟨0, ⟨(lState[10]'(by decide)), ⟨[0x30000060#32, 0x11112222#32, 0x33334444#32], by decide +kernel⟩⟩⟩⟩,
  ⟨(lState[12]'(by decide)), ⟨0, ⟨(lState[12]'(by decide)), ⟨[0x30000060#32, 0x11112222#32, 0x33334444#32], by decide +kernel⟩⟩⟩⟩,
  ⟨(lState[13]'(by decide)), ⟨0, ⟨7, ⟨(lXchgBlock[0]'(by decide)), ⟨(lOp[0]'(by decide)), ⟨by decide +kernel, ⟨by decide +kernel, ⟨by decide +kernel, ⟨by decide +kernel, ⟨64, by decide +kernel⟩⟩⟩⟩⟩⟩⟩⟩⟩⟩,
  ⟨(lState[16]'(by decide)), ⟨0, ⟨7, ⟨(lXchgBlock[0]'(by decide)), ⟨(lOp[0]'(by decide)), by decide +kernel⟩⟩⟩⟩⟩,
  ⟨(lState[14]'(by decide)), ⟨0, ⟨7, ⟨(lXchgBlock[0]'(by decide)), ⟨(lOp[0]'(by decide)), by decide +kernel⟩⟩⟩⟩⟩,
  ⟨(lState[17]'(by decide)), ⟨0, by decide +kernel⟩⟩,
  ⟨(lState[0]'(by decide)), 0, 0, by decide +kernel, (.yield 0, 0), by simp, rfl, trivial⟩⟩
end AppletServices

namespace FilterCalls
def it : FiltRec := ⟨4, 0x2, [1,2,3]⟩
def fc : FilterCall := ⟨it, 5, ⟨0x30010, 0x1003F000, 2, 3, 0, 5, 6, 7, 8⟩⟩
def cfgd (s : State) : State := mapDev (setReg Reg.CORE_APL_CFG 0x0501) s
def lState : List State := [cb, cfgd (ap (fun a => { a with fq := [it, it] }) cb), srv 7 1 0 0 0 (fun a => { a with filter := some fc }), srv 7 0 0 0 0 (fun a => { a with filter := some fc }), ap (fun a => { a with filter := some fc }) cb]
theorem witness_FilterCalls :
  (∃ (s : State), ∃ (t : Nat), ∃ (f : FilterCall), let a := s.dev.cpu.apl
∃ item, ∃ rest, (a.fq = item :: rest) ∧ (a.filter = none) ∧ (bit (reg s.dev Reg.CORE_APL_CFG) 0 = true) ∧ (a.fentry ≠ 0) ∧ (a.run = true) ∧ (coreRuns s.dev = true) ∧ True) ∧
  (∃ (s : State), ∃ (t : Nat), ∃ (f : FilterCall), let a := s.dev.cpu.apl
(a.fq = [] ∨ a.filter.isSome = true ∨ a.run = false) ∧ True) ∧
  (∃ (s : State), ∃ (t : Nat), ∃ (f : FilterCall), let a := s.dev.cpu.apl
(a.filter = some f) ∧ (a.run = true) ∧ (inService s.dev 7 = true) ∧ ((coreIn s.dev).get 24 = 1) ∧ True) ∧
  (∃ (s : State), ∃ (t : Nat), ∃ (f : FilterCall), let a := s.dev.cpu.apl
∃ (ws : List Word), (a.filter = some f) ∧ (a.run = true) ∧ (inService s.dev 7 = true) ∧ ((coreIn s.dev).get 24 = 0) ∧ (ws.length = f.item.body.length) ∧ (4 ≤ f.item.ring) ∧ (RoomFor s.dev f.item.ring ws.length) ∧ True) ∧
  (∃ (s : State), ∃ (t : Nat), ∃ (f : FilterCall), let a := s.dev.cpu.apl
(a.filter = none) ∧ True) ∧
  (∃ (s : State), ∃ (t : Nat), ∃ (f : FilterCall), let d := tick t s.dev
let a := s.dev.cpu.apl
(a.filter = some f) ∧ (f.deadline ≤ d.now) ∧ (4 ≤ f.item.ring) ∧ (f.item.ring < 32) ∧ (RoomFor s.dev f.item.ring f.item.body.length) ∧ True) ∧
  (∃ (s : State), ∃ (t : Nat), ∃ (f : FilterCall), let d := tick t s.dev
let a := s.dev.cpu.apl
(a.filter = some f) ∧ (d.now < f.deadline) ∧ True) :=
  ⟨⟨(lState[1]'(by decide)), ⟨0, ⟨{ item := { ring := 4, type := 2, body := [0x00000001#32, 0x00000002#32, 0x00000003#32] }, deadline := 5, back := { pc := 0x00030010#32, g7 := 0x1003f000#32, win := 2, depth := 3, state := 0x00000000#32, tra := 0x00000005#32, tstate := 0x00000006#32, tcause := 0x00000007#32, tval := 0x00000008#32 } }, ⟨{ ring := 4, type := 2, body := [0x00000001#32, 0x00000002#32, 0x00000003#32] }, ⟨[{ ring := 4, type := 2, body := [0x00000001#32, 0x00000002#32, 0x00000003#32] }], by decide +kernel⟩⟩⟩⟩⟩,
  ⟨(lState[0]'(by decide)), ⟨0, ⟨{ item := { ring := 4, type := 2, body := [0x00000001#32, 0x00000002#32, 0x00000003#32] }, deadline := 5, back := { pc := 0x00030010#32, g7 := 0x1003f000#32, win := 2, depth := 3, state := 0x00000000#32, tra := 0x00000005#32, tstate := 0x00000006#32, tcause := 0x00000007#32, tval := 0x00000008#32 } }, by decide +kernel⟩⟩⟩,
  ⟨(lState[2]'(by decide)), ⟨0, ⟨{ item := { ring := 4, type := 2, body := [0x00000001#32, 0x00000002#32, 0x00000003#32] }, deadline := 5, back := { pc := 0x00030010#32, g7 := 0x1003f000#32, win := 2, depth := 3, state := 0x00000000#32, tra := 0x00000005#32, tstate := 0x00000006#32, tcause := 0x00000007#32, tval := 0x00000008#32 } }, by decide +kernel⟩⟩⟩,
  ⟨(lState[3]'(by decide)), ⟨0, ⟨{ item := { ring := 4, type := 2, body := [0x00000001#32, 0x00000002#32, 0x00000003#32] }, deadline := 5, back := { pc := 0x00030010#32, g7 := 0x1003f000#32, win := 2, depth := 3, state := 0x00000000#32, tra := 0x00000005#32, tstate := 0x00000006#32, tcause := 0x00000007#32, tval := 0x00000008#32 } }, ⟨[0x00000004#32, 0x00000005#32, 0x00000006#32], by decide +kernel⟩⟩⟩⟩,
  ⟨(lState[0]'(by decide)), ⟨0, ⟨{ item := { ring := 4, type := 2, body := [0x00000001#32, 0x00000002#32, 0x00000003#32] }, deadline := 5, back := { pc := 0x00030010#32, g7 := 0x1003f000#32, win := 2, depth := 3, state := 0x00000000#32, tra := 0x00000005#32, tstate := 0x00000006#32, tcause := 0x00000007#32, tval := 0x00000008#32 } }, by decide +kernel⟩⟩⟩,
  ⟨(lState[2]'(by decide)), ⟨5, ⟨{ item := { ring := 4, type := 2, body := [0x00000001#32, 0x00000002#32, 0x00000003#32] }, deadline := 5, back := { pc := 0x00030010#32, g7 := 0x1003f000#32, win := 2, depth := 3, state := 0x00000000#32, tra := 0x00000005#32, tstate := 0x00000006#32, tcause := 0x00000007#32, tval := 0x00000008#32 } }, by decide +kernel⟩⟩⟩,
  ⟨(lState[2]'(by decide)), ⟨0, ⟨{ item := { ring := 4, type := 2, body := [0x00000001#32, 0x00000002#32, 0x00000003#32] }, deadline := 5, back := { pc := 0x00030010#32, g7 := 0x1003f000#32, win := 2, depth := 3, state := 0x00000000#32, tra := 0x00000005#32, tstate := 0x00000006#32, tcause := 0x00000007#32, tval := 0x00000008#32 } }, by decide +kernel⟩⟩⟩⟩
end FilterCalls

namespace ImagePort
def im (f : ImgPort → ImgPort) (s : State) : State := mapDev (fun d => { d with cpu := { d.cpu with img := f d.cpu.img } }) s
def boot (s : State) : State := mapDev (fun d => { d with cpu := { d.cpu with bootRom := true }, sys := { d.sys with ready := false, stage := 8 } }) s
def lState : List State := [sU, ap id sU, im (fun p => { p with target := 2 }) (boot sU), im (fun p => { p with target := 1, bytes := 4, hdr := [0xADEA7416] }) sU, im (fun p => { p with target := 0, bytes := 4, hdr := [0xADEA7416] }) sU, im (fun p => { p with target := 2, bytes := 40, at_ := 0x100, left := 8 }) (boot sU), im (fun p => { p with target := 2, bytes := 40, at_ := 0x3FFFC, left := 4 }) (boot sU), im (fun p => { p with target := 2, bytes := 40, bad := true }) (boot sU)]
theorem witness_ImagePort :
  (∃ (s : State), ∃ (t : Nat), ∃ (r : Reader), ∃ (v : Word), (s.tagm.hostW = none) ∧ (r ≠ .applet) ∧ (domPower s.dev (coreDom s.dev) = .on) ∧ let target := imgTarget s.dev
(target = 0) ∧ (s.dev.cpu.apl.run = true) ∧ True) ∧
  (∃ (s : State), ∃ (t : Nat), ∃ (r : Reader), ∃ (v : Word), (s.tagm.hostW = none) ∧ (r ≠ .applet) ∧ (domPower s.dev (coreDom s.dev) = .on) ∧ let p := s.dev.cpu.img
let target := imgTarget s.dev
(¬ (target = 0 ∧ s.dev.cpu.apl.run = true)) ∧ (0 < p.bytes) ∧ (p.bytes < 32) ∧ (imgHeaderOk target (p.bytes / 4) v = true) ∧ True) ∧
  (∃ (s : State), ∃ (t : Nat), ∃ (r : Reader), ∃ (v : Word), (s.tagm.hostW = none) ∧ (r ≠ .applet) ∧ (domPower s.dev (coreDom s.dev) = .on) ∧ let p := s.dev.cpu.img
let target := imgTarget s.dev
(target = 2) ∧ (p.bytes = 0) ∧ (p.bad = false) ∧ (v ≠ 0xADEA7416) ∧ True) ∧
  (∃ (s : State), ∃ (t : Nat), ∃ (r : Reader), ∃ (v : Word), (s.tagm.hostW = none) ∧ (r ≠ .applet) ∧ (domPower s.dev (coreDom s.dev) = .on) ∧ let p := s.dev.cpu.img
let target := imgTarget s.dev
(target = 2) ∧ (32 ≤ p.bytes) ∧ (p.bad = false) ∧ (p.left ≠ 0) ∧ (p.at_.toNat < 0x40000) ∧ True) ∧
  (∃ (s : State), ∃ (t : Nat), ∃ (r : Reader), ∃ (v : Word), (s.tagm.hostW = none) ∧ (r ≠ .applet) ∧ (domPower s.dev (coreDom s.dev) = .on) ∧ let p := s.dev.cpu.img
let target := imgTarget s.dev
(32 ≤ p.bytes) ∧ (p.bad = true) ∧ (target = 2) ∧ True) ∧
  (∃ (s : State), ∃ (t : Nat), ∃ (r : Reader), ∃ (v : Word), (s.tagm.hostW = none) ∧ (r ≠ .applet) ∧ (domPower s.dev (coreDom s.dev) = .on) ∧ let p := s.dev.cpu.img
(p.target < 4) ∧ (s.dev.cpu.mboxScan = false) ∧ True) :=
  ⟨⟨(lState[1]'(by decide)), ⟨0, ⟨(Sys2Proof.Reader.spiA), ⟨0x00000000#32, by decide +kernel⟩⟩⟩⟩,
  ⟨(lState[3]'(by decide)), ⟨0, ⟨(Sys2Proof.Reader.spiA), ⟨0x01010000#32, by decide +kernel⟩⟩⟩⟩,
  ⟨(lState[2]'(by decide)), ⟨0, ⟨(Sys2Proof.Reader.spiA), ⟨0x00000000#32, by decide +kernel⟩⟩⟩⟩,
  ⟨(lState[5]'(by decide)), ⟨0, ⟨(Sys2Proof.Reader.spiA), ⟨0x00000000#32, by decide +kernel⟩⟩⟩⟩,
  ⟨(lState[7]'(by decide)), ⟨0, ⟨(Sys2Proof.Reader.spiA), ⟨0x00000000#32, by decide +kernel⟩⟩⟩⟩,
  ⟨(lState[0]'(by decide)), ⟨0, ⟨(Sys2Proof.Reader.spiA), ⟨0x00000000#32, by decide +kernel⟩⟩⟩⟩⟩
end ImagePort

namespace FirmwareStarts
def im (f : ImgPort → ImgPort) (s : State) : State := mapDev (fun d => { d with cpu := { d.cpu with img := f d.cpu.img } }) s
def boot (s : State) : State := mapDev (fun d => { d with cpu := { d.cpu with bootRom := true, mboxScan := false }, sys := { d.sys with ready := false, stage := 8 } }) s
def words (crc : Word) : List Word := [0xADEA7416, 0x01010000, 3, 0x10, 44, crc, 0, 0, 0x10, 4, 0x55667788]
def gcrc : Word := ((words 0).drop 8).foldl crcWord ImgPort.reset.crc
def rd (f : List Word) (s : State) : State := mapDev (fun d => f.foldl (fun d v => (imgWord v d).1) d) (im (fun _ => { ImgPort.reset with target := 2 }) (boot s))
def sst : List State := [sU, rd (words 0) sU, rd (words gcrc) sU, mapDev (fun d => { d with sys := { d.sys with flash := true } }) (boot sU), cc (fun k => { k with entry := 0x40 }) cb, cc (fun k => { k with st := .stopped }) cb]
def lState : List State := sst
theorem witness_FirmwareStarts :
  (∃ (s : State), ∃ (t : Nat), ∃ (r : Reader), (s.tagm.hostW = none) ∧ (r ≠ .applet) ∧ (domPower s.dev (coreDom s.dev) = .on) ∧ let p := s.dev.cpu.img
let good := fun (x : ImgPort) => imgCheck x (nth 0 x.hdr 4).toNat (nth 0 x.hdr 5) = true
(romRuns s.dev = true) ∧ (p.target = 2) ∧ (good p) ∧ True) ∧
  (∃ (s : State), ∃ (t : Nat), ∃ (r : Reader), (s.tagm.hostW = none) ∧ (r ≠ .applet) ∧ (domPower s.dev (coreDom s.dev) = .on) ∧ let p := s.dev.cpu.img
let good := fun (x : ImgPort) => imgCheck x (nth 0 x.hdr 4).toNat (nth 0 x.hdr 5) = true
(romRuns s.dev = true) ∧ (p.target = 2) ∧ (¬ good p) ∧ True) ∧
  (∃ (s : State), ∃ (t : Nat), ∃ (r : Reader), (s.tagm.hostW = none) ∧ (r ≠ .applet) ∧ (domPower s.dev (coreDom s.dev) = .on) ∧ let p := s.dev.cpu.img
(romRuns s.dev = false) ∧ (s.dev.cpu.mboxScan = false) ∧ (p.target < 4) ∧ True) ∧
  (∃ (s : State), ∃ (t : Nat), ∃ (r : Reader), (s.tagm.hostW = none) ∧ (r ≠ .applet) ∧ (domPower s.dev (coreDom s.dev) = .on) ∧ let good := fun (x : ImgPort) => imgCheck x (nth 0 x.hdr 4).toNat (nth 0 x.hdr 5) = true
∃ (flash : List Word), (romRuns s.dev = true) ∧ (s.dev.sys.flash = true) ∧ let read := flash.foldl (fun d v => (imgWord v d).1) { tick t s.dev with cpu := { s.dev.cpu with img := { ImgPort.reset with target := 2 } } }
(good read.cpu.img) ∧ True) ∧
  (∃ (s : State), ∃ (t : Nat), ∃ (r : Reader), (s.tagm.hostW = none) ∧ (r ≠ .applet) ∧ (domPower s.dev (coreDom s.dev) = .on) ∧ let good := fun (x : ImgPort) => imgCheck x (nth 0 x.hdr 4).toNat (nth 0 x.hdr 5) = true
∃ (flash : List Word), (romRuns s.dev = true) ∧ (s.dev.sys.flash = true) ∧ let read := flash.foldl (fun d v => (imgWord v d).1) { tick t s.dev with cpu := { s.dev.cpu with img := { ImgPort.reset with target := 2 } } }
(¬ good read.cpu.img) ∧ True) ∧
  (∃ (s : State), ∃ (t : Nat), ∃ (r : Reader), (s.tagm.hostW = none) ∧ (r ≠ .applet) ∧ (domPower s.dev (coreDom s.dev) = .on) ∧ (romRuns s.dev = false ∨ s.dev.sys.flash = false) ∧ True) ∧
  (∃ (s : State), ∃ (t : Nat), ∃ (r : Reader), (s.tagm.hostW = none) ∧ (r ≠ .applet) ∧ (domPower s.dev (coreDom s.dev) = .on) ∧ (s.dev.cpu.bootRom = false) ∧ (domOn s.dev (coreDom s.dev) = true) ∧ ((coreIn s.dev).st ≠ .stopped) ∧ (s.dev.svc.opens = []) ∧ (s.dev.svc.recent = []) ∧ (s.dev.cpu.apl.run = false) ∧ (s.dev.cpu.apl.ok = false) ∧ ((coreIn s.dev).entry ≠ 0) ∧ True) ∧
  (∃ (s : State), ∃ (t : Nat), ∃ (r : Reader), (s.tagm.hostW = none) ∧ (r ≠ .applet) ∧ (domPower s.dev (coreDom s.dev) = .on) ∧ (s.dev.cpu.bootRom = true ∨ domOn s.dev (coreDom s.dev) = false ∨ (coreIn s.dev).st = .stopped) ∧ True) :=
  ⟨⟨(lState[2]'(by decide)), ⟨0, ⟨(Sys2Proof.Reader.spiA), by decide +kernel⟩⟩⟩,
  ⟨(lState[1]'(by decide)), ⟨0, ⟨(Sys2Proof.Reader.spiA), by decide +kernel⟩⟩⟩,
  ⟨(lState[0]'(by decide)), ⟨0, ⟨(Sys2Proof.Reader.spiA), by decide +kernel⟩⟩⟩,
  ⟨(lState[3]'(by decide)), ⟨0, ⟨(Sys2Proof.Reader.spiA), ⟨by decide +kernel, ⟨by decide +kernel, ⟨by decide +kernel, ⟨[0xadea7416#32, 0x01010000#32, 0x00000003#32, 0x00000010#32, 0x0000002c#32, 0x60001e0c#32, 0x00000000#32, 0x00000000#32, 0x00000010#32, 0x00000004#32, 0x55667788#32], by decide +kernel⟩⟩⟩⟩⟩⟩⟩,
  ⟨(lState[3]'(by decide)), ⟨0, ⟨(Sys2Proof.Reader.spiA), ⟨by decide +kernel, ⟨by decide +kernel, ⟨by decide +kernel, ⟨[0xadea7416#32, 0x01010000#32, 0x00000003#32, 0x00000010#32, 0x0000002c#32, 0x00000000#32, 0x00000000#32, 0x00000000#32, 0x00000010#32, 0x00000004#32, 0x55667788#32], by decide +kernel⟩⟩⟩⟩⟩⟩⟩,
  ⟨(lState[0]'(by decide)), ⟨0, ⟨(Sys2Proof.Reader.spiA), by decide +kernel⟩⟩⟩,
  ⟨(lState[4]'(by decide)), ⟨0, ⟨(Sys2Proof.Reader.spiA), by decide +kernel⟩⟩⟩,
  ⟨(lState[1]'(by decide)), ⟨0, ⟨(Sys2Proof.Reader.spiA), by decide +kernel⟩⟩⟩⟩
end FirmwareStarts

end Sys2Proof.Tests.P53

namespace Sys2Proof.Tests.P60

def sd (n : Nat) (p : DomPos) (pend : Option Nat) : State := onRun fun d => setDom n { dom d n with pos := p, pend := pend } d
def busy9 : Dev → Dev := fun d => { d with chA := { d.chA with st := .sampling } }
def then_ (f : Dev → Dev) (s : State) : State := { s with dev := f s.dev }
def doms : List State := [s0, sd 9 (.entering false 1 5) none, then_ busy9 (sd 9 (.entering true 1 5) (some 0)), sd 9 (.entering true 2 5) none,
  sd 9 (.entering true 5 5) none, sd 9 (.entering false 5 5) none, sd 5 (.entering true 5 5) none, sd 6 (.entering true 5 5) none, sd 7 (.entering true 5 5) none,sd 11 (.entering true 5 5) none, sd 11 (.entering true 4 5) (some 1),
  sd 9 (.waking false 1 5) none, sd 9 (.waking true 2 5) none, sd 9 (.waking true 4 5) none,sd 2 (.waking true 4 5) none, sd 8 (.waking true 4 5) none, sd 7 (.waking true 4 5) none, sd 3 (.waking true 4 5) none]

namespace DomainEntry
def lState : List State := doms
theorem witness_DomainEntry :
  (∃ (s : State), ∃ (t : Nat), ∃ (n : Fin 14), ∃ (off : Bool), ∃ (since : Nat), let x := dom s.dev n.val
((∀ k u o, x.pos ≠ .entering o k u)) ∧ True) ∧
  (∃ (s : State), ∃ (t : Nat), ∃ (n : Fin 14), ∃ (off : Bool), ∃ (since : Nat), let x := dom s.dev n.val
let d := tick t s.dev
(x.pos = .entering off 1 since) ∧ (s.dev.cal.run = none) ∧ (domIdle d n.val = true) ∧ True) ∧
  (∃ (s : State), ∃ (t : Nat), ∃ (n : Fin 14), ∃ (off : Bool), ∃ (since : Nat), let x := dom s.dev n.val
let d := tick t s.dev
let q := us (max 1 (fld (reg s.dev Reg.PMU_CFG) 31 16))
(x.pos = .entering off 1 since) ∧ (s.dev.cal.run = none) ∧ (domIdle d n.val = false) ∧ (since + q ≤ d.now) ∧ ((∀ m, m < 14 → ∀ o u, (dom s.dev m).pos ≠ .entering o 0 u)) ∧ True) ∧
  (∃ (s : State), ∃ (t : Nat), ∃ (n : Fin 14), ∃ (off : Bool), ∃ (since : Nat), let x := dom s.dev n.val
∃ k, (k = 2 ∨ k = 3 ∨ k = 4) ∧ (x.pos = .entering off k since) ∧ ((∀ m, m < 14 → ∀ o u, (dom s.dev m).pos ≠ .entering o 0 u)) ∧ True) ∧
  (∃ (s : State), ∃ (t : Nat), ∃ (n : Fin 14), ∃ (off : Bool), ∃ (since : Nat), let x := dom s.dev n.val
(x.pos = .entering false 5 since) ∧ (x.pend = none) ∧ True) ∧
  (∃ (s : State), ∃ (t : Nat), ∃ (n : Fin 14), ∃ (off : Bool), ∃ (since : Nat), let x := dom s.dev n.val
(x.pos = .entering true 5 since) ∧ (x.pend = none) ∧ True) :=
  ⟨⟨(lState[0]'(by decide)), 0, 0, true, 0, (fun _ _ _ h => nomatch (show (dom (lState[0]'(by decide)).dev 0).pos = .on by decide +kernel).symm.trans h), trivial⟩,
  ⟨(lState[1]'(by decide)), ⟨0, ⟨9, ⟨false, ⟨5, by decide +kernel⟩⟩⟩⟩⟩,
  ⟨(lState[2]'(by decide)), 10000000, 9, true, 5, by decide +kernel, by decide +kernel, by decide +kernel, by decide +kernel, no_entering _ (by decide +kernel), trivial⟩,
  ⟨(lState[3]'(by decide)), 0, 9, true, 5, 2, by decide +kernel, by decide +kernel, no_entering _ (by decide +kernel), trivial⟩,
  ⟨(lState[5]'(by decide)), ⟨0, ⟨9, ⟨true, ⟨5, by decide +kernel⟩⟩⟩⟩⟩,
  ⟨(lState[4]'(by decide)), ⟨0, ⟨9, ⟨true, ⟨5, by decide +kernel⟩⟩⟩⟩⟩⟩
end DomainEntry

namespace DomainWake
def wk : List State := [s0, sd 9 (.waking false 1 5) none, sd 9 (.waking true 2 5) none, sd 9 (.waking true 4 5) none, sd 1 (.waking true 4 5) none, sd 1 (.waking false 4 5) none, sd 2 (.waking true 4 5) none, sd 8 (.waking true 4 5) none, sd 7 (.waking true 4 5) none, sd 3 (.waking true 4 5) none, sd 3 (.waking false 3 5) none]
def lState : List State := wk
theorem witness_DomainWake :
  (∃ (s : State), ∃ (t : Nat), ∃ (n : Fin 14), ∃ (off : Bool), ∃ (since k : Nat), let x := dom s.dev n.val
(s.dev.cpu.mboxScan = false) ∧ (fld (reg s.dev Reg.CAL_CTRL) 4 0 = 0) ∧ ((∀ k u o, x.pos ≠ .waking o k u)) ∧ True) ∧
  (∃ (s : State), ∃ (t : Nat), ∃ (n : Fin 14), ∃ (off : Bool), ∃ (since k : Nat), let x := dom s.dev n.val
(s.dev.cpu.mboxScan = false) ∧ (fld (reg s.dev Reg.CAL_CTRL) 4 0 = 0) ∧ (x.pos = .waking off k since) ∧ (1 ≤ k) ∧ (k < 4) ∧ True) ∧
  (∃ (s : State), ∃ (t : Nat), ∃ (n : Fin 14), ∃ (off : Bool), ∃ (since k : Nat), let x := dom s.dev n.val
(s.dev.cpu.mboxScan = false) ∧ (fld (reg s.dev Reg.CAL_CTRL) 4 0 = 0) ∧ (x.pos = .waking off 4 since) ∧ (x.pend = none) ∧ True) :=
  ⟨⟨(lState[1]'(by decide)), 0, 0, true, 0, 0, by decide +kernel, by decide +kernel, (fun _ _ _ h => nomatch (show (dom (lState[1]'(by decide)).dev 0).pos = .on by decide +kernel).symm.trans h), trivial⟩,
  ⟨(lState[1]'(by decide)), ⟨0, ⟨9, ⟨false, ⟨5, ⟨1, by decide +kernel⟩⟩⟩⟩⟩⟩,
  ⟨(lState[3]'(by decide)), ⟨0, ⟨9, ⟨true, ⟨5, ⟨0, by decide +kernel⟩⟩⟩⟩⟩⟩⟩
end DomainWake

namespace SuppliesAndAlarm
def lState : List State := [s1, onRun (setReg Reg.PMU_CFG 0x100), onRun (fun d => setReg Reg.PMU_WAKE_TIME 0xFFFF (setReg Reg.PMU_CFG 0x100 d)), onRun (fun d => { d with uhf := { d.uhf with carrier := true } }), onRun (fun d => { d with hf := { d.hf with field := 1 } }), onRun (fun d => { d with pmu := {d.pmu with vioA := false, vioB := false, vpa := false}})]
theorem witness_SuppliesAndAlarm :
  (∃ (s : State), ∃ (t : Nat), let cyc := s.dev.tb.cyc.extractLsb' 0 32
(bit (reg s.dev Reg.PMU_CFG) 8 = false ∨ cyc ≠ reg s.dev Reg.PMU_WAKE_AT) ∧ True) ∧
  (∃ (s : State), ∃ (t : Nat), let cyc := s.dev.tb.cyc.extractLsb' 0 32
(bit (reg s.dev Reg.PMU_CFG) 8 = true) ∧ (cyc = reg s.dev Reg.PMU_WAKE_AT) ∧ (s.dev.pmu.wakeAt = none) ∧ True) ∧
  (∃ (s : State), ∃ (t : Nat), (s.dev.pmu.vioB = false) ∧ True) ∧
  (∃ (s : State), ∃ (t : Nat), (s.dev.pmu.vioB = true) ∧ True) ∧
  (∃ (s : State), ∃ (t : Nat), (s.dev.pmu.vioA = true) ∧ True) ∧
  (∃ (s : State), ∃ (t : Nat), (s.dev.pmu.vpa = false) ∧ True) ∧
  (∃ (s : State), ∃ (t : Nat), let d := tick t s.dev
(s.dev.pmu.vpa = true) ∧ (s.dev.uhf.carrier = false) ∧ (s.dev.uhf.move = none) ∧ (s.dev.hf.field = 0) ∧ (s.dev.hf.pingEnd ≤ d.now) ∧ True) ∧
  (∃ (s : State), ∃ (t : Nat), (s.dev.pmu.vpa = true) ∧ (s.dev.uhf.carrier = true ∨ s.dev.hf.field ≠ 0) ∧ (s.dev.svc.safe = false) ∧ True) :=
  ⟨⟨(lState[0]'(by decide)), ⟨0, by decide +kernel⟩⟩,
  ⟨(lState[1]'(by decide)), ⟨0, by decide +kernel⟩⟩,
  ⟨(lState[5]'(by decide)), ⟨0, by decide +kernel⟩⟩,
  ⟨(lState[0]'(by decide)), ⟨0, by decide +kernel⟩⟩,
  ⟨(lState[0]'(by decide)), ⟨0, by decide +kernel⟩⟩,
  ⟨(lState[5]'(by decide)), ⟨0, by decide +kernel⟩⟩,
  ⟨(lState[0]'(by decide)), ⟨0, by decide +kernel⟩⟩,
  ⟨(lState[3]'(by decide)), ⟨0, by decide +kernel⟩⟩⟩
end SuppliesAndAlarm

namespace Resets
def lState : List State := [s1, onRun (fun d => { d with svc := { d.svc with kept := some ⟨[[1,2,3,4,5]], 4, 2, 0, 7, 9⟩ } }), onRun (fun d => { setCause 1 d with sys := { d.sys with stage := 0 } }), onRun (fun d => { d with svc := { d.svc with safe := true, ledger := [[1,2,3,4,5]], fences := 2 } , pmu := {d.pmu with vioA := false, vioB := false, vpa := false}})]
theorem witness_Resets :
  (∃ (s : State), ∃ (t : Nat), let x := tick t s.dev
let cause := fun (d : Dev) (k : Nat) => bit (reg d Reg.SYS_RST_CAUSE) k
(s.dev.sys.stage = 0) ∧ (cause x 1 = true) ∧ (s.dev.svc.kept = none) ∧ True) ∧
  (∃ (s : State), ∃ (t : Nat), ∃ k, (s.dev.svc.kept = some k) ∧ True) ∧
  (∃ (s : State), ∃ (t : Nat), let x := tick t s.dev
let cause := fun (d : Dev) (k : Nat) => bit (reg d Reg.SYS_RST_CAUSE) k
(s.dev.sys.stage ≠ 0 ∨ cause x 1 = false) ∧ (s.dev.svc.kept = none) ∧ True) ∧
  (∃ (s : State), ∃ (t : Nat), (s.dev.pmu.vioA = true) ∧ (3 ≤ s.dev.sys.stage) ∧ (s.dev.svc.kept = none) ∧ True) ∧
  (∃ (s : State), ∃ (t : Nat), (s.dev.pmu.vioA = false ∨ s.dev.sys.stage = 0) ∧ True) :=
  ⟨⟨(lState[2]'(by decide)), ⟨0, by decide +kernel⟩⟩,
  ⟨(lState[1]'(by decide)), ⟨0, ⟨{ ledger := [[0x00000001#32, 0x00000002#32, 0x00000003#32, 0x00000004#32, 0x00000005#32]], next := 0x0004#16, fences := 0x000002#24, retired := 0x00000000#32, safeCause := 0x00000007#32, hours := 9 }, by decide +kernel⟩⟩⟩,
  ⟨(lState[0]'(by decide)), ⟨0, by decide +kernel⟩⟩,
  ⟨(lState[0]'(by decide)), ⟨0, by decide +kernel⟩⟩,
  ⟨(lState[2]'(by decide)), ⟨0, by decide +kernel⟩⟩⟩
end Resets

namespace StartUp
def st (k : Nat) : State := onRun (fun d => { d with sys := { d.sys with stage := k } })
def lState : List State := (List.range 9).map st ++ [onRun (fun d => { d with svc := { d.svc with fences := 2 }, sys := { d.sys with stage := 6 } })]
theorem witness_StartUp :
  (∃ (s : State), ∃ (t : Nat), ∃ (straps : BitVec 3), let k := s.dev.sys.stage
(k = 0 ∨ 7 ≤ k ∨ s.dev.sys.held = true) ∧ True) ∧
  (∃ (s : State), ∃ (t : Nat), ∃ (straps : BitVec 3), let k := s.dev.sys.stage
(k = 1 ∨ k = 2) ∧ (s.dev.sys.held = false) ∧ True) ∧
  (∃ (s : State), ∃ (t : Nat), ∃ (straps : BitVec 3), let k := s.dev.sys.stage
(k = 3) ∧ (s.dev.sys.held = false) ∧ True) ∧
  (∃ (s : State), ∃ (t : Nat), ∃ (straps : BitVec 3), let k := s.dev.sys.stage
(k = 4) ∧ (s.dev.sys.held = false) ∧ True) ∧
  (∃ (s : State), ∃ (t : Nat), ∃ (straps : BitVec 3), let k := s.dev.sys.stage
(k = 5) ∧ (s.dev.sys.held = false) ∧ True) ∧
  (∃ (s : State), ∃ (t : Nat), ∃ (straps : BitVec 3), let k := s.dev.sys.stage
(k = 6) ∧ (s.dev.sys.held = false) ∧ (s.dev.cpu.onS = false) ∧ True) :=
  ⟨⟨(lState[0]'(by decide)), ⟨0, by decide +kernel⟩⟩,
  ⟨(lState[1]'(by decide)), ⟨0, by decide +kernel⟩⟩,
  ⟨(lState[3]'(by decide)), ⟨0, by decide +kernel⟩⟩,
  ⟨(lState[4]'(by decide)), ⟨0, by decide +kernel⟩⟩,
  ⟨(lState[5]'(by decide)), ⟨0, by decide +kernel⟩⟩,
  ⟨(lState[6]'(by decide)), ⟨0, by decide +kernel⟩⟩⟩
end StartUp

end Sys2Proof.Tests.P60

namespace Sys2Proof.Tests.P62

def cal (f : Cal → Cal) : Dev → Dev := fun d => { d with cal := f d.cal }
def inst (i : Nat) (f : CalInst → CalInst) : Dev → Dev := fun d => setCal i (f (calOf d i)) d
def m0 (codes : List Int) (ok : Bool) : CalMeasure := ⟨codes, 5, [200], 0, ok⟩
def set1 (t : Int) : CalSet := ⟨true, t, [1,2,3], setCrc t [1,2,3]⟩
def cset (d : Dev) : Dev := inst 0 (fun c => { c with sets := [CalSet.reset, set1 10, set1 150, CalSet.reset, CalSet.reset] }) d

namespace TemperatureSample
def lState : List State := [s1, onRun cset, onRun (fun d => setReg Reg.CAL_CTRL 0x1F (inst 4 (fun c => { c with lastTemp := some 50 }) (cset d))), onRun (fun d => { d with pmu := { d.pmu with doms := (List.replicate 14 { Dom.full with pos := .off }) } })]
theorem witness_TemperatureSample :
  (∃ (s : State), ∃ (t : Nat), ∃ (temp : Int), (domOn s.dev (coreDom s.dev) = false) ∧ True) ∧
  (∃ (s : State), ∃ (t : Nat), ∃ (temp : Int), (domOn s.dev (coreDom s.dev) = true) ∧ (fld (reg s.dev Reg.CAL_CTRL) 4 0 = 0) ∧ ((temp - s.dev.cal.formed).natAbs < 4) ∧ True) ∧
  (∃ (s : State), ∃ (t : Nat), ∃ (temp : Int), (domOn s.dev (coreDom s.dev) = true) ∧ (fld (reg s.dev Reg.CAL_CTRL) 4 0 = 0) ∧ (4 ≤ (temp - s.dev.cal.formed).natAbs) ∧ True) ∧
  (∃ (s : State), ∃ (t : Nat), ∃ (temp : Int), ∃ (i : Nat), ∃ (u : Int), (domOn s.dev (coreDom s.dev) = true) ∧ (i ∈ calOrder) ∧ (bit (reg s.dev Reg.CAL_CTRL) (calBit i) = true) ∧ ((calOf s.dev i).lastTemp = some u) ∧ (calGoing s.dev i = false) ∧ True) :=
  ⟨⟨(lState[3]'(by decide)), ⟨0, ⟨50, by decide +kernel⟩⟩⟩,
  ⟨(lState[0]'(by decide)), ⟨0, ⟨100, by decide +kernel⟩⟩⟩,
  ⟨(lState[0]'(by decide)), ⟨0, ⟨50, by decide +kernel⟩⟩⟩,
  ⟨(lState[2]'(by decide)), ⟨0, ⟨50, ⟨4, ⟨50, by decide +kernel⟩⟩⟩⟩⟩⟩
end TemperatureSample

namespace CalibrationStart
def on12 (p : DomPos) (d : Dev) : Dev := [8,9,10,11,12].foldl (fun d n => setDom n { Dom.full with pos := if n = 12 then p else .on } d) { d with tb := { d.tb with st := .none } }
def lState : List State := [s1, onRun (on12 .on), onRun (fun d => inst 0 (fun c => { c with pend := true }) (on12 .on d)), onRun (fun d => inst 0 (fun c => { c with pend := true }) (on12 .off d)), onRun (fun d => { d with svc := { d.svc with safe := true } }), onRun (fun d => { inst 0 (fun c => { c with pend := true }) (on12 .off d) with uhf := { d.uhf with carrier := true } })]
theorem witness_CalibrationStart :
  (∃ (s : State), ∃ (t : Nat), let d := tick t s.dev
((∀ o ∈ s.dev.ops, o.pend = .none)) ∧ (emitting d = true ∨ s.dev.uhf.heldAt ≠ none ∨ s.dev.svc.safe = true ∨ fenced s.dev 0x12 = true ∨ s.dev.cal.run ≠ none) ∧ True) ∧
  (∃ (s : State), ∃ (t : Nat), let d := tick t s.dev
((∀ o ∈ s.dev.ops, o.pend = .none)) ∧ (calQuiet d = true) ∧ ((∀ i ∈ calOrder, calMay d i = false)) ∧ True) ∧
  (∃ (s : State), ∃ (t : Nat), let d := tick t s.dev
let x := dom s.dev 12
((∀ o ∈ s.dev.ops, o.pend = .none)) ∧ (calQuiet d = true) ∧ ∃ i, (calOrder.find? (calMay d) = some i) ∧ (x.pos = .on) ∧ True) ∧
  (∃ (s : State), ∃ (t : Nat), let d := tick t s.dev
let x := dom s.dev 12
((∀ o ∈ s.dev.ops, o.pend = .none)) ∧ (calQuiet d = true) ∧ ∃ i, (calOrder.find? (calMay d) = some i) ∧ (x.pos = .off) ∧ True) :=
  ⟨⟨(lState[4]'(by decide)), ⟨0, by decide +kernel⟩⟩,
  ⟨(lState[0]'(by decide)), ⟨0, by decide +kernel⟩⟩,
  ⟨(lState[2]'(by decide)), ⟨0, ⟨by decide +kernel, ⟨by decide +kernel, ⟨0, by decide +kernel⟩⟩⟩⟩⟩,
  ⟨(lState[3]'(by decide)), ⟨0, ⟨by decide +kernel, ⟨by decide +kernel, ⟨0, by decide +kernel⟩⟩⟩⟩⟩⟩
end CalibrationStart

namespace CalibrationRuns
def runs (i : Nat) (f : CalInst → CalInst) : State := onRun fun d => inst i f (cal (fun c => { c with run := some ⟨i, false⟩ }) d)
def lState : List State := [s1, runs 0 (fun c => { c with pend := true }), runs 5 (fun c => { c with pend := true, prev := some [1,2] }), runs 6 (fun c => { c with prev := some [1,2], disagree := 2 }), runs 2 (fun c => { c with prev := some [1,2] })]
theorem witness_CalibrationRuns :
  (∃ (s : State), ∃ (t : Nat), ∃ (m : CalMeasure), ∃ (i : Nat), (s.dev.cal.run = none ∨ s.dev.cal.run = some ⟨i, true⟩) ∧ True) ∧
  (∃ (s : State), ∃ (t : Nat), ∃ (m : CalMeasure), ∃ (i : Nat), let c := calOf s.dev i
(i ∈ calOrder) ∧ (s.dev.cal.run = some ⟨i, false⟩) ∧ (c.prev = none) ∧ (c.pend = true ∨ s.dev.cal.cmd ≠ none) ∧ True) ∧
  (∃ (s : State), ∃ (t : Nat), ∃ (m : CalMeasure), ∃ (i : Nat), let c := calOf s.dev i
(i ∈ calOrder) ∧ (s.dev.cal.run = some ⟨i, false⟩) ∧ ∃ p, (c.prev = some p) ∧ (calTol s.dev i < calDiff p m.codes) ∧ (c.disagree < 2) ∧ (c.pend = true ∨ s.dev.cal.cmd ≠ none) ∧ True) ∧
  (∃ (s : State), ∃ (t : Nat), ∃ (m : CalMeasure), ∃ (i : Nat), let c := calOf s.dev i
(i ∈ calOrder) ∧ (s.dev.cal.run = some ⟨i, false⟩) ∧ ∃ p, (c.prev = some p) ∧ (calTol s.dev i < calDiff p m.codes) ∧ (2 ≤ c.disagree) ∧ (s.dev.cal.cmd = none) ∧ True) ∧
  (∃ (s : State), ∃ (t : Nat), ∃ (m : CalMeasure), ∃ (i : Nat), let c := calOf s.dev i
(i ∈ calOrder) ∧ (s.dev.cal.run = some ⟨i, false⟩) ∧ ∃ p, (c.prev = some p) ∧ (calDiff p m.codes ≤ calTol s.dev i) ∧ (s.dev.cal.cmd = none) ∧ (m.storeOk = true) ∧ (fenced s.dev 0x13 = false) ∧ True) ∧
  (∃ (s : State), ∃ (t : Nat), ∃ (m : CalMeasure), ∃ (i : Nat), let c := calOf s.dev i
(i ∈ calOrder) ∧ (s.dev.cal.run = some ⟨i, false⟩) ∧ ∃ p, (c.prev = some p) ∧ (calDiff p m.codes ≤ calTol s.dev i) ∧ (s.dev.cal.cmd = none) ∧ (m.storeOk = false) ∧ True) :=
  ⟨⟨(lState[0]'(by decide)), ⟨0, ⟨{ codes := [1, 2], info := 0x00000005#32, snr := [200], badSlices := 0x00000#18, storeOk := true }, ⟨0, by decide +kernel⟩⟩⟩⟩,
  ⟨(lState[1]'(by decide)), ⟨0, ⟨{ codes := [1, 2], info := 0x00000005#32, snr := [200], badSlices := 0x00000#18, storeOk := true }, ⟨0, by decide +kernel⟩⟩⟩⟩,
  ⟨(lState[2]'(by decide)), ⟨0, ⟨{ codes := [9, 9], info := 0x00000005#32, snr := [200], badSlices := 0x00000#18, storeOk := false }, ⟨5, ⟨by decide +kernel, ⟨by decide +kernel, ⟨[1, 2], by decide +kernel⟩⟩⟩⟩⟩⟩⟩,
  ⟨(lState[3]'(by decide)), ⟨0, ⟨{ codes := [9, 9], info := 0x00000005#32, snr := [200], badSlices := 0x00000#18, storeOk := false }, ⟨6, ⟨by decide +kernel, ⟨by decide +kernel, ⟨[1, 2], by decide +kernel⟩⟩⟩⟩⟩⟩⟩,
  ⟨(lState[2]'(by decide)), ⟨0, ⟨{ codes := [1, 2], info := 0x00000005#32, snr := [200], badSlices := 0x00000#18, storeOk := true }, ⟨5, ⟨by decide +kernel, ⟨by decide +kernel, ⟨[1, 2], by decide +kernel⟩⟩⟩⟩⟩⟩⟩,
  ⟨(lState[2]'(by decide)), ⟨0, ⟨{ codes := [1, 2], info := 0x00000005#32, snr := [200], badSlices := 0x00000#18, storeOk := false }, ⟨5, ⟨by decide +kernel, ⟨by decide +kernel, ⟨[1, 2], by decide +kernel⟩⟩⟩⟩⟩⟩⟩⟩
end CalibrationRuns

namespace MarginReplan
def rp (f : Dev → Dev) : State := onRun fun d => f (setReg Reg.CAL_CTRL 0x100 (setDom 12 { Dom.full with pos := .on } d))
def lState : List State := [s1, rp id, rp (cal fun c => { c with lockHist := [819200000, 819300000], xoRef := some 5 }), rp (cal fun c => { c with replanUp := false })]
theorem witness_MarginReplan :
  (∃ (s : State), ∃ (t : Nat), ∃ (m : AgeMeasure), let d := tick t s.dev
let due := s.dev.cal.replanUp = true ∨ s.dev.cal.replanAt + max 1 (fld (reg s.dev Reg.CAL_REPLAN) 23 16) * 576000000000 ≤ d.now
(bit (reg s.dev Reg.CAL_CTRL) 8 = false ∨ domOn s.dev 12 = false ∨ s.dev.cal.run ≠ none ∨ ¬ due) ∧ True) ∧
  (∃ (s : State), ∃ (t : Nat), ∃ (m : AgeMeasure), let d := tick t s.dev
let due := s.dev.cal.replanUp = true ∨ s.dev.cal.replanAt + max 1 (fld (reg s.dev Reg.CAL_REPLAN) 23 16) * 576000000000 ≤ d.now
(bit (reg s.dev Reg.CAL_CTRL) 8 = true) ∧ (domOn s.dev 12 = true) ∧ (s.dev.cal.run = none) ∧ (due) ∧ True) :=
  ⟨⟨(lState[0]'(by decide)), ⟨0, ⟨{ ro := 0, pa := 0, hf := 0 }, by decide +kernel⟩⟩⟩,
  ⟨(lState[1]'(by decide)), ⟨0, ⟨{ ro := 0, pa := 0, hf := 0 }, by decide +kernel⟩⟩⟩⟩
end MarginReplan

end Sys2Proof.Tests.P62

namespace Sys2Proof.Tests.P63

def svc (f : Svc → Svc) : Dev → Dev := fun d => { d with svc := f d.svc }
def h (num : Nat) (block code level : Nat) : Handling := ⟨num, block, code, level, 5, num, 2⟩
def led (ns : List Nat) : List (List Word) := ns.map fun n => sealEntry [nw n <<< 16, 0, 0, 0, 0]
def opn (hs : List Handling) : State := onRun (svc fun v => { v with opens := hs, ledger := led (hs.map fun x => x.num.toNat) })
def lHandling : List Handling := [h 2 0x0C 0x20 1, h 2 0x0D 0x21 1, h 2 0x0D 0x25 1, h 2 0x13 0x44 2, h 3 0x0E 0x26 1, h 3 0x08 0x10 1, h 4 7 0x30 3, h 2 0x0C 0x24 1]

namespace RecoveryDone
def full (s : State) : State := { s with dev := { s.dev with chA := { s.dev.chA with active := 0xFFFF }, chB := { s.dev.chB with active := 0x3FFFC } } }
def lState : List State := [s1, opn [h 2 0x0C 0x20 1], opn [h 2 0x0D 0x21 1, h 1 7 0x17 1], full (opn [h 2 0x0C 0x20 1]), full (opn [h 2 0x0D 0x21 1]), opn [h 2 0x13 0x44 2, h 1 7 0x17 1], opn [h 3 0x0E 0x26 1], opn [h 2 0x0D 0x25 1]]
theorem witness_RecoveryDone :
  (∃ (s : State), ∃ (t : Nat), ∃ (writeOk : Bool), ∃ (h : Handling), ∃ (rest : List Handling), (s.dev.svc.opens = []) ∧ True) ∧
  (∃ (s : State), ∃ (t : Nat), ∃ (writeOk : Bool), ∃ (h : Handling), ∃ (rest : List Handling), (s.dev.svc.opens = h :: rest) ∧ (writeOk = true ∨ fenced s.dev 0x13 = true) ∧ (h.code ≠ 0x20) ∧ (h.code ≠ 0x21) ∧ True) ∧
  (∃ (s : State), ∃ (t : Nat), ∃ (writeOk : Bool), ∃ (h : Handling), ∃ (rest : List Handling), let d := tick t s.dev
(s.dev.svc.opens = h :: rest) ∧ ∃ ch : Bool, (writeOk = true) ∧ (h.code = (if ch then 0x21 else 0x20)) ∧ ((bestSpare d ch).isSome = true) ∧ ((retiredOf s.dev ch).length < 2) ∧ True) ∧
  (∃ (s : State), ∃ (t : Nat), ∃ (writeOk : Bool), ∃ (h : Handling), ∃ (rest : List Handling), (s.dev.svc.opens = h :: rest) ∧ (writeOk = false) ∧ (fenced s.dev 0x13 = false) ∧ (h.level < 2) ∧ True) ∧
  (∃ (s : State), ∃ (t : Nat), ∃ (writeOk : Bool), ∃ (h : Handling), ∃ (rest : List Handling), (s.dev.svc.opens = h :: rest) ∧ (writeOk = false) ∧ (fenced s.dev 0x13 = false) ∧ (2 ≤ h.level) ∧ True) :=
  ⟨⟨(lState[0]'(by decide)), ⟨0, ⟨true, ⟨(lHandling[0]'(by decide)), ⟨[], by decide +kernel⟩⟩⟩⟩⟩,
  ⟨(lState[5]'(by decide)), ⟨0, ⟨true, ⟨(lHandling[3]'(by decide)), ⟨[{ num := 0x0001#16, block := 7, code := 23, level := 1, start := 5, parent := 0x0001#16, detail := 2 }], by decide +kernel⟩⟩⟩⟩⟩,
  ⟨(lState[1]'(by decide)), ⟨0, ⟨true, ⟨(lHandling[0]'(by decide)), ⟨[], ⟨by decide +kernel, ⟨false, by decide +kernel⟩⟩⟩⟩⟩⟩⟩,
  ⟨(lState[1]'(by decide)), ⟨0, ⟨false, ⟨(lHandling[0]'(by decide)), ⟨[], by decide +kernel⟩⟩⟩⟩⟩,
  ⟨(lState[5]'(by decide)), ⟨0, ⟨false, ⟨(lHandling[3]'(by decide)), ⟨[{ num := 0x0001#16, block := 7, code := 23, level := 1, start := 5, parent := 0x0001#16, detail := 2 }], by decide +kernel⟩⟩⟩⟩⟩⟩
end RecoveryDone

namespace RecoveryTimeout
def lState : List State := [s1, opn [h 2 0x0C 0x20 1], opn [h 2 0x0D 0x21 1, h 1 7 0x17 1], opn [h 2 0x13 0x44 2, h 1 7 0x17 1], opn [h 3 0x0E 0x26 1], opn [h 3 0x08 0x10 1]]
theorem witness_RecoveryTimeout :
  (∃ (s : State), ∃ (t : Nat), ∃ (h : Handling), let d := tick t s.dev
let late := fun (x : Handling) => decide (x.level ≤ 2 ∧ 0 < blockWindow x.block ∧ x.start + blockWindow x.block ≤ d.now)
((∀ x ∈ s.dev.svc.opens, late x = false)) ∧ True) ∧
  (∃ (s : State), ∃ (t : Nat), ∃ (h : Handling), let d := tick t s.dev
let late := fun (x : Handling) => decide (x.level ≤ 2 ∧ 0 < blockWindow x.block ∧ x.start + blockWindow x.block ≤ d.now)
(s.dev.svc.opens.find? late = some h) ∧ (h.level < 2) ∧ (h.block ∈ [0x05, 0x0C, 0x0D, 0x0E, 0x10, 0x11, 0x12, 0x13, 0x15]) ∧ True) ∧
  (∃ (s : State), ∃ (t : Nat), ∃ (h : Handling), let d := tick t s.dev
let late := fun (x : Handling) => decide (x.level ≤ 2 ∧ 0 < blockWindow x.block ∧ x.start + blockWindow x.block ≤ d.now)
(s.dev.svc.opens.find? late = some h) ∧ (2 ≤ h.level ∨ blockRf h.block = true) ∧ True) :=
  ⟨⟨(lState[0]'(by decide)), ⟨0, ⟨(lHandling[0]'(by decide)), by decide +kernel⟩⟩⟩,
  ⟨(lState[1]'(by decide)), ⟨10000000000, ⟨(lHandling[0]'(by decide)), by decide +kernel⟩⟩⟩,
  ⟨(lState[3]'(by decide)), ⟨10000000000, ⟨(lHandling[3]'(by decide)), by decide +kernel⟩⟩⟩⟩
end RecoveryTimeout

namespace QueuedFaults
def lState : List State := [s1, opn [h 2 0x0C 0x20 1], onRun (svc fun v => { v with queue := [h 2 0x0C 0x24 1,h 1 7 0x17 1] }), onRun (svc fun v => { v with queue := [h 1 7 0x17 1] }), onRun (svc fun v => { v with queue := [h 4 7 0x30 3] })]
theorem witness_QueuedFaults :
  (∃ (s : State), ∃ (t : Nat), (s.dev.svc.opens ≠ [] ∨ s.dev.svc.queue = []) ∧ True) ∧
  (∃ (s : State), ∃ (t : Nat), ∃ h, ∃ rest, (s.dev.svc.opens = []) ∧ (s.dev.svc.queue = h :: rest) ∧ True) :=
  ⟨⟨(lState[0]'(by decide)), ⟨0, by decide +kernel⟩⟩,
  ⟨(lState[2]'(by decide)), ⟨0, ⟨(lHandling[7]'(by decide)), ⟨[{ num := 0x0001#16, block := 7, code := 23, level := 1, start := 5, parent := 0x0001#16, detail := 2 }], by decide +kernel⟩⟩⟩⟩⟩
end QueuedFaults

namespace TestPhases
def tst (x : TestRun) (f : Op → Op) : State := onRun fun d => { (svc fun v => { v with test := some x }) d with ops := [f (packetOp 0x801 { cring := 0, tag := 9, rring := 5, prog := true, after := false, hold := false, block := [5] } d)] }
def lOp : List Op := (tst ⟨9, 5, 0, 0, 0, 0⟩ id).dev.ops
def lState : List State := [s1, tst ⟨9, 5, 0, 0, 0, 0⟩ id, tst ⟨9, 5, 1, 2, 0, 0⟩ id, tst ⟨9, 5, 3, 4, 0, 0⟩ id]
theorem witness_TestPhases :
  (∃ (s : State), ∃ (t : Nat), ∃ (ok : Bool), ∃ (addr : Word), ∃ (x : TestRun), ∃ (o : Op), ((s.dev.svc.test = none ∨ (s.dev.svc.test = some x ∧ x.now = 0))) ∧ True) ∧
  (∃ (s : State), ∃ (t : Nat), ∃ (ok : Bool), ∃ (addr : Word), ∃ (x : TestRun), ∃ (o : Op), (s.dev.svc.test = some x) ∧ (findOp s.dev x.tag = some o) ∧ (x.bad = 0) ∧ (ok = true) ∧ (x.now = 1 ∨ x.now = 2 ∨ x.now = 3) ∧ (o.pend = .none) ∧ (o.failAs = none) ∧ True) ∧
  (∃ (s : State), ∃ (t : Nat), ∃ (ok : Bool), ∃ (addr : Word), ∃ (x : TestRun), ∃ (o : Op), (s.dev.svc.test = some x) ∧ (findOp s.dev x.tag = some o) ∧ (x.bad = 0) ∧ (ok = true) ∧ (x.now = 4) ∧ True) ∧
  (∃ (s : State), ∃ (t : Nat), ∃ (ok : Bool), ∃ (addr : Word), ∃ (x : TestRun), ∃ (o : Op), let d := tick t s.dev
(s.dev.svc.test = some x) ∧ (findOp s.dev x.tag = some o) ∧ (x.bad = 0) ∧ (ok = false) ∧ (x.now = 1 ∨ x.now = 2 ∨ x.now = 3) ∧ (s.dev.svc.opens = []) ∧ (recentOf d x.block = false) ∧ True) :=
  ⟨⟨(lState[0]'(by decide)), ⟨0, ⟨true, ⟨0x00000000#32, ⟨{ tag := 9, block := 5, phase := 0, now := 0, bad := 0, addr := 0x00000000#32 }, ⟨(lOp[0]'(by decide)), by decide +kernel⟩⟩⟩⟩⟩⟩,
  ⟨(lState[2]'(by decide)), ⟨0, ⟨true, ⟨0x00000000#32, ⟨{ tag := 9, block := 5, phase := 1, now := 2, bad := 0, addr := 0x00000000#32 }, ⟨(lOp[0]'(by decide)), by decide +kernel⟩⟩⟩⟩⟩⟩,
  ⟨(lState[3]'(by decide)), ⟨0, ⟨true, ⟨0x00000000#32, ⟨{ tag := 9, block := 5, phase := 3, now := 4, bad := 0, addr := 0x00000000#32 }, ⟨(lOp[0]'(by decide)), by decide +kernel⟩⟩⟩⟩⟩⟩,
  ⟨(lState[2]'(by decide)), ⟨0, ⟨false, ⟨0x00000000#32, ⟨{ tag := 9, block := 5, phase := 1, now := 2, bad := 0, addr := 0x00000000#32 }, ⟨(lOp[0]'(by decide)), by decide +kernel⟩⟩⟩⟩⟩⟩⟩
end TestPhases

def soon (b n : Nat) (s : State) : State := mapDev (fun d => { d with svc := { d.svc with recent := [⟨0, b, n, 1, 0, 0, 0⟩] } }) s
def opened (b : Nat) (s : State) : State := mapDev (fun d => { d with svc := { d.svc with opens := [⟨0, b, 1, 1, 0, 0, 0⟩] } }) s
def isRecent (s : State) (t b : Nat) : Bool :=
  s.dev.svc.recent.any fun x => decide (x.block = b) && decide ((tick t s.dev).now < x.start + blockWindow b)
theorem witness_SelfChecks :
    (∃ (s : State), isRecent s 0 0x14 = false ∧ s.dev.svc.opens = [] ∧ s.dev.svc.kept = none ∧ s.dev.svc.ledger.length < 512) ∧
    (∃ (s : State), isRecent s 0 0x15 = false ∧ (∃ o, s.dev.svc.opens = [o] ∧ blockRf o.block = false) ∧ s.dev.svc.queue.length < 8) ∧
    (∃ (s : State), isRecent s 0 0x14 = false ∧ ∃ o, s.dev.svc.opens = [o] ∧ blockRf o.block = true) ∧
    (∃ (s : State), isRecent s 0 0x15 = true) ∧ (∃ (s : State), isRecent s 0 0x14 = true) :=
  ⟨⟨s1, by decide +kernel⟩, ⟨opened 5 s1, by decide +kernel, ⟨⟨0, 5, 1, 1, 0, 0, 0⟩, by decide +kernel⟩, by decide +kernel⟩, ⟨opened 8 s1, by decide +kernel, ⟨0, 8, 1, 1, 0, 0, 0⟩, by decide +kernel⟩,
   ⟨soon 0x15 0x52 s1, by decide +kernel⟩, ⟨soon 0x14 0x3A s1, by decide +kernel⟩⟩

end Sys2Proof.Tests.P63

namespace Sys2Proof.Tests.P70



theorem witness_IdleStep : ∃ (s : State), s.pending = [] ∧ s.tagm.hostW = none := ⟨s1, by decide +kernel⟩
theorem witness_TagInvariantStep : ∃ (s u : State), TagmInv s.tagm ∧ step s = .next u :=
  ⟨s1, _, by refine ⟨?_, ?_, ?_, ?_⟩ <;> decide +kernel, rfl⟩

end Sys2Proof.Tests.P70

namespace Sys2Proof.Tests.P71

def rg (a : Nat) (v : Word) (s : State) : State := mapDev (fun d => setReg a v { d with set0 := { d.set0 with regs := CMap.set (fun _ => 0) d.set0.regs a v }, set1 := { d.set1 with regs := CMap.set (fun _ => 0) d.set1.regs a v } }) s
def pw (n : Nat) (s : State) : State := mapDev (fun d => setDom n { dom d n with pos := .on, pend := none } d) s
def sP : State := (List.range 13).foldl (fun s n => pw n s) s1
def sU : State := { sP with tagm := { sP.tagm with hostW := none } }
def op0 : Op := ⟨7, 0x300, 2, 0, false, false, true, .running, .none, false, false, 0, 0, 0, 0, 1, [0,0,0,0], 0, none, false, [], none, none, false⟩
def both (a : Nat) (v : Word) (s : State) : State := mapDev (setReg a v ∘ setReg (a + 0x8000) v) s

namespace ChannelFrequency
def st (v : Word) : Dev := (mapDev (fun d => { d with uhf := { d.uhf with entry := some 1 }, set0 := { d.set0 with chan := [(1, 0x80000123)], regs := CMap.set (fun _ => 0) (CMap.set (fun _ => 0) d.set0.regs Reg.UHF_CHAN_CFG v) Reg.UHF_CHAN_BASE 865700 } }) sU).dev
def lDev : List Dev := (List.range 8).map fun n => st (nw n)
theorem witness_ChannelFrequency :
  ∃ (d : Dev), ∃ (k : Nat), (d.uhf.entry = some k) ∧ True :=
  ⟨(lDev[0]'(by decide)), ⟨1, by decide +kernel⟩⟩
end ChannelFrequency

namespace TemperatureSets
def cs (i : Nat) (temp : Int) : State := mapDev (fun d => setCal i { calOf d i with prev := some [10, -20] } { d with cal := { d.cal with run := some ⟨i, false⟩, temp := temp, cmd := none } }) sU
def lState : List State := [0,1,2,3,4,5,6].flatMap fun i => ([-200, -100, 29, 30, 169, 170, 329,330, 500] : List Int).map fun x => cs i x
theorem witness_TemperatureSets :
  (∃ i, (i < 7) ∧ True) ∧
  (∃ (s : State), ∃ (t k : Nat), ∃ (m : CalMeasure), ∃ (i : Nat), ∃ (p : List Int), (i ∈ calOrder) ∧ (s.dev.cal.run = some ⟨i, false⟩) ∧ ((calOf s.dev i).prev = some p) ∧ (calDiff p m.codes ≤ calTol s.dev i) ∧ (s.dev.cal.cmd = none) ∧ (m.storeOk = true) ∧ (fenced s.dev 0x13 = false) ∧ ((calOf s.dev i).sets.length = 5) ∧ let temp := s.dev.cal.temp
((k = 0 ∧ temp < -100) ∨ (k = 1 ∧ -100 ≤ temp ∧ temp < 30) ∨ (k = 2 ∧ 30 ≤ temp ∧ temp < 170) ∨ (k = 3 ∧ 170 ≤ temp ∧ temp < 330) ∨
      (k = 4 ∧ 330 ≤ temp)) ∧ True) :=
  ⟨⟨0, by decide +kernel⟩,
  ⟨(lState[0]'(by decide)), ⟨0, ⟨0, ⟨{ codes := [10, -19], info := 0x00000000#32, snr := [], badSlices := 0x00000#18, storeOk := true }, ⟨0, ⟨[10, -20], by decide +kernel⟩⟩⟩⟩⟩⟩⟩
end TemperatureSets

namespace RecoveryWindows
def hn (b lv : Nat) : Handling := ⟨3, b, 0x10, lv, 5, 0, 0⟩
def hs : List Handling := (List.range 0x18).flatMap fun b => [hn b 1, hn b 2, hn b 3]
def lHandling : List Handling := hs
def lState : List State := hs.map fun h => mapDev (fun d => { d with svc := { d.svc with opens := [h] } }) sU
theorem witness_RecoveryWindows :
  (∃ (s : State), ∃ (t : Nat), ∃ (h : Handling), (s.dev.svc.opens = [h]) ∧ (1 ≤ h.block) ∧ (h.block ≤ 0x17) ∧ (h.level < 3) ∧ let d := tick t s.dev
(d.now < h.start + blockWindow h.block) ∧ True) ∧
  (∃ (s : State), ∃ (t : Nat), ∃ (h : Handling), (s.dev.svc.opens = [h]) ∧ (1 ≤ h.block) ∧ (h.block ≤ 0x17) ∧ (h.level < 3) ∧ let d := tick t s.dev
(h.start + blockWindow h.block ≤ d.now) ∧ True) :=
  ⟨⟨(lState[3]'(by decide)), ⟨0, ⟨(lHandling[3]'(by decide)), by decide +kernel⟩⟩⟩,
  ⟨(lState[3]'(by decide)), ⟨160000005, ⟨(lHandling[3]'(by decide)), by decide +kernel⟩⟩⟩⟩
end RecoveryWindows

end Sys2Proof.Tests.P71

end
end

