-- ==== Sys2Proof/Proofs/RegisterWrites.lean ====
section
/-! SUPPORT. One write of a register by its cases (R11, R12, R358, R362, R367): an address with no register, a bank that is not ON,
the fields of a plain register, and a shadow address; and the statement assembled from them. -/
namespace Sys2Proof.Machine

/-! Where a write is discarded (R358, R362) -/

/-- GENERIC_REGISTER_WRITE below the end of the register space is one write, once the tick has come. -/
theorem exec_genericRegisterWrite_eq_writeReg {t : Nat} {r : Reader} {sh : Bool} {addr : BitVec 13} {v : Word} {s : State} (ha : addr.toNat < 0x800)
    (h : s.tagm.hostW = none) : exec (.genericRegisterWrite t r sh addr v) s =
      .next (writeReg r sh addr.toNat v { s with dev := tick t s.dev }).1 := by
  rw [exec_genericRegisterWrite, execGenericRegisterWrite, if_pos ha, regAccess, hostRun_none (by exact h)]

theorem writeReg_undefined {a : Nat} (r : Reader) (sh : Bool) (v : Word) (s : State) (hd : regDefined a = false) :
    writeReg r sh a v s = (s, false) := by simp [writeReg, hd]

section Defined
variable {r : Reader} {a : Nat} {s : State} (hd : regDefined a = true) (hr : r = .applet → appletBarred a = false)
include hd hr

/-- A write of a register of a bank that is not ON sets DOM_OFF and does nothing else. -/
theorem writeReg_not_on (sh : Bool) (v : Word) (hp : domPower s.dev (bankDomain s.dev a) ≠ .on) :
    writeReg r sh a v s = ({ s with dev := domOffEvent s.dev }, false) := by
  have hw : ¬ (regDefined a = false ∨ (r = .applet ∧ appletBarred a = true)) := by simpa [hd] using hr
  rw [writeReg, if_neg hw]
  split
  · contradiction
  · rfl

theorem writeReg_on (sh : Bool) (v : Word) (hp : domPower s.dev (bankDomain s.dev a) = .on) :
    writeReg r sh a v s = writeOn r sh a v s := by
  have hw : ¬ (regDefined a = false ∨ (r = .applet ∧ appletBarred a = true)) := by simpa [hd] using hr
  rw [writeReg, if_neg hw, hp]

end Defined

/-- What is neither a data register nor a pointer takes a shadow write by its set-paired fields. -/
theorem writeOn_shadow {a : Nat} (r : Reader) (v : Word) (s : State) (hp : portPointer a = none) (hm : pointerMask a = none) :
    writeOn r true a v s = ({ s with dev := (writeShadow r a v s.dev).1 }, (writeShadow r a v s.dev).2) := by
  simp [writeOn, hp, hm]

/-- A plain register takes a write by its fields alone. -/
theorem writeOn_plain {r : Reader} {a : Nat} (v : Word) (s : State) (h : PlainRegister r a) :
    writeOn r false a v s = ({ s with dev := (writeFields a v s.dev).1 }, (writeFields a v s.dev).2) := by
  obtain ⟨hp, hm, hw⟩ := h
  simp [writeOn, hp, hm, hw]

/-! The fields of a plain register (R11, R363) -/

/-- The word `old` of a register after a write of `v`: RW fields take it, ones clear W1C fields but for the event bits `ev` of the tick. -/
def fieldsWord (i : RegInfo) (ev v old : Word) : Word :=
  ((old &&& ~~~ i.rw) ||| (v &&& i.rw)) &&& ~~~ (v &&& i.w1c &&& ~~~ ev)

theorem and_not_and_zero (w v e : Word) : w &&& ~~~ (v &&& 0 &&& e) = w := by
  simp only [BitVec.ofNat_eq_ofNat, BitVec.and_zero, BitVec.zero_and, BitVec.not_zero, BitVec.and_allOnes]

theorem and_not_zero_or_and_zero (w v : Word) : (w &&& ~~~ 0) ||| (v &&& 0) = w := by
  simp only [BitVec.ofNat_eq_ofNat, BitVec.and_zero, BitVec.not_zero, BitVec.and_allOnes, BitVec.or_zero]

/-- Ones written under the mask `m` clear their bits, unless the tick has set them; under an empty mask nothing changes. -/
theorem reg_w1c_masked (a x : Nat) (m v : Word) (d : Dev) : reg (if m = 0 then d else w1c a (v &&& m) d) x =
    if x = a then reg d a &&& ~~~ (v &&& m &&& ~~~ CMap.get (fun _ => 0) (tickMarks d).ev a) else reg d x := by
  split
  · next hm =>
    subst hm
    split
    · next hx => rw [hx]; exact (and_not_and_zero _ _ _).symm
    · rfl
  · exact reg_setReg _ _ _ _

/-- A write puts its bits under the mask `m`; under an empty mask nothing changes. -/
theorem reg_setReg_masked (a x : Nat) (m v : Word) (d : Dev) :
    reg (if m = 0 then d else setReg a ((reg d a &&& ~~~ m) ||| (v &&& m)) d) x =
      if x = a then (reg d a &&& ~~~ m) ||| (v &&& m) else reg d x := by
  split
  · next hm =>
    subst hm
    split
    · next hx => rw [hx]; exact (and_not_zero_or_and_zero _ _).symm
    · rfl
  · exact reg_setReg _ _ _ _

/-- A write of a register word leaves the marks of the tick. -/
theorem tickMarks_ite_setReg (c : Prop) [Decidable c] (a : Nat) (w : Word) (d : Dev) :
    tickMarks (if c then d else setReg a w d) = tickMarks d := by split <;> rfl

/-- A plain write puts the word of its fields in its register and changes no other. -/
theorem reg_writeFields (a x : Nat) (v : Word) (d : Dev) : reg (writeFields a v d).1 x =
    if x = a then fieldsWord (regInfo a) (CMap.get (fun _ => 0) (tickMarks d).ev a) v (reg d a) else reg d x := by
  simp only [writeFields, reg_w1c_masked, reg_setReg_masked, tickMarks_ite_setReg, if_true, fieldsWord]
  split <;> rfl

/-- Beside the register words a plain write changes nothing. -/
theorem writeFields_frame (a : Nat) (v : Word) (d : Dev) :
    (writeFields a v d).1 = { d with regs := (writeFields a v d).1.regs } := by
  simp only [writeFields]
  split <;> split <;> rfl

/-- With no event of this tick every one written to a W1C field clears its bit. -/
theorem fieldsWord_no_event (i : RegInfo) (v old : Word) :
    fieldsWord i 0 v old = ((old &&& ~~~ i.rw) ||| (v &&& i.rw)) &&& ~~~ (v &&& i.w1c) := by
  simp only [fieldsWord, BitVec.ofNat_eq_ofNat, BitVec.not_zero, BitVec.and_allOnes]

theorem bit_fieldsWord_of_w1c {i : RegInfo} {v old : Word} {k : Nat} (hc : bit i.w1c k = true) (hw : bit i.rw k = false) :
    bit (fieldsWord i 0 v old) k = (bit old k && !bit v k) := by
  have hk : k < 32 := BitVec.lt_of_getLsbD hc
  unfold bit at *
  rw [fieldsWord_no_event]
  simp [-BitVec.getLsbD_eq_getElem, hc, hw, hk]

theorem bit_fieldsWord_of_not_w1c {i : RegInfo} {v old : Word} {k : Nat} (hc : bit i.w1c k = false) :
    bit (fieldsWord i 0 v old) k = if bit i.rw k then bit v k else bit old k := by
  unfold bit at *
  rw [fieldsWord_no_event]
  by_cases hk : k < 32
  · cases hw : i.rw.getLsbD k <;> simp [-BitVec.getLsbD_eq_getElem, hc, hw, hk]
  · simp [BitVec.getLsbD_of_ge _ _ (Nat.le_of_not_lt hk)]

/-! Shadow writes (R365, R367) -/

@[simp] theorem shadowSet_setShadow (c : CfgSet) (d : Dev) : shadowSet (setShadow c d) = c := by
  unfold shadowSet setShadow; split <;> simp_all

theorem cfgOf_setCfgOf (c : CfgSet) (a k : Nat) (v : Word) : cfgOf (setCfgOf c a v) k = if k = a then v else cfgOf c k :=
  CMap.get_set _ _ _ _ _

/-- Firmware's shadow write puts the set-paired fields in the shadow set, turn or copy or not. -/
theorem writeShadow_fw {a : Nat} (v : Word) (d : Dev) (hs : (regInfo a).sp ≠ 0) (ht : a ≠ Reg.TIME_PLAN_CFG) (hh : a ≠ Reg.HF_CFG) :
    writeShadow .fw a v d =
      (setShadow (setCfgOf (shadowSet d) a ((cfgOf (shadowSet d) a &&& ~~~ (regInfo a).sp) ||| (v &&& (regInfo a).sp))) d, true) := by
  have hheld : shadowHeld d .fw = false := rfl
  simp only [writeShadow, if_neg hs, hheld]
  simp [ht, hh]

/-! The four cases of a write -/

section Cases
variable {s : State} {t : Nat} {r : Reader} {sh : Bool} {addr : BitVec 13} (v : Word)
  (ha : addr.toNat < 0x800) (hh : s.tagm.hostW = none)
include ha hh

theorem registerWrite_undefined (hd : regDefined addr.toNat = false) :
    Does (.genericRegisterWrite t r sh addr v) s (tick t s.dev) := by
  rw [Does, exec_genericRegisterWrite_eq_writeReg ha hh, writeReg_undefined _ _ _ _ hd]

variable (hd : regDefined addr.toNat = true) (hr : r = .applet → appletBarred addr.toNat = false)
include hd hr

theorem registerWrite_not_on (hp : domPower (tick t s.dev) (bankDomain (tick t s.dev) addr.toNat) ≠ .on) :
    Does (.genericRegisterWrite t r sh addr v) s (domOffEvent (tick t s.dev)) := by
  rw [Does, exec_genericRegisterWrite_eq_writeReg ha hh, writeReg_not_on hd hr sh v hp]

variable (hp : domPower (tick t s.dev) (bankDomain (tick t s.dev) addr.toNat) = .on)
include hp

theorem registerWrite_plain (hpl : PlainRegister r addr.toNat) :
    Does (.genericRegisterWrite t r false addr v) s (writeFields addr.toNat v (tick t s.dev)).1 := by
  rw [Does, exec_genericRegisterWrite_eq_writeReg ha hh, writeReg_on hd hr false v hp, writeOn_plain _ _ hpl]

theorem registerWrite_shadow (hpp : portPointer addr.toNat = none) (hpm : pointerMask addr.toNat = none) :
    Does (.genericRegisterWrite t r true addr v) s (writeShadow r addr.toNat v (tick t s.dev)).1 := by
  rw [Does, exec_genericRegisterWrite_eq_writeReg ha hh, writeReg_on hd hr true v hp, writeOn_shadow _ _ _ hpp hpm]

end Cases

/-- Settles O27: the address has no register, its bank is not ON, or the write is one of a plain register or of a shadow address. -/
theorem registerWrites : Obligations.RegisterWrites := by
  intro s t r sh addr v a i y ha hh hr
  refine ⟨registerWrite_undefined v ha hh, fun hd hp => ?off, fun hd hp hpl hsh hev => ?plain,
    fun hd hp hpp hpm hsh hfw ht hhf hsp => ?shadow⟩
  case off =>
    refine ⟨_, registerWrite_not_on v ha hh hd hr hp, fun k => ?_, rfl⟩
    rw [domOffEvent, reg_event]
    split
    · next hk => rw [hk]; rfl
    · rfl
  case plain =>
    subst hsh
    refine ⟨_, registerWrite_plain v ha hh hd hr hp hpl, fun k hc hw => ?_, fun k hc => ?_, fun x hx => ?_, writeFields_frame _ _ _⟩
    · rw [reg_writeFields, if_pos rfl, hev, bit_fieldsWord_of_w1c hc hw]
    · rw [reg_writeFields, if_pos rfl, hev, bit_fieldsWord_of_not_w1c hc]
    · rw [reg_writeFields, if_neg (by simpa using hx)]
  case shadow =>
    subst hsh hfw
    refine ⟨_, registerWrite_shadow v ha hh hd hr hp hpp hpm, ?_⟩
    rw [writeShadow_fw v _ hsp ht hhf]
    refine ⟨fun k => ?_, ?_⟩
    · rw [shadowSet_setShadow, cfgOf_setCfgOf]
      split
      · next hk => rw [hk]
      · rfl
    · rw [shadowSet_setShadow]; rfl

end Sys2Proof.Machine
end

section
/-! SUPPORT. What firmware does with one entry of the slot log of an inventory (R187, R197), what its writes of buffers and tables
leave alone (R207), and how it prepares a covered command and judges an acquisition (R203, R205, R206). -/
namespace Sys2Proof.Machine

/-! Frames: what the small writes of firmware leave alone -/

/-- Only the two sets of configuration differ. -/
def SetsFrame (d e : Dev) : Prop := e = { d with set0 := e.set0, set1 := e.set1 }

/-- Only the two sets of configuration and the software flags of the sequencer differ. -/
def FlagFrame (d e : Dev) : Prop := e = { d with seq := { d.seq with sw := e.seq.sw }, set0 := e.set0, set1 := e.set1 }

theorem SetsFrame.refl (d : Dev) : SetsFrame d d := rfl

theorem SetsFrame.trans {d e f : Dev} (h : SetsFrame d e) (g : SetsFrame e f) : SetsFrame d f := by
  unfold SetsFrame at *; rw [g, h]

theorem SetsFrame.flag {d e : Dev} (h : SetsFrame d e) : FlagFrame d e := by
  unfold SetsFrame FlagFrame at *; rw [h]

theorem FlagFrame.trans {d e f : Dev} (h : FlagFrame d e) (g : FlagFrame e f) : FlagFrame d f := by
  unfold FlagFrame at *; rw [g, h]

theorem setSw_frame (n : Nat) (v : Bool) (d : Dev) : FlagFrame d (setSw n v d) := rfl

theorem FlagFrame.acc_eq {d e : Dev} (h : FlagFrame d e) : e.acc = d.acc := by rw [h]
theorem FlagFrame.ops_eq {d e : Dev} (h : FlagFrame d e) : e.ops = d.ops := by rw [h]

/-- What differs in the sets and flags from a device with another access state differs from the device in these three. -/
theorem FlagFrame.of_acc {d e : Dev} {a : Access} (h : FlagFrame { d with acc := a } e) :
    e = { d with acc := e.acc, seq := { d.seq with sw := e.seq.sw }, set0 := e.set0, set1 := e.set1 } := by
  rw [h.acc_eq]; exact h

/-- A software flag takes its value, and every other one stays. -/
theorem setSw_getLsbD {n : Nat} (k : Nat) (v : Bool) (d : Dev) (hn : n < 8) :
    (setSw n v d).seq.sw.getLsbD k = if k = n then v else d.seq.sw.getLsbD k := by
  have hmask : (BitVec.ofNat 8 (2 ^ n)).getLsbD k = decide (k = n) := by
    rw [BitVec.getLsbD_ofNat, Nat.testBit_two_pow]
    simp only [Bool.and_eq_decide, decide_eq_true_eq, decide_eq_decide]
    omega
  unfold setSw
  generalize BitVec.ofNat 8 (2 ^ n) = m at hmask
  cases v
  · by_cases hk : k < 8
    · simp [-BitVec.getLsbD_eq_getElem, hmask, hk, Bool.and_comm]
    · simp [BitVec.getLsbD_of_ge _ _ (Nat.le_of_not_lt hk)]
  · simp [-BitVec.getLsbD_eq_getElem, hmask, Bool.or_comm]

theorem setActive_frame (c : CfgSet) (d : Dev) : SetsFrame d (setActive c d) := by unfold setActive; split <;> rfl
theorem setShadow_frame (c : CfgSet) (d : Dev) : SetsFrame d (setShadow c d) := by unfold setShadow; split <;> rfl

theorem fwSets_frame (f : CfgSet → CfgSet) (d : Dev) : SetsFrame d (fwSets f d) := by
  simp only [fwSets]
  split
  · exact setActive_frame _ d
  · exact (setActive_frame _ d).trans (setShadow_frame _ _)

theorem fwBuffer_frame (b : Nat) (h : Word) (bits : List Bool) (d : Dev) : SetsFrame d (fwBuffer b h bits d) := by
  unfold fwBuffer; exact fwSets_frame _ d
theorem fwTable_frame (lo hi : Nat) (ss : List (Nat × DWord)) (d : Dev) : SetsFrame d (fwTable lo hi ss d) := fwSets_frame _ d
theorem fwImmediate_frame (hdr hnd : Bool) (len : Nat) (d : Dev) : SetsFrame d (fwImmediate hdr hnd len d) := by
  unfold fwImmediate; exact fwSets_frame _ d
theorem fwDelayed_frame (len : Nat) (d : Dev) : SetsFrame d (fwDelayed len d) := by
  unfold fwDelayed; exact fwSets_frame _ d

theorem fwCommand_frame (o : Op) (cover : Nat) (d : Dev) : SetsFrame d (fwCommand o cover d) := by
  simp only [fwCommand]
  split
  · exact .refl d
  · split
    · exact (fwBuffer_frame _ _ _ d).trans (fwImmediate_frame _ _ _ _)
    · split
      · exact (fwBuffer_frame _ _ _ d).trans (fwImmediate_frame _ _ _ _)
      · exact (fwBuffer_frame _ _ _ d).trans (fwDelayed_frame _ _)

theorem fwReadback_frame (o : Op) (d : Dev) : SetsFrame d (fwReadback o d) :=
  (fwBuffer_frame _ _ _ d).trans (fwImmediate_frame _ _ _ _)

theorem fwBlockBuffers_frame (o : Op) (cover : Nat) (d : Dev) : SetsFrame d (fwBlockBuffers o cover d) := by
  simp only [fwBlockBuffers]
  split
  · exact (fwCommand_frame o cover d).trans (fwReadback_frame o _)
  · exact fwCommand_frame o cover d

theorem fwAcquireBuffers_frame (o : Op) (d : Dev) : SetsFrame d (fwAcquireBuffers o d) :=
  (fwImmediate_frame _ _ _ d).trans <| (fwBuffer_frame _ _ _ _).trans <| (fwBuffer_frame _ _ _ _).trans <|
    (fwBuffer_frame _ _ _ _).trans <| (fwBuffer_frame _ _ _ _).trans <| (fwBuffer_frame _ _ _ _).trans (fwBuffer_frame _ _ _ _)

theorem fwUnit_frame (o : Op) (d : Dev) : SetsFrame d (fwUnit o d) := by
  simp only [fwUnit]
  split
  case h_1 => exact fwAcquireBuffers_frame o d
  case h_2 => exact (fwBuffer_frame _ _ _ d).trans ((fwBuffer_frame _ _ _ _).trans (fwImmediate_frame _ _ _ _))
  case h_3 => exact fwImmediate_frame _ _ _ d
  case h_4 => exact fwBlockBuffers_frame o 0 d
  case h_5 => exact fwReadback_frame o d

/-- Preparing a unit notes its time, writes the sets and sets software flags. -/
theorem accPrepare_frame (o : Op) (d : Dev) : FlagFrame { d with acc := { d.acc with prepared := d.now } } (accPrepare o d) :=
  ((fwUnit_frame o _).trans (fwTable_frame _ _ _ _)).flag.trans ((setSw_frame 5 true _).trans (setSw_frame 6 _ _))

/-- Preparing a unit sets SW5. -/
theorem accPrepare_sw5 (o : Op) (d : Dev) : (accPrepare o d).seq.sw.getLsbD 5 = true :=
  (setSw_getLsbD 5 _ _ (by decide)).trans (setSw_getLsbD 5 _ _ (by decide))

/-- Where no operation has a request, none leaves RUNNING. -/
theorem opsSettle_of_no_request {d : Dev} (h : ∀ p ∈ d.ops, p.pend = .none) : opsSettle d = d := by
  have hnone : d.ops.filter (fun o => !o.ended && decide (o.st = .running) && decide (o.pend ≠ .none) && atAbortPoint d o) = [] :=
    List.filter_eq_nil_iff.2 fun p hp => by simp [h p hp]
  rw [opsSettle, hnone, List.foldl_nil]

/-! Slot-log entries of an inventory (R187, R197) -/

/-- A field of all 32 bits is the word. -/
theorem fld_word (w : Word) : fld w 31 0 = w.toNat :=
  (congrArg (· % 2 ^ 32) (Nat.div_one w.toNat)).trans (Nat.mod_eq_of_lt w.isLt)

/-- A counter of a whole register counts one more, up to its maximum. -/
theorem reg_count_word (a : Nat) (d : Dev) :
    reg (count a 31 0 1 d) a = setFld (reg d a) 31 0 (min 0xFFFFFFFF ((reg d a).toNat + 1)) := by
  have hone : satInc (2 ^ (31 - 0 + 1) - 1) (fld (reg d a) 31 0) 1 = min 0xFFFFFFFF ((reg d a).toNat + 1) :=
    congrArg (fun v => min 0xFFFFFFFF (v + 1)) (fld_word (reg d a))
  exact (reg_count a 31 0 1 a d).trans ((if_pos rfl).trans (congrArg (setFld (reg d a) 31 0) hone))

/-- The device once firmware has taken the entry of an empty slot for `o`: it is counted, qfp and the slots sent move on, and the
operation has its result. -/
def emptyTaken (o : Op) (e : List Word) (d : Dev) : Dev :=
  let q := qUpdate e (count 0x533 31 0 1 d)
  let res := entryResult e o.res
  updOp o.tag (fun p => { p with res := res, progress := nth 0 res 0 }) { q with gen2 := { q.gen2 with sent := q.gen2.sent.tail } }

section EmptySlot
variable {e : List Word} (hcode : entryCode e = 0x03) (hout : entryOutcome e = 7)
include hcode hout

theorem entryCount_empty (d : Dev) : entryCount e d = count 0x533 31 0 1 d := by
  simp only [entryCount, hcode, hout]

theorem qStep_empty (alg : Word) : qStep alg false e = (-(fld alg 3 0 : Int), false) := by
  simp [qStep, hcode, hout]

section Slot
variable {d : Dev} {sl : SlotRec} {more : List SlotRec} (hsent : d.gen2.sent = sl :: more) (hslot : sl.fslot + 1 < 2 ^ sl.q)
include hsent hslot

/-- An empty slot inside its frame takes C_E from qfp, within the limits of Q. -/
theorem qUpdate_qfp_empty : (qUpdate e d).gen2.qfp =
    max (16 * (qMin d : Int)) (min (16 * (qMax d : Int)) (d.gen2.qfp - fld (cfg d Reg.GEN2_QALG) 3 0)) := by
  have hin : decide (2 ^ sl.q ≤ sl.fslot) = false := by simp; omega
  simp only [qUpdate, hsent, List.headD_cons, hin, qStep_empty hcode hout, Int.sub_eq_add_neg]

/-- The entry of an empty slot before the last of its frame, in a round neither cut nor stale, only steers the sequencer beside. -/
theorem inventoryEntry_empty (o : Op) (r : Option TagRead) (hcut : d.gen2.cutRace = false) (hstale : d.gen2.stale = false) :
    inventoryEntry o e r d = steer false (emptyTaken o e d) := by
  have hlast : ¬ sl.fslot + 1 = 2 ^ sl.q := Nat.ne_of_lt hslot
  have hround : ¬ ((steer false (emptyTaken o e d)).gen2.cutRace || (steer false (emptyTaken o e d)).gen2.stale) = true := by
    change ¬ (d.gen2.cutRace || d.gen2.stale) = true
    simp [hcut, hstale]
  simp only [inventoryEntry, entryCount_empty hcode hout, hcode, hsent, List.headD_cons, hlast, false_and, and_false, decide_false]
  exact if_neg hround

end Slot
end EmptySlot

section Entries
variable {t : Nat} {r : Option TagRead} {s : State} {e : List Word} {rest : List (List Word)}

theorem slotLogEntry_of_empty_log (h : (tick t s.dev).seq.log = []) : Does (.slotLogEntry t r) s (tick t s.dev) := by
  simp only [Does, exec_slotLogEntry, execSlotLogEntry, State.run, h]

theorem slotLogEntry_of_no_operation (h : (tick t s.dev).seq.log = e :: rest) (ho : (thr (tick t s.dev) (entryThread e)).op = none) :
    Does (.slotLogEntry t r) s { tick t s.dev with seq := { (tick t s.dev).seq with log := rest } } := by
  rw [thr] at ho
  simp only [Does, exec_slotLogEntry, execSlotLogEntry, State.run, h, thr, ho, Option.bind_none]

/-- The oldest entry is taken as one of the inventory that runs on thread U. -/
theorem slotLogEntry_of_inventory {o : Op} (h : (tick t s.dev).seq.log = e :: rest) (ht : entryThread e = 0)
    (ho : (thr (tick t s.dev) 0).op = some o.tag) (hf : findOp (tick t s.dev) o.tag = some o) (hc : o.opcode = 0x300) :
    Does (.slotLogEntry t r) s (inventoryEntry o e r { tick t s.dev with seq := { (tick t s.dev).seq with log := rest } }) := by
  rw [thr] at ho
  rw [findOp] at hf
  simp only [Does, exec_slotLogEntry, execSlotLogEntry, State.run, h, thr, ht, ho, Option.bind_some, findOp, hf, hc, if_true]

end Entries

/-- R187, R190, R197: no entry, an entry of an empty slot of the inventory, or one whose thread has no operation. -/
theorem inventoryEntries : Claims.InventoryEntries := by
  intro s t r
  refine ⟨slotLogEntry_of_empty_log, ?_, fun _ _ => slotLogEntry_of_no_operation⟩
  intro e rest o sl more hlog hthread hop hfind hopcode hcode hout hsent hslot hcut hstale
  have hdoes := slotLogEntry_of_inventory (r := r) hlog hthread hop hfind hopcode
  rw [inventoryEntry_empty hcode hout (by exact hsent) hslot o r (by exact hcut) (by exact hstale)] at hdoes
  refine ⟨_, hdoes, rfl, ?sent, ?qfp, ?counted, fun a ha => ?others, rfl, rfl⟩
  case sent => exact congrArg List.tail hsent
  case qfp => exact qUpdate_qfp_empty hcode hout (by exact hsent) hslot
  case counted => exact reg_count_word 0x533 _
  case others => exact reg_count_ne 31 0 1 _ (by simpa using ha)

/-! Units of an access (R203-R206) -/

section Units
variable {t : Nat} {s : State}

theorem accOp_of_find {d : Dev} {o : Op} (h : d.acc.op = some o.tag) (hf : findOp d o.tag = some o) : accOp d = some o := by
  rw [accOp, h, Option.bind_some, hf]

theorem accOp_none {d : Dev} (h : d.acc.op = none) : accOp d = none := by rw [accOp, h, Option.bind_none]

/-- The reply to Req_RN is decided and good, and no unit was prepared since it ended. -/
def rnDecided (d : Dev) : Bool :=
  d.uhf.lastBuf = 21 && (takenChain d).decValid && (takenChain d).crcOk && decide (d.acc.prepared < d.seq.takenEnd.getD 0)

theorem rnDecided_of {d : Dev} (hbuf : d.uhf.lastBuf = 21) (hdec : (takenChain d).decValid = true) (hcrc : (takenChain d).crcOk = true)
    (hlate : d.acc.prepared < d.seq.takenEnd.getD 0) : rnDecided d = true := by
  simp [rnDecided, hbuf, hdec, hcrc, hlate]

theorem rnDecided_eq_false {d : Dev} (h : d.uhf.lastBuf ≠ 21 ∨ (takenChain d).decValid = false ∨ (takenChain d).crcOk = false ∨
    d.seq.takenEnd.getD 0 ≤ d.acc.prepared) : rnDecided d = false := by
  rcases h with h | h | h | h <;> simp [rnDecided, h]

theorem coverCodePrepare_idle (h : accOp (tick t s.dev) = none ∨ rnDecided (tick t s.dev) = false) :
    Does (.coverCodePrepare t) s (tick t s.dev) := by
  simp only [Does, exec_coverCodePrepare, execCoverCodePrepare, State.run]
  rcases h with h | h
  · simp only [h]
  · rw [rnDecided] at h
    split
    · simp only [h, Bool.false_eq_true, if_false]
    · rfl

/-- The device once the RN16 of a cover Req_RN is taken: the command of the block comes next, prepared now. -/
def coverTaken (d : Dev) : Dev := updAcc (fun a => { a with prepared := d.now, phase := .command, working := 0 }) d

theorem coverCodePrepare_cover {o : Op} {rn : BitVec 16} (ho : accOp (tick t s.dev) = some o) (hrn : (tick t s.dev).gen2.rn16 = some rn)
    (hd : rnDecided (tick t s.dev) = true) (hp : (tick t s.dev).acc.phase = .cover) :
    Does (.coverCodePrepare t) s (setSw 5 true (fwBlockBuffers o rn.toNat (coverTaken (tick t s.dev)))) := by
  rw [rnDecided] at hd
  simp only [Does, exec_coverCodePrepare, execCoverCodePrepare, State.run, ho, hrn, hd, if_true, coverTaken, updAcc, hp]

theorem accessUnitJudge_idle (h : (tick t s.dev).acc.op = none ∨ (tick t s.dev).acc.unitEnd = false) :
    Does (.accessUnitJudge t) s (tick t s.dev) := by
  simp only [Does, exec_accessUnitJudge, execAccessUnitJudge, State.run]
  rcases h with h | h
  · simp only [accOp_none h]
  · split
    · rfl
    · simp only [h, Bool.not_false, or_true, if_true]

/-- An acquisition whose reply to Req_RN came in good has ended with the bits of that reply. -/
theorem unitOutcome_acquired {d : Dev} (o : Op) (hlost : d.acc.lost = false) (hphase : d.acc.phase = .acquire) (hbuf : d.uhf.lastBuf = 21)
    (hdec : (takenChain d).decValid = true) (hcrc : (takenChain d).crcOk = true) :
    unitOutcome d o = .good (takenChain d).frame := by
  simp [unitOutcome, hlost, hphase, hbuf, hdec, hcrc]

/-- The access state after a good acquisition: the unit is judged, the handle held, and the Access pair or the block comes next. -/
def accAcquired (o : Op) (bits : List Bool) (a : Access) : Access :=
  { a with unitEnd := false, lost := false, afterTx := false, dropped := false
           handle := some (BitVec.ofNat 16 (natOfBits (bits.take 16))), acqTries := 0, working := 0
           phase := if accPassword o = 0 then blockPhase o a else .access }

theorem judgeUnit_acquired {d : Dev} {o : Op} {bits : List Bool} (hphase : d.acc.phase = .acquire) (hbits : 16 ≤ bits.length) :
    judgeUnit o (.good bits) (updAcc (fun a => { a with unitEnd := false, lost := false, afterTx := false, dropped := false }) d) =
      accPrepare o (updAcc (accAcquired o bits) d) := by
  simp only [judgeUnit, judgeAcquire, updAcc, hphase, hbits, if_true]
  rfl

theorem accessUnitJudge_acquired {o : Op} (ho : accOp (tick t s.dev) = some o) (hrun : o.st = .running)
    (hpend : ∀ p ∈ (tick t s.dev).ops, p.pend = .none) (hend : (tick t s.dev).acc.unitEnd = true) (hlost : (tick t s.dev).acc.lost = false)
    (hdrop : (tick t s.dev).acc.dropped = false) (hphase : (tick t s.dev).acc.phase = .acquire)
    (hbuf : (tick t s.dev).uhf.lastBuf = 21) (hdec : (takenChain (tick t s.dev)).decValid = true)
    (hcrc : (takenChain (tick t s.dev)).crcOk = true) (hbits : 16 ≤ (takenChain (tick t s.dev)).frame.length) :
    Does (.accessUnitJudge t) s (accPrepare o (updAcc (accAcquired o (takenChain (tick t s.dev)).frame) (tick t s.dev))) := by
  have hsettle : ∀ f, opsSettle (accPrepare o (updAcc f (tick t s.dev))) = accPrepare o (updAcc f (tick t s.dev)) := fun f =>
    opsSettle_of_no_request (by rw [(accPrepare_frame o _).ops_eq]; exact hpend)
  simp only [Does, exec_accessUnitJudge, execAccessUnitJudge, State.run, ho, hrun, hend, hdrop,
    unitOutcome_acquired o hlost hphase hbuf hdec hcrc, judgeUnit_acquired hphase hbits, Bool.false_and, Bool.not_true, Bool.false_eq_true,
    ne_eq, not_true_eq_false, or_self, if_false, hsettle]

end Units

/-- R203 to R206: a covered command or a judged acquisition where it is due, and nothing where it is not. -/
theorem accessUnits : Claims.AccessUnits := by
  intro s t
  refine ⟨?cover, ?coverIdle, ?acquire, accessUnitJudge_idle⟩
  case cover =>
    intro o rn hop hfind hrn hbuf hdec hcrc hlate hphase
    have hframe := (fwBlockBuffers_frame o rn.toNat (coverTaken (tick t s.dev))).flag.trans (setSw_frame 5 true _)
    exact ⟨_, coverCodePrepare_cover (accOp_of_find hop hfind) hrn (rnDecided_of hbuf hdec hcrc hlate) hphase,
      hframe.acc_eq, setSw_getLsbD 5 _ _ (by decide), hframe.of_acc⟩
  case coverIdle => exact fun h => coverCodePrepare_idle (h.imp accOp_none rnDecided_eq_false)
  case acquire =>
    intro o hop hfind hrun hpend hend hlost hdrop hphase hbuf hdec hcrc hbits
    have hframe := accPrepare_frame o (updAcc (accAcquired o (takenChain (tick t s.dev)).frame) (tick t s.dev))
    refine ⟨_, accessUnitJudge_acquired (accOp_of_find hop hfind) hrun hpend hend hlost hdrop hphase hbuf hdec hcrc hbits,
      ?_, ?_, ?_, ?_, accPrepare_sw5 o _, hframe.of_acc⟩
    all_goals rw [hframe.acc_eq]
    all_goals rfl

/-- Settles O19: the slot log's entries by what stands first in it, and the two commands of an access by whether their unit is due. -/
theorem inventoryAndAccess : Obligations.InventoryAndAccess := ⟨inventoryEntries, accessUnits⟩

end Sys2Proof.Machine
end
